-- ==== Sys2Proof/Word.lean ====
section
/-! DEFINITION. The word types of the XZ9-P72 and the type of sparse tables. Operations on them stand in Machine/. -/

namespace Sys2Proof

/-- A byte of memory. -/
abbrev Byte := BitVec 8

/-- A 64-bit register. -/
abbrev Word := BitVec 64

/-- A status code (R343): [15:12] class, [11:8] area, [7:0] detail. -/
abbrev Status := BitVec 16

/-- A sparse table by number: keys strictly rising (Machine/Map.lean keeps that form). -/
abbrev NMap (α : Type) := List (Nat × α)

end Sys2Proof
end

