-- ==== Sys2Proof/Syntax.lean ====
section
/-! DEFINITION. The commands and events of the XZ9-P72 (spec/opcode_table.json), one constructor a row, and the plain
data their operands are made of.

The table gives its rows no operand fields. The operands here name WHICH unit, thread, line, command or mailbox the step
concerns, and carry what the device's surroundings contribute to it and no rule computes: bits that flip, measured
temperatures and powers, what a partner on a link sends, what the host answers (log entry 3). -/

namespace Sys2Proof

/-- Physical upsets met by the reads of one step (Table 14.1). `dram` lists (sector address, codeword position 0 to 67,
bits flipped) in the stored word (R210); `parity` the sectors whose basin data fails parity (R201); `dirParity` a parity
error in the directory entry looked up (R191); `hold` the hold offsets of sectors that fail parity (R78); `cache` L1 sectors whose
ECC corrects (false) or does not (true) (Table 14.1, 0x0E and 0x0F); `buffer` a parity error in a collective buffer (0x16). -/
structure Upset where
  dram : List (Nat × Nat × BitVec 8) := []
  parity : List Nat := []
  dirParity : Bool := false
  hold : List Nat := []
  cache : List (Nat × Bool) := []
  buffer : Bool := false
deriving DecidableEq, Repr

/-- What a tile's residue or tag comparators found (R75 to R77): mechanism 1 to 4 of Table 14.1, and the RES fields of
Table 14.3. -/
structure Detect where
  mech : Nat
  axis : Nat
  index : Nat
  expected : Nat
  observed : Nat
deriving DecidableEq, Repr

/-- One unit's rate over a 1 s window (R150); `worked` says that it had work in the window. -/
structure UnitRate where
  core : Bool
  lunit : Nat
  rate : Nat
  worked : Bool
deriving DecidableEq, Repr

/-- Atomic operations of the A extension, amocas and AMOFADD.W (R115, R116). -/
inductive AmoOp where
  | add | swap | and | or | xor | min | max | minu | maxu | cas | fadd
deriving DecidableEq, Repr

/-- Access widths of the atomics: 4, 8 and (amocas.q only) 16 bytes. -/
inductive AmoWidth where
  | w | d | q
deriving DecidableEq, Repr

/-- Addressing of a vector memory instruction (R91, V 1.0): consecutive elements, a byte stride in `rs2`, or offsets of
`ieew` bits in the group that starts at `vs2`. -/
inductive VMode where
  | unit
  | strided (rs2 : BitVec 5)
  | indexed (vs2 : BitVec 5) (ieew : Nat)
deriving DecidableEq, Repr

/-- A vector load or store: first register of the group, addressing, element width in bits, fields per segment, and
whether it is unmasked (the vm bit). -/
structure VForm where
  vd : BitVec 5
  mode : VMode
  eew : Nat
  nf : Nat
  vm : Bool
deriving DecidableEq, Repr

/-- The loads of RV64I, F, D and V. Integer: the width is 2^log2 bytes. -/
inductive LoadForm where
  | int (rd : BitVec 5) (log2 : Nat) (signed : Bool)
  | fp (fd : BitVec 5) (double : Bool)
  | vec (v : VForm)
deriving DecidableEq, Repr

/-- The stores of RV64I, F, D and V. -/
inductive StoreForm where
  | int (rs2 : BitVec 5) (log2 : Nat)
  | fp (fs2 : BitVec 5) (double : Bool)
  | vec (v : VForm)
deriving DecidableEq, Repr

/-- Requester classes of the home ownership check (R246). -/
inductive Agent where
  | berth (b : Nat)
  | operator
  | convoy
  | firmware
deriving DecidableEq, Repr

/-- The requester of a basin message: its node (0 to 71 a logical die, 72 and 73 the host through C0 and C1, 76 to 79
gatehouses G0 to G3), for whom it acts, the tracking attributes the request carries (R181), and the convoy context whose
step set applies to a physical-form access (R258). -/
structure Req where
  node : Nat
  agent : Agent
  tracked : Bool
  redOp : Nat
  ctx : Nat
deriving DecidableEq, Repr

/-- Who writes a register: R6 holds for each alike, and the reachability rules (R16, R25, R87, R222) tell them apart. -/
inductive Accessor where
  | operator
  | firmware
  | berth (b : Nat)
  | host (port : Nat)
deriving DecidableEq, Repr

/-- The cache state a host MemRd asks for (R316). -/
inductive HostWant where
  | none | shared | any
deriving DecidableEq, Repr

/-- Who reaches a berth window (R324). -/
inductive WinSrc where
  | host (port : Nat) (tee : Bool)
  | thread (berth : Nat)
  | erhar (berth : Nat)
deriving DecidableEq, Repr

/-- What an access to a berth window's counter word is (R325). -/
inductive WinOp where
  | add | otherAtomic | write
deriving DecidableEq, Repr

/-- A received cut frame (R225, R226): its sequence number, the bundles whose CRC failed, its payload flit count, the
sequence its control flit acknowledges, a NAK request, and credit returns: ordinary shares of the four virtual channels 0 to 3,
detour shares 4 to 7 (R237). -/
structure CutFrame where
  seq : BitVec 32
  badBundles : List Nat
  flits : Nat
  ack : BitVec 32
  nak : Option (BitVec 32)
  credits : List Nat
deriving DecidableEq, Repr

/-- The header of a cut packet (Table 9.3) and its data flits' bytes. -/
structure CutPkt where
  txn : BitVec 16
  starve : Bool
  len : BitVec 7
  typ : BitVec 8
  src : BitVec 7
  dst : BitVec 7
  tag : BitVec 8
  tracked : Bool
  detour : Bool
  epoch : Bool
  vc : BitVec 2
  addr : BitVec 64
  masks : BitVec 128
  status : BitVec 16
  redOp : BitVec 8
  hopCount : BitVec 8
  hops : List (BitVec 16)
  reserved : Bool
  data : List (BitVec 8)
deriving DecidableEq, Repr

/-- What a cut training attempt sees (R227 to R230): own reset, own T2 mask, the peer's versions, mask, RESET flag and
last-forwarded sequence from T3, whether the T4 confirmations agree, and the free flits that T5 advertises per virtual
channel: ordinary shares 0 to 3, detour shares 4 to 7 (R237). -/
structure CutTrainIn where
  localGood : BitVec 9
  peerHi : Nat
  peerLo : Nat
  peerMask : BitVec 9
  peerReset : Bool
  peerSeq : BitVec 32
  confirm : Bool
  credits : List Nat
deriving DecidableEq, Repr

/-- A received Erhar frame (R276): FEC corrections, whether the CRC holds, acknowledgement, NAK and credit returns. -/
structure ErhFrame where
  seq : BitVec 32
  fecCorr : Nat
  crcOk : Bool
  flits : Nat
  ack : BitVec 32
  nak : Option (BitVec 32)
  credits : List Nat
deriving DecidableEq, Repr

/-- What an Erhar training attempt sees (R278, R279). -/
structure ErhTrainIn where
  localLanes : BitVec 8
  peerLanes : BitVec 8
  peerHi : Nat
  peerLo : Nat
  peerDev : BitVec 18
  peerValid : Bool
  peerReset : Bool
  peerSeq : BitVec 32
  confirm : Bool
  credits : List Nat
deriving DecidableEq, Repr

/-- An Erhar packet: the header flit of Table 11.4 (`count` is bytes 20 to 27 of a collective, `resv` says that some
reserved field is non-zero) and the data flits' bytes. -/
structure ErhPkt where
  dst : BitVec 18
  src : BitVec 18
  ttl : BitVec 6
  epoch : Bool
  hc : Bool
  vc : BitVec 2
  len : BitVec 7
  typ : BitVec 8
  txn : BitVec 16
  addr : BitVec 43
  span : BitVec 24
  masks : BitVec 128
  status : BitVec 16
  anchor : BitVec 16
  group : BitVec 12
  cop : BitVec 8
  cfmt : BitVec 8
  gen : BitVec 64
  chunk : BitVec 32
  count : BitVec 64
  aux : BitVec 64
  resv : Bool
  data : List (BitVec 8)
deriving DecidableEq, Repr

/-- The four CXL event logs (R327). -/
inductive CxlLog where
  | informational | warning | failure | fatal
deriving DecidableEq, Repr

/-- SPDM transports (R400). -/
inductive SpdmTr where
  | doe (port : Nat)
  | mctp
deriving DecidableEq, Repr

/-- A Kiltor mailbox (R329): the operator's, or berth b's. -/
inductive Mbox where
  | op
  | berth (b : Nat)
deriving DecidableEq, Repr

/-- IDE_KM operations on a stream (R322). -/
inductive IdeKmOp where
  | program | go | refresh | stop
deriving DecidableEq, Repr

/-- TDISP requests on a trusted berth's interface (R323). -/
inductive TdispOp where
  | lock | start | stop
deriving DecidableEq, Repr

/-- What bring-up tests find (R411, R413, R223): failed sites, failed engine and core slots as (site, slot), failed
gatehouses, Kiltor clusters that start, a fuse-read anomaly, and logical sites whose margining fails. -/
structure BringUpIn where
  failedSites : List Nat
  badEngines : List (Nat × Nat)
  badCores : List (Nat × Nat)
  badGatehouses : List Nat
  clusters : Nat
  fuseAnomaly : Bool
deriving DecidableEq, Repr

/-- The commands. Each docstring gives the table's mnemonic, rule and summary. -/
inductive Instr where
  /-- TSUB (R102). A thread submits one tile descriptor to the die's tile queue, masked by ENG_CLAIM, and receives a ticket. -/
  | tsub (t : Nat) (rd rs1 rs2 : BitVec 5)
  /-- TWAIT (R103). A thread suspends until every one of its tickets up to rs1 has completed, then receives the combined result word. -/
  | twait (t : Nat) (rd rs1 rs2 : BitVec 5)
  /-- TPOLL (R103). A thread reads the combined result of its tickets up to rs1 without suspending, with PENDING set if any is outstanding. -/
  | tpoll (t : Nat) (rd rs1 rs2 : BitVec 5)
  /-- TWAIT_ACQ (R103). A thread waits as TWAIT does and then performs FENCE.ACQ over all memory. -/
  | twaitAcq (t : Nat) (rd rs1 rs2 : BitVec 5)
  /-- TWAIT_RESUME (R103). A thread suspended in TWAIT resumes within 10 ns of the completion of its last covered ticket. -/
  | twaitResume (t : Nat)
  /-- HLD (R105). A thread starts a barge transfer from memory into a hold and receives a ticket. -/
  | hld (t : Nat) (rd rs1 rs2 rs3 : BitVec 5) (f2 : BitVec 2)
  /-- HST (R105). A thread starts a barge transfer from a hold to memory and receives a ticket. -/
  | hst (t : Nat) (rd rs1 rs2 rs3 : BitVec 5) (f2 : BitVec 2)
  /-- GATH (R106). A thread starts an index-list gather of table rows into a packed hold or memory region. -/
  | gath (t : Nat) (rd rs1 rs2 : BitVec 5) (f7 : BitVec 7)
  /-- SCAT (R106). A thread starts an index-list scatter of packed rows into table rows in memory. -/
  | scat (t : Nat) (rd rs1 rs2 : BitVec 5) (f7 : BitVec 7)
  /-- TRANSFER_COMPLETE (R104). A barge transfer completes once every destination sector is written and accepted, and its ticket completes with its status. -/
  | transferComplete (t ticket : Nat) (u : Upset)
  /-- FENCE_ACQ (R109). A thread invalidates the clean L1 sectors of its core and the clean untracked far copies of its die within its scope. -/
  | fenceAcq (t : Nat) (rd rs1 rs2 : BitVec 5)
  /-- FENCE_REL (R110). A thread writes back the dirty L1 sectors and far lines in its scope and waits for its earlier puts to be acknowledged. -/
  | fenceRel (t : Nat) (rd rs1 rs2 : BitVec 5)
  /-- FENCE_FULL (R111). A thread performs FENCE.REL and then FENCE.ACQ over the same scope. -/
  | fenceFull (t : Nat) (rd rs1 rs2 : BitVec 5)
  /-- FENCE_I (R93). A thread invalidates its core's instruction cache. -/
  | fenceI (t : Nat)
  /-- BPREF (R112). A thread requests the lines of a range into the die's basin, as a hint that never faults. -/
  | bpref (t : Nat) (rd rs1 rs2 : BitVec 5)
  /-- BWB (R112). A thread writes back the dirty lines of a range from its L1 and its die's far part without waiting on puts. -/
  | bwb (t : Nat) (rd rs1 rs2 : BitVec 5)
  /-- BINV (R112). A thread writes back the lines of a range and then drops them from its L1 and its die's far part. -/
  | binv (t : Nat) (rd rs1 rs2 : BitVec 5)
  /-- SPENT_B (R113). A thread declares a memory range dead, discarding its L1 dirty sectors and sending Spd to each home. -/
  | spentB (t : Nat) (rd rs1 rs2 : BitVec 5)
  /-- SPENT_H (R113). A thread marks the hold sectors wholly covered by a range as spent. -/
  | spentH (t : Nat) (rd rs1 rs2 : BitVec 5)
  /-- LDAQ (R114). A thread performs a load and then FENCE.ACQ over all memory. -/
  | ldaq (t : Nat) (rd rs1 rs2 : BitVec 5) (f7 : BitVec 7) (u : Upset)
  /-- SDRL (R114). A thread performs FENCE.REL over all memory and then a store at the home. -/
  | sdrl (t : Nat) (rd rs1 rs2 : BitVec 5) (f7 : BitVec 7)
  /-- MPOP (R118). A thread takes a mooring from a berth's pool, or receives the empty value when the pool is empty. -/
  | mpop (t : Nat) (rd rs1 rs2 : BitVec 5)
  /-- MPUSH (R118). A thread returns a mooring to a berth's pool, or raises MOORING if the address is invalid. -/
  | mpush (t : Nat) (rd rs1 rs2 : BitVec 5)
  /-- CTRADD (R120). A thread releases all memory, adds an increment to a completion counter and receives the old value. -/
  | ctradd (t : Nat) (rd rs1 rs2 : BitVec 5)
  /-- CTRWAIT (R120). A thread suspends until a completion counter reaches a threshold. -/
  | ctrwait (t : Nat) (rd rs1 rs2 : BitVec 5)
  /-- CTRWAIT_RESUME (R120). A thread waiting in CTRWAIT resumes after the satisfying increment and performs FENCE.ACQ. -/
  | ctrwaitResume (t : Nat)
  /-- CTRREAD (R120). A thread reads a completion counter with no ordering. -/
  | ctrread (t : Nat) (rd rs1 rs2 : BitVec 5)
  /-- KRESUME (R124). The fault-handler thread re-executes, skips or fails the instruction named by a fault identifier. -/
  | kresume (t : Nat) (rd rs1 rs2 : BitVec 5)
  /-- KEXIT (R119). A thread ends while its outstanding tickets run on. -/
  | kexit (t : Nat) (rd rs1 rs2 : BitVec 5)
  /-- AMOFADD_W (R116). A thread atomically adds an FP32 value to a word at its home and receives the old value. -/
  | amofaddW (t : Nat) (rd rs1 rs2 : BitVec 5) (aq rl : Bool) (u : Upset)
  /-- AMO (R115). A thread performs an A-extension atomic or amocas, near or far at the home, with optional aq and rl fences. -/
  | amo (t : Nat) (rd rs1 rs2 : BitVec 5) (op : AmoOp) (width : AmoWidth) (aq rl : Bool) (u : Upset)
  /-- LR (R94). A thread takes a load reservation at the home slice of a tracked line, or raises LRSC_UNTRACKED on an untracked one. -/
  | lr (t : Nat) (rd rs1 : BitVec 5) (dword aq rl : Bool) (u : Upset)
  /-- SC (R94). A thread performs a conditional store against its reservation at the home of a tracked line. -/
  | sc (t : Nat) (rd rs1 rs2 : BitVec 5) (dword aq rl : Bool)
  /-- ECALL (R92). A thread raises the ECALL fault. -/
  | ecall (t : Nat)
  /-- EBREAK (R92). A thread raises the EBREAK fault. -/
  | ebreak (t : Nat) (c : Bool)
  /-- THREAD_LOAD (R96). A thread performs a scalar or vector load, served from its L1 if the needed bytes are valid and otherwise from the basin. -/
  | threadLoad (t : Nat) (form : LoadForm) (rs1 : BitVec 5) (imm : BitVec 12) (c : Bool) (u : Upset)
  /-- THREAD_STORE (R96). A thread performs a scalar or vector store that writes its bytes into an L1 sector and sets their mask bits. -/
  | threadStore (t : Nat) (form : StoreForm) (rs1 : BitVec 5) (imm : BitVec 12) (c : Bool)
  /-- WATCH_FIRE (R130). A write to a watched control-block line fires the watch, and the home re-reads line 0, re-arms the watch and takes the new entries. -/
  | watchFire (ctx : Nat)
  /-- WATCH_BACKSTOP (R131). Every 100 µs the home re-reads line 0 of every active context's control block. -/
  | watchBackstop (home : Nat)
  /-- WATCH_REFETCH (R131). A gatehouse fetches and re-reads a watched host line that was lost to back-invalidation or capacity. -/
  | watchRefetch (port ctx : Nat)
  /-- SEQ_REREAD (R128). An entry whose SEQ does not match is read again after 1 µs, up to 4 times, after which the context stops in state 3. -/
  | seqReread (ctx : Nat)
  /-- RUN (R138). A RUN command starts its threads on its die set once its claimed engines are free and its threads can be placed. -/
  | run (ctx seq : Nat)
  /-- SIGNAL (R134). A SIGNAL command does no work and completes as soon as its waits are met. -/
  | signal (ctx seq : Nat)
  /-- PASSAGE (R256). A convoy berth's passage request is checked at take and waits to join a convoy step. -/
  | passage (ctx seq : Nat)
  /-- CONVOY_STEP (R257). A convoy step makes up its batch, writes the manifest and starts the convoy program's threads. -/
  | convoyStep (ctx seq : Nat)
  /-- COMMAND_READY (R146). A command whose last wait is met by an increment becomes ready within 100 ns plus the hop delay. -/
  | commandReady (ctx seq : Nat)
  /-- MULTI_DIE_SCHEDULE (R157). The gatehouse scheduler checks ACTIVE_ID, reserves resources die by die, runs the pre-scan and starts the threads of a multi-die RUN. -/
  | multiDieSchedule (ctx seq : Nat)
  /-- PRESCAN (R135). The anchor pre-scan reads the operand list and sets the command's anchor. -/
  | prescan (ctx seq : Nat) (u : Upset)
  /-- ANCHOR_GENERATION (R302). The scheduler contributes the device's pre-scan anchor to a group max-reduce on the express channel and receives the maximum. -/
  | anchorGeneration (ctx seq : Nat) (groupMax : Int)
  /-- PREEMPT (R153). A higher-priority ready command stops the victim's dispatch, suspends its threads and spills its live hold sectors and thread state. -/
  | preempt (ctx seq : Nat)
  /-- PREEMPT_SPILL_DONE (R153). The victim's spill ends, its resources are released and the pre-empting command starts. -/
  | preemptSpillDone (ctx seq : Nat)
  /-- RESTORE (R156). A pre-empted victim is restored to its dies, its holds are refilled or zeroed and its threads resume. -/
  | restore (ctx seq : Nat)
  /-- COMMAND_COMPLETE (R141). The home writes back the L1s and far lines, writes the snapshot and the completion record, and applies the signal. -/
  | commandComplete (ctx seq : Nat)
  /-- MAX_DUR_EXPIRE (R143). A command whose running time exceeds its maximum duration fails with 0x2001 and is stopped. -/
  | maxDurExpire (ctx seq : Nat)
  /-- TILE_DISPATCH (R148). An engine that enters drain or is idle pulls the first eligible tile and begins its fill. -/
  | tileDispatch (die te : Nat) (draw : Bool) (u : Upset)
  /-- TILE_COMPLETE (R77). A tile's drain and residue comparisons end, and on a pass its output is released and its ticket completes. -/
  | tileComplete (die te : Nat) (det : Option Detect) (defect : List (Nat × BitVec 8))
  /-- RE_RUN (R349). A failed tile is re-run on another engine of the same die, ahead of every queued tile. -/
  | reRun (die te : Nat) (u : Upset)
  /-- CUPPING_COPY (R353). A cupped tile's copy runs on another engine of the die and is compared byte for byte with the original. -/
  | cuppingCopy (die te : Nat) (det : Option Detect) (defect : List (Nat × BitVec 8)) (u : Upset)
  /-- TILE_STEAL (R151). An engine with no eligible tile copies a tile of a STEAL command from a neighbouring die's queue and runs it. -/
  | tileSteal (die te src : Nat) (u : Upset)
  /-- REPLAY (R358). A stopped command is re-executed whole as a check or repair replay, after any repair it waits for. -/
  | replay (ctx seq : Nat)
  /-- ARITH_IDLE_STOP (R371). An arithmetic region with no work for 10 µs stops its clock. -/
  | arithIdleStop (die : Nat) (east : Bool)
  /-- SLACK_WINDOW (R150). Every 1 s the lock-keeper compares its units' rates with the median and raises slack events. -/
  | slackWindow (die : Nat) (rates : List UnitRate)
  /-- UNIT_RETIREMENT_DONE (R364). The hold copy to the spare ends and work on the logical unit resumes. -/
  | unitRetirementDone (die : Nat) (core : Bool) (lunit : Nat)
  /-- SELFTEST_START (R367). A unit idle for 200 µs starts a 150 µs self-test chunk. -/
  | selftestStart (die : Nat) (core : Bool) (slot : Nat)
  /-- SELFTEST_CHUNK_END (R367). A self-test chunk ends and a failure adds a detection. -/
  | selftestChunkEnd (die : Nat) (pass : Bool)
  /-- SELFTEST_ABANDON (R367). A tile or thread that arrives takes the unit within 2 µs and the chunk is abandoned. -/
  | selftestAbandon (die : Nat)
  /-- RD_U (R183). The home receives an untracked read and returns the current value of the named sectors. -/
  | rdU (req : Req) (line : Nat) (secs : BitVec 4) (u : Upset)
  /-- RD_S (R186). The home receives a tracked shared read and acts on it by the directory state. -/
  | rdS (req : Req) (line : Nat) (starve : Bool) (u : Upset)
  /-- RD_X (R186). The home receives a read for ownership or a far-atomic lease and acts on it by the directory state. -/
  | rdX (req : Req) (line : Nat) (starve : Bool) (u : Upset)
  /-- UPG (R186). The home receives an upgrade from shared to owned and invalidates the other sharers. -/
  | upg (req : Req) (line : Nat) (starve : Bool)
  /-- LOOK (R192). The home receives a non-allocating read, snoops any owner and returns the merged value. -/
  | look (req : Req) (line : Nat) (secs : BitVec 4) (u : Upset)
  /-- AT_N (R193). The home performs a near atomic in its home part after taking current data from any owner. -/
  | atN (req : Req) (pa : Nat) (op : AmoOp) (width : AmoWidth) (operand comparand : BitVec 128) (u : Upset)
  /-- RED_U (R196). The home applies a reduction update to a line of a reduction window through the slice's update queue. -/
  | redU (req : Req) (line redOp : Nat) (bytes : List (Nat × BitVec 8))
  /-- SPD (R200). The home discards the dirty bytes of wholly covered sectors named by a spent discard. -/
  | spd (req : Req) (line : Nat) (secs : BitVec 4)
  /-- WB_U (R183). The home merges an untracked write-back byte by byte under its masks. -/
  | wbU (req : Req) (line : Nat) (bytes : List (Nat × BitVec 8))
  /-- WB_D (R186). The home merges an owner's write-back that releases the line and frees the entry. -/
  | wbD (die line : Nat)
  /-- WB_K (R186). The home merges an owner's write-back that keeps ownership. -/
  | wbK (die line : Nat)
  /-- INV (R190). A holder receives an invalidation, drops its copy and answers InvAck. -/
  | inv (die line : Nat)
  /-- FWD_S (R189). An owner receives a shared forward, sends DataS to the requester and its dirty bytes home in FwdAck. -/
  | fwdS (die line : Nat)
  /-- FWD_X (R189). An owner receives an exclusive forward, sends DataX to the requester and drops its copy. -/
  | fwdX (die line : Nat)
  /-- SNP_CUR (R192). An owner receives a snoop for current data, returns its dirty bytes and keeps the line. -/
  | snpCur (die line : Nat)
  /-- INV_ACK (R186). The home receives an invalidation acknowledgement and advances the transaction. -/
  | invAck (die line : Nat)
  /-- FWD_ACK (R189). The home receives a forward acknowledgement, merges any dirty bytes and leaves B. -/
  | fwdAck (die line : Nat)
  /-- DATA_U (R183). A requester receives untracked data and keeps it clean in its far part. -/
  | dataU (die line : Nat)
  /-- DATA_S (R186). A requester receives shared data and installs it. -/
  | dataS (die line : Nat)
  /-- DATA_X (R186). A requester receives exclusive data, installs it and performs its access. -/
  | dataX (die line : Nat)
  /-- GNT_X (R186). A requester receives an ownership grant for an upgrade. -/
  | gntX (die line : Nat)
  /-- WB_ACK (R190). A die receives a write-back acknowledgement and may request the line again. -/
  | wbAck (die line : Nat)
  /-- NACK (R188). A requester receives a NACK and schedules a retry with backoff. -/
  | nack (die line : Nat) (jitter : Nat)
  /-- NACK_RETRY (R188). A NACKed request is retried after its backoff, carrying STARVE from its fifth try. -/
  | nackRetry (die line : Nat)
  /-- ERR (R186). A requester receives an error response carrying a status of class 2 to 4. -/
  | err (die line : Nat)
  /-- FLUSH_HOME (R199). BASIN_MAINT writes the dirty home lines of the named slices to DRAM. -/
  | flushHome (die : Nat) (slice : Option Nat)
  /-- CLEAN_FAR (R199). BASIN_MAINT writes back and drops the far lines of the named slices and returns leases. -/
  | cleanFar (die : Nat) (slice : Option Nat)
  /-- FLUSH_HOME_AND_CLEAN_FAR (R199). BASIN_MAINT operation 3 performs both FLUSH_HOME and CLEAN_FAR. -/
  | flushHomeAndCleanFar (die : Nat) (slice : Option Nat)
  /-- BASIN_MAINT_DONE (R199). A basin maintenance operation finishes on every named slice and BUSY clears. -/
  | basinMaintDone (die : Nat)
  /-- FAR_QUOTA_WRITE (R178). A write of FAR_QUOTA starts clearing the ways that change part. -/
  | farQuotaWrite (src : Accessor) (die slice : Nat) (value : BitVec 64)
  /-- FAR_QUOTA_APPLY (R178). When the last way that changes part has been cleared, the new quota takes effect. -/
  | farQuotaApply (die slice : Nat)
  /-- WINDOW_COMMIT (R180). A window COMMIT captures base, limit and attributes, which apply at the next tile completion or at once on an idle die. -/
  | windowCommit (src : Accessor) (die w : Nat)
  /-- SPREAD_COMMIT (R207). A spread-set COMMIT applies the descriptor, or is ignored under R7 while commands run or the set is invalid. -/
  | spreadCommit (src : Accessor) (die set : Nat)
  /-- FIN_CTL_COMMIT (R68). A COMMIT of FIN_CTL captures BANK_SEL, which applies at the next command boundary or at once on an idle die. -/
  | finCtlCommit (src : Accessor) (die : Nat)
  /-- INJECT (R87). A write of INJECT arms one fault of the named kind in the next tile that the named engine starts. -/
  | inject (src : Accessor) (die : Nat) (value : BitVec 64)
  /-- DRAM_MGN_START (R222). A write of START runs one margining step of pattern writes and reads at the given offset. -/
  | dramMgnStart (src : Accessor) (site : Nat)
  /-- DRAM_MGN_DONE (R222). A margining step ends, ERR_SYM is set and BUSY clears. -/
  | dramMgnDone (site errs : Nat)
  /-- CLK_CTL_COMMIT (R373). A COMMIT of CLK_CTL applies the ratios and limits at once, or is ignored if they break the grade or voltage test. -/
  | clkCtlCommit (src : Accessor) (die : Nat)
  /-- FAB_ECO_WRITE (R374). A write of FAB_W_ECO or FAB_E_ECO holds the segment's ports, changes its divider and reopens the ports within 2 µs. -/
  | fabEcoWrite (src : Accessor) (die : Nat) (value : BitVec 64)
  /-- ROUTE_CTL_COMMIT (R236). A COMMIT of ROUTE_CTL captures EPOCH_SEL, which applies at G0's broadcast. -/
  | routeCtlCommit (src : Accessor) (router : Nat)
  /-- EPOCH_BROADCAST (R236). G0's express broadcast applies the committed route-table epoch on every router. -/
  | epochBroadcast
  /-- CUT_RETRAIN (R227). A write of RETRAIN starts a retrain of the cut. -/
  | cutRetrain (src : Accessor) (router p : Nat)
  /-- CUT_FORCE_DOWN (R239). A write of FORCE_DOWN declares the cut down. -/
  | cutForceDown (src : Accessor) (router p : Nat) (on : Bool)
  /-- CUT_RESTORE (R239). A write of RESTORE trains a down cut again. -/
  | cutRestore (src : Accessor) (router p : Nat)
  /-- BMAP_ROOT_WRITE (R251). A write of a berth's ROOT register invalidates that berth and bank's TLB entries device-wide. -/
  | bmapRootWrite (src : Accessor) (berth bank : Nat) (value : BitVec 64)
  /-- BMAP_COMMIT (R252). A COMMIT of a berth's BANK_SEL is broadcast from G0 and applies on every die within 1 µs. -/
  | bmapCommit (src : Accessor) (berth : Nat)
  /-- ERH_RCTL_COMMIT (R289). A COMMIT of ERH_RCTL applies the Erhar route-table epoch within 1 µs. -/
  | erhRctlCommit (src : Accessor)
  /-- ERH_RETRAIN (R278). A write of an Erhar port's RETRAIN starts a retrain. -/
  | erhRetrain (src : Accessor) (port : Nat)
  /-- ERH_FORCE_DOWN (R308). A write of an Erhar port's FORCE_DOWN takes the port down. -/
  | erhForceDown (src : Accessor) (port : Nat) (on : Bool)
  /-- ERH_RESTORE (R309). A write of an Erhar port's RESTORE trains a down or retired port again and clears its tally. -/
  | erhRestore (src : Accessor) (port : Nat)
  /-- HDM_DECODER_COMMIT (R314). The host commits an HDM decoder, which maps its range or sets its Error bit. -/
  | hdmDecoderCommit (port n base size ways : Nat) (hdmDb : Bool)
  /-- HDM_DECODER_UNCOMMIT (R318). The host uncommits a decoder, which completes after its requests end and its host lines are back-invalidated. -/
  | hdmDecoderUncommit (port n : Nat)
  /-- REGISTER_WRITE (R6). A write to a register that has no row of its own is applied under its access code and change class. -/
  | registerWrite (src : Accessor) (addr bytes : Nat) (value : BitVec 64)
  /-- ROW_RETIRE_DONE (R220). The row retirement ends, the bank is released and the repair is logged. -/
  | rowRetireDone (die chan layer bank row : Nat) (u : Upset)
  /-- PATROL_SCRUB (R216). The patrol scrub reads a populated sector, writing back corrections or stored poison. -/
  | patrolScrub (die sector : Nat) (u : Upset)
  /-- DRAM_REFRESH (R217). A row is refreshed at the interval set by its temperature. -/
  | dramRefresh (die chan layer bank row : Nat)
  /-- DRAM_THERMAL_SAMPLE (R218). Every 10 µs the hottest die sensor sets the stack's thermal state. -/
  | dramThermalSample (die : Nat) (quarterC : Int)
  /-- STOP_READ_TIMEOUT (R219). A DRAM read held 10 ms in STOP completes without data with 0x3301. -/
  | stopReadTimeout (die idx : Nat)
  /-- CUT_FRAME (R226). A cut receiver checks each bundle's CRC of a frame and accepts it or requests replay by NAK. -/
  | cutFrame (router p : Nat) (f : CutFrame)
  /-- CUT_REPLAY (R226). A cut transmitter replays from the first NAKed frame. -/
  | cutReplay (router p : Nat)
  /-- CUT_PACKET_FORWARD (R235). A router looks a packet up in its epoch's route table and sends it on the chosen port. -/
  | cutPacketForward (router inPort : Nat) (pkt : CutPkt)
  /-- CUT_TRAIN (R227). A cut runs phases T1 to T5, negotiating version and width. -/
  | cutTrain (router p : Nat) (r : CutTrainIn)
  /-- CUT_TRAIN_DONE (R229). Training completes and the cut becomes active at the negotiated width. -/
  | cutTrainDone (router p : Nat)
  /-- CUT_FREEZE_TIMEOUT (R230). A training attempt that has not completed T5 within 20 µs fails, and a third failure takes the cut down. -/
  | cutFreezeTimeout (router p : Nat) (peerSeq : Option (BitVec 32))
  /-- CUT_DOWN (R239). A cut goes down; traffic moves to alternate ports and uncertain flits fail their transactions. -/
  | cutDown (router p : Nat) (peerSeq : Option (BitVec 32))
  /-- ERH_FRAME (R276). An Erhar receiver checks a frame's CRC after FEC and accepts it or requests replay. -/
  | erhFrame (port : Nat) (f : ErhFrame)
  /-- ERH_TRAIN (R278). An Erhar port runs phases E1 to E5 with its partner. -/
  | erhTrain (port : Nat) (r : ErhTrainIn)
  /-- ERH_FREEZE_TIMEOUT (R280). An Erhar training attempt that has not completed E5 within 500 µs fails, and a third failure takes the port down. -/
  | erhFreezeTimeout (port : Nat) (peerSeq : Option (BitVec 32))
  /-- ERH_PORT_DOWN (R308). An Erhar port goes down, route lookups avoid it and uncertain packets fail with 0x3801. -/
  | erhPortDown (port : Nat) (peerSeq : Option (BitVec 32))
  /-- PUT (R294). A PUT is span-checked at the receiving gatehouse and performed at the remote home, and PUT_ACK returns. -/
  | put (port : Nat) (pkt : ErhPkt)
  /-- PUT_ACK (R294). The issuer receives a PUT acknowledgement and may complete waiting releases. -/
  | putAck (pkt : ErhPkt)
  /-- GET (R294). A GET is span-checked and read at the remote home as a Look, and GET_DATA returns. -/
  | get (port : Nat) (pkt : ErhPkt) (u : Upset)
  /-- GET_DATA (R294). The issuer receives the data of its GET. -/
  | getData (pkt : ErhPkt)
  /-- ATOMIC (R294). A remote atomic is span-checked and performed near at the remote home. -/
  | atomic (port : Nat) (pkt : ErhPkt) (u : Upset)
  /-- ATOMIC_RESP (R294). The issuer receives a remote atomic's old value. -/
  | atomicResp (pkt : ErhPkt)
  /-- ERH_ERR (R284). The issuer receives an ERR packet and fails the operation with its status. -/
  | erhErr (pkt : ErhPkt)
  /-- ERH_REQUEST_TIMEOUT (R297). A remote operation whose TMO_US timer expires fails with 0x3802. -/
  | erhRequestTimeout (txn : Nat)
  /-- LINK_MGMT (R279). A link-management packet is handled by the port. -/
  | linkMgmt (port : Nat) (pkt : ErhPkt)
  /-- FW_MGMT (R284). A firmware management packet is handled by Kiltor firmware only. -/
  | fwMgmt (port : Nat) (pkt : ErhPkt)
  /-- COLL_ARRIVE (R299). When ARRIVE reaches g × LOCAL, the group's engine reads the descriptor and begins generation g. -/
  | collArrive (group : Nat) (u : Upset)
  /-- COLL_UP (R303). An engine receives a child's chunk, checks its fields and adds it, or fails the generation. -/
  | collUp (pkt : ErhPkt)
  /-- COLL_DOWN (R299). An engine receives the drained result, writes DST, adds to RELEASE and forwards to its children. -/
  | collDown (pkt : ErhPkt)
  /-- COLL_FAIL (R303). A failed generation is propagated through the tree, logged, and RELEASE still advances. -/
  | collFail (pkt : ErhPkt)
  /-- TSYNC (R305). Every 1 ms a device exchanges TSYNC with its upstream and computes its offset. -/
  | tsync (ok : Bool)
  /-- TSYNC_RESP (R305). A device receives the upstream's time-stamped response and updates its correction. -/
  | tsyncResp (t1 t2 t3 t4 aux : Int)
  /-- TSYNC_HOLDOVER (R307). After 8 missed exchanges the device enters HOLDOVER. -/
  | tsyncHoldover
  /-- TIME_CORRECTION (R388). G0 announces a slew or step that every time-base copy applies at the named REFCLK edge. -/
  | timeCorrection (step : Bool) (ns : Int)
  /-- PPS_IN (R444). A PPS_IN edge is time-stamped, and accepted or ignored. -/
  | ppsIn (stamp : Nat)
  /-- HOST_MEM_RD (R316). A host MemRd through a decoder is served as Look, RdS or RdX by the state it asks for. -/
  | hostMemRd (port addr : Nat) (want : HostWant) (tee : Bool) (u : Upset)
  /-- HOST_MEM_WR (R316). A host MemWr through a decoder is merged at the home. -/
  | hostMemWr (port addr : Nat) (bytes : List (Nat × BitVec 8)) (keep tee : Bool)
  /-- BIRSP (R316). The home receives the host's BIRsp and merges any returned data. -/
  | birsp (port line : Nat) (bytes : List (Nat × BitVec 8))
  /-- BISNP_TIMEOUT (R316). A BISnp unanswered for 50 ms causes the port to be treated as lost. -/
  | bisnpTimeout (port line : Nat)
  /-- HOST_REQUEST_TIMEOUT (R328). A device request to host memory unanswered for 50 ms causes the port to be treated as lost. -/
  | hostRequestTimeout (port : Nat)
  /-- COUNTER_FETCHADD (R325). A 64-bit FetchAdd or AMOADD.D to a berth-window counter word increments the counter at its home. -/
  | counterFetchadd (src : WinSrc) (berth offset bytes : Nat) (kind : WinOp) (value : BitVec 64)
  /-- ATS_INVALIDATION (R319). The host invalidates translation-cache entries, completing after every request that used them. -/
  | atsInvalidation (port pasid iova len : Nat)
  /-- PORT_LOST (R328). A lost CXL port clears host bits, fails host-region accesses with 0x3C01 and stops its watches. -/
  | portLost (port : Nat)
  /-- IDE_INTEGRITY_FAILURE (R322). An IDE integrity failure tears down the stream, logs a Fatal record and loses the port. -/
  | ideIntegrityFailure (port : Nat) (skid : Bool)
  /-- PERST (R311). PERST# resets one CXL port only. -/
  | perst (port : Nat)
  /-- CXL_LINK_TRAIN (R311). A CXL port trains by the PCIe and CXL rules, reporting any degraded width or rate. -/
  | cxlLinkTrain (port width rate : Nat) (flit256 : Bool)
  /-- CONFIG_REQUEST (R414). A CXL configuration request is answered, or retried before LINKS. -/
  | configRequest (port offset : Nat)
  /-- IDENTIFY_CXL (R313). The CXL primary mailbox answers Identify. -/
  | identifyCxl
  /-- GET_EVENT_RECORDS (R327). The CXL primary mailbox returns event records. -/
  | getEventRecords (log : CxlLog)
  /-- CLEAR_EVENT_RECORDS (R327). The CXL primary mailbox clears event records. -/
  | clearEventRecords (log : CxlLog) (handles : List Nat)
  /-- GET_EVENT_INTERRUPT_POLICY (R313). The CXL primary mailbox returns the event interrupt policy. -/
  | getEventInterruptPolicy
  /-- SET_EVENT_INTERRUPT_POLICY (R313). The CXL primary mailbox sets the event interrupt policy. -/
  | setEventInterruptPolicy (pol : List Nat)
  /-- GET_LOG (R313). The CXL primary mailbox returns a log. -/
  | getLog (uuid offset len : Nat)
  /-- GET_SUPPORTED_LOGS (R313). The CXL primary mailbox lists the supported logs. -/
  | getSupportedLogs
  /-- SET_TIMESTAMP (R388). The CXL primary mailbox records a timestamp without changing the time base. -/
  | setTimestamp (ns : BitVec 64)
  /-- GET_VERSION (R400). The SPDM responder answers GET_VERSION. -/
  | getVersion (tr : SpdmTr)
  /-- GET_CAPABILITIES (R400). The SPDM responder answers GET_CAPABILITIES. -/
  | getCapabilities (tr : SpdmTr)
  /-- NEGOTIATE_ALGORITHMS (R400). The SPDM responder negotiates algorithms. -/
  | negotiateAlgorithms (tr : SpdmTr) (rsapss3072 sha384 secp384 aes256gcm : Bool)
  /-- GET_DIGESTS (R400). The SPDM responder returns certificate digests. -/
  | getDigests (tr : SpdmTr)
  /-- GET_CERTIFICATE (R398). The SPDM responder returns the RSA chain in slot 0 or the SLH-DSA chain in slot 1. -/
  | getCertificate (tr : SpdmTr) (slot offset len : Nat)
  /-- CHALLENGE (R400). The SPDM responder answers a challenge with both signatures. -/
  | challenge (tr : SpdmTr) (slot : Nat) (nonce : BitVec 256)
  /-- GET_MEASUREMENTS (R402). The SPDM responder returns one snapshot of the measurement blocks with MEAS_GEN. -/
  | getMeasurements (tr : SpdmTr) (op : Nat) (nonce : BitVec 256) (sign : Bool)
  /-- KEY_EXCHANGE (R400). The SPDM responder performs the key exchange. -/
  | keyExchange (tr : SpdmTr) (reqId : Nat)
  /-- FINISH (R400). The SPDM responder completes session establishment. -/
  | finish (tr : SpdmTr) (session : Nat) (macOk : Bool)
  /-- KEY_UPDATE (R400). The SPDM responder updates the session keys. -/
  | keyUpdate (tr : SpdmTr) (session : Nat) (both : Bool)
  /-- END_SESSION (R400). The SPDM responder ends a session. -/
  | endSession (tr : SpdmTr) (session : Nat)
  /-- MAILBOX_OWNER_SET (R331). A caller sets OWNER to 1 and firmware accepts the request within 20 µs. -/
  | mailboxOwnerSet (mb : Mbox)
  /-- MAILBOX_ACCEPT_TIMEOUT (R345). A pending request not accepted within 100 ms outside a switch restarts the management clusters. -/
  | mailboxAcceptTimeout (mb : Mbox)
  /-- BG_OPERATION_END (R334). A background operation ends, its result is kept and its NOTIFY is applied again. -/
  | bgOperationEnd (bg : Nat)
  /-- IDENTIFY (R338). The mailbox returns the device identity and state. -/
  | identify (mb : Mbox)
  /-- BG_STATUS (R334). The mailbox returns the status and progress of a background operation. -/
  | bgStatus (mb : Mbox)
  /-- BG_ABORT (R338). A background operation is stopped at its next safe point with 0x2904. -/
  | bgAbort (mb : Mbox)
  /-- WINDOW_SET_ALL (R339). Firmware holds the berth's commands and commits a window on all 72 dies together. -/
  | windowSetAll (mb : Mbox)
  /-- SPREAD_SET_ALL (R339). Firmware holds every command and commits a spread set on all dies together. -/
  | spreadSetAll (mb : Mbox)
  /-- SET_ALL_TIMEOUT (R339). Commands that do not go idle within TIMEOUT_MS end the set-all with 0x5903 and nothing committed. -/
  | setAllTimeout (bg : Nat)
  /-- FIN_IMAGE_SET_ALL (R339). Firmware writes a finishing image into every die's inactive bank and commits it. -/
  | finImageSetAll (mb : Mbox)
  /-- DEVICE_RESET (R408). The operator starts a full bring-up. -/
  | deviceReset (mb : Mbox)
  /-- BERTH_CREATE (R340). Firmware creates a berth with its dies, pages, key, spill area and fault queue. -/
  | berthCreate (mb : Mbox)
  /-- BERTH_DESTROY (R242). Firmware resets the berth, zeroes its pages, erases its key and frees its contexts. -/
  | berthDestroy (mb : Mbox)
  /-- BERTH_RESET (R242). Firmware resets the berth's contexts, stops its commands and passages and zeroes its holds. -/
  | berthReset (mb : Mbox)
  /-- BERTH_QUERY (R338). The mailbox returns a berth's state and resources. -/
  | berthQuery (mb : Mbox)
  /-- BERTH_LIMITS (R338). Firmware changes a berth's limits from the next take or make-up. -/
  | berthLimits (mb : Mbox)
  /-- DIE_HANDOVER (R271). A die is handed from one space berth to another: drained, flushed, saved, zeroed and loaded. -/
  | dieHandover (mb : Mbox)
  /-- MOVE_LIST_SET (R341). A berth sets its save or load list for die handover. -/
  | moveListSet (mb : Mbox)
  /-- FAULT_SETUP (R340). A berth places its fault queue and handler entry point. -/
  | faultSetup (mb : Mbox)
  /-- ACCOUNT_READ (R273). The mailbox returns a berth's account record. -/
  | accountRead (mb : Mbox)
  /-- CTX_CREATE (R340). Firmware creates a context with its home, rings and window slot. -/
  | ctxCreate (mb : Mbox)
  /-- CTX_RESET (R144). A context is reset and its unstarted entries complete with 0x2002. -/
  | ctxReset (mb : Mbox)
  /-- CTX_DESTROY (R340). A context is reset and then freed with its slot. -/
  | ctxDestroy (mb : Mbox)
  /-- PAGES_ALLOC (R340). Firmware gives ZEROED pages to a berth and maps them, all or none. -/
  | pagesAlloc (mb : Mbox)
  /-- PAGES_FREE (R248). Firmware unmaps and zeroes a berth's pages. -/
  | pagesFree (mb : Mbox)
  /-- PAGES_ATTR (R215). Firmware changes a berth's page attributes and protection mode. -/
  | pagesAttr (mb : Mbox)
  /-- MOOR_POOL_CREATE (R268). Firmware creates a berth's moorings pool spread over the named dies. -/
  | moorPoolCreate (mb : Mbox)
  /-- MOOR_POOL_GROW (R268). Firmware enlarges a berth's moorings pool. -/
  | moorPoolGrow (mb : Mbox)
  /-- MOOR_POOL_REBUILD (R340). Firmware counts leaked moorings back into a berth's pool. -/
  | moorPoolRebuild (mb : Mbox)
  /-- CARGO_OPEN (R342). Firmware sets ZEROED pages LOADING for the cargo and writes the page list. -/
  | cargoOpen (mb : Mbox)
  /-- CARGO_SOURCE (R342). Firmware registers a repair source for a range of cargo pages. -/
  | cargoSource (mb : Mbox)
  /-- CARGO_SEAL (R253). Each die hashes its cargo pages, G0 computes the cargo hash and the pages become read-only. -/
  | cargoSeal (mb : Mbox)
  /-- CARGO_MAP (R253). Firmware adds the cargo, read-only, to a berth's map by bank swap. -/
  | cargoMap (mb : Mbox)
  /-- CARGO_UNMAP (R338). Firmware removes the cargo from a berth's map. -/
  | cargoUnmap (mb : Mbox)
  /-- CARGO_UNLOAD (R255). Firmware unloads the cargo and zeroes its pages, unless it is still in use. -/
  | cargoUnload (mb : Mbox)
  /-- CARGO_QUERY (R338). The mailbox returns the cargo and convoy program state. -/
  | cargoQuery (mb : Mbox)
  /-- CONVOY_REGISTER (R254). Firmware registers the convoy program image and its parameters. -/
  | convoyRegister (mb : Mbox)
  /-- CONVOY_UNREGISTER (R342). Firmware unregisters the convoy program. -/
  | convoyUnregister (mb : Mbox)
  /-- CARGO_RELADE (R365). Firmware re-ladens a quarantined cargo page from its source after a hash check. -/
  | cargoRelade (page : Nat) (source : Option (List (BitVec 8)))
  /-- CAP_SET (R377). The operator sets the power cap and averaging window. -/
  | capSet (mb : Mbox)
  /-- POWER_QUERY (R338). The mailbox returns power, ratios and temperatures. -/
  | powerQuery (mb : Mbox)
  /-- RATIO_LIMIT (R378). The operator lowers the ratio limit of the named dies. -/
  | ratioLimit (mb : Mbox)
  /-- FABRIC_HALF (R374). The operator sets a fabric half to 2.4 GHz or economy. -/
  | fabricHalf (mb : Mbox)
  /-- SIG_READ (R368). The mailbox returns failure signatures. -/
  | sigRead (mb : Mbox)
  /-- TALLY_READ (R362). The mailbox returns a unit's tally and detection times. -/
  | tallyRead (mb : Mbox)
  /-- TALLY_CLEAR (R362). Firmware clears a unit's tally and logs the clearing. -/
  | tallyClear (mb : Mbox)
  /-- CUP_FLOOR (R352). The operator sets the cupping floor for later command starts. -/
  | cupFloor (mb : Mbox)
  /-- SELFTEST (R367). The operator enables or disables idle-slot self tests. -/
  | selftest (mb : Mbox)
  /-- UNIT_RETIRE (R364). The operator retires a unit as a full tally would. -/
  | unitRetire (mb : Mbox)
  /-- REPAIR_LIST (R338). The mailbox returns entries of the DRAM repair list. -/
  | repairList (mb : Mbox)
  /-- SEC_STATE (R338). The mailbox returns the fused policies, the alarm state and the firmware measurement. -/
  | secState (mb : Mbox)
  /-- DEBUG_CHALLENGE (R405). The mailbox returns a single-use debug nonce. -/
  | debugChallenge (mb : Mbox)
  /-- DEBUG_UNLOCK (R405). Firmware checks a signed debug token and unlocks debug for its duration. -/
  | debugUnlock (mb : Mbox)
  /-- DEBUG_UNLOCK_EXPIRE (R405). A debug unlock ends when DURATION_S expires. -/
  | debugUnlockExpire
  /-- COUNTER_CFG (R427). Firmware sets a programmable counter's event and scope and zeroes it. -/
  | counterCfg (mb : Mbox)
  /-- TRACE_CFG (R431). Firmware enables trace on a die with a destination and a filter. -/
  | traceCfg (mb : Mbox)
  /-- SNAPSHOT (R433). G0 broadcasts a capture time at which every block latches its state, and writes the hang snapshot. -/
  | snapshot (mb : Mbox)
  /-- CFG_EVENTS (R425). The mailbox returns event-log entries. -/
  | cfgEvents (mb : Mbox)
  /-- GROUP_STATUS (R338). The mailbox returns a collective group's generation and laggard state. -/
  | groupStatus (mb : Mbox)
  /-- DEV_ID_SET (R285). Firmware assigns the device ID. -/
  | devIdSet (mb : Mbox)
  /-- ROUTE_WRITE (R286). Firmware writes entries of the inactive Erhar route-table bank. -/
  | routeWrite (mb : Mbox)
  /-- ROUTE_COMMIT (R289). Firmware commits the Erhar route-table epoch. -/
  | routeCommit (mb : Mbox)
  /-- PORT_CTL (R309). The operator retrains, forces down, restores or sets GLOBAL on an Erhar port. -/
  | portCtl (mb : Mbox)
  /-- CUT_CTL (R239). The operator retrains, forces down, restores or sets BUNDLE_OFF on a cut port. -/
  | cutCtl (mb : Mbox)
  /-- SPAN_SET (R290). Firmware sets a berth's span entry. -/
  | spanSet (mb : Mbox)
  /-- PEER_REGION_SET (R292). Firmware sets or clears a berth's peer region. -/
  | peerRegionSet (mb : Mbox)
  /-- HOST_REGION_SET (R319). Firmware sets or clears a berth's host region. -/
  | hostRegionSet (mb : Mbox)
  /-- PASID_SET (R319). Firmware sets a berth's PASID. -/
  | pasidSet (mb : Mbox)
  /-- GROUP_SET (R298). Firmware writes a collective group entry. -/
  | groupSet (mb : Mbox)
  /-- TSYNC_SET (R305). Firmware sets the device's time-synchronisation role and upstream port. -/
  | tsyncSet (mb : Mbox)
  /-- FW_STAGE (R344). Firmware writes a chunk of a firmware image into the staging area. -/
  | fwStage (mb : Mbox)
  /-- FW_ACTIVATE (R344). Firmware verifies a staged or previous image and switches to it. -/
  | fwActivate (mb : Mbox)
  /-- FW_SWITCH_END (R397). The firmware switch ends and the root of trust applies the image's fuse directives. -/
  | fwSwitchEnd
  /-- FW_QUERY (R338). The mailbox returns the firmware images and the update state. -/
  | fwQuery (mb : Mbox)
  /-- DRAM_INIT (R450). Firmware writes the named channels of a standby or failed site in stored-zero form. -/
  | dramInit (mb : Mbox)
  /-- DRAM_MARGIN (R223). Firmware margins one channel and axis of a site that is not in service. -/
  | dramMargin (mb : Mbox) (lower upper : Int)
  /-- DIE_REPAIR (R416). A die repair moves a logical die to its row's standby, started by a command or by a tally. -/
  | dieRepair (mb : Mbox)
  /-- REPAIR_PHASE_A_DONE (R417). The standby is powered, tested and zeroed, and copying begins. -/
  | repairPhaseADone (testOk : Bool)
  /-- REPAIR_PASS_END (R418). A copy pass ends, and another pass, a mirrored pass or Phase C follows. -/
  | repairPassEnd (dirtyPages : List Nat)
  /-- REPAIR_SWITCH (R419). Phase C freezes the die, copies the rest, swaps routes and releases held requests to the new site. -/
  | repairSwitch (oldReadable : Bool)
  /-- MANAGEMENT_RESTART (R422). The Kiltor clusters restart on the active image and rebuild their state. -/
  | managementRestart
  /-- KILTOR_WATCHDOG (R19). A cluster watchdog expires on a Kiltor hang. -/
  | kiltorWatchdog (gh : Nat)
  /-- CAP_CONTROL_STEP (R377). Every 1 ms firmware computes the budget and commits the common ratio to every die. -/
  | capControlStep (watts : Nat) (pred : List Nat)
  /-- CONTROLLER_ABSENT (R378). A die that has received no CLK_CTL commit for 10 ms lowers its ratios to 32 or below. -/
  | controllerAbsent (die : Nat)
  /-- DROOP_DETECT (R376). A supply crossing stretches the region's clock to ratio 12. -/
  | droopDetect (die : Nat) (east : Bool)
  /-- DROOP_RECOVER (R376). After 50 ns above the threshold the ratio returns in steps. -/
  | droopRecover (die : Nat) (east : Bool) (ns : Nat)
  /-- VR_ALERT_N (R379). A fall of VR_ALERT_N forces every region to ratio 12. -/
  | vrAlertN
  /-- VR_ALERT_N_RELEASE (R379). VR_ALERT_N high for 1 ms releases its forcing. -/
  | vrAlertNRelease
  /-- FLOW_OK (R379). A fall of FLOW_OK forces every region to ratio 12 and starts the 2 s stop timer. -/
  | flowOk
  /-- FLOW_OK_RELEASE (R379). FLOW_OK high for 100 ms before the stop releases its forcing. -/
  | flowOkRelease
  /-- FLOW_STOP (R381). 2 s after FLOW_OK falls the device stops, writes back and enters self-refresh. -/
  | flowStop
  /-- MODULE_STOP_DONE (R382). The stop ends and the device enters the stopped state. -/
  | moduleStopDone
  /-- PWR_GOOD_IN_FALL (R442). A fall of PWR_GOOD_IN forces ratio 12 and runs the module stop at once. -/
  | pwrGoodInFall
  /-- PWR_GOOD_IN_RISE (R408). PWR_GOOD_IN high for 10 ms starts a full bring-up, or is held during a trip. -/
  | pwrGoodInRise
  /-- INPUT_UNDERVOLTAGE (R439). An input below 46 V for 100 µs is treated as PWR_GOOD_IN falling. -/
  | inputUndervoltage
  /-- STANDBY_POWER_GOOD (R438). Standby power becomes good, MOD_ID is sampled and a full bring-up starts. -/
  | standbyPowerGood (modId : BitVec 6)
  /-- STANDBY_POWER_LOST (R438). The input stays below the standby range for 1 ms, or above 60 V, and standby power is lost. -/
  | standbyPowerLost
  /-- TEMP_SAMPLE (R383). Every 10 µs a die's hottest sensor sets its thermal cap, forcing or trip. -/
  | tempSample (unit : Nat) (quarterC : Int)
  /-- THERM_TRIP_RELEASE (R443). THERM_TRIP_N is released after every sensor has read below 95 °C for 1 s. -/
  | thermTripRelease
  /-- ENERGY_INTERVAL (R385). Every 10 µs each die apportions its measured energy to commands. -/
  | energyInterval (die nJ : Nat)
  /-- REMOTE_ENERGY_GATHER (R385). Every 1 ms G0 credits remote-service energy to commands device-wide. -/
  | remoteEnergyGather (nJ : Nat)
  /-- FUSE_REREAD (R393). Every 1 s the root of trust re-reads the fuse rows and raises anomalies. -/
  | fuseReread (anomaly : Bool)
  /-- TAMPER_TRIP (R406). A tamper sensor trips, latches its cause and applies alarm level 1. -/
  | tamperTrip (cause : Nat)
  /-- ALARM_ERASE (R406). Alarm level 2 erases key slots 1 to 255. -/
  | alarmErase
  /-- ALARM_KILL (R406). Alarm level 3 blows KILL. -/
  | alarmKill (readBack : Bool)
  /-- FULL_BRING_UP (R410). The device runs ROM checks, training, test, DRAM margining and mapping through to SERVICE. -/
  | fullBringUp (env : BringUpIn)
  /-- IDENTITY_DERIVED (R399). The identity keys are derived and matched, and the lock-keepers take entries. -/
  | identityDerived (ok : Bool)
  /-- TRACE_DRAIN (R432). A barge drains the trace buffer at 128 records or at command end. -/
  | traceDrain (die : Nat)
  /-- PLDM_FIRMWARE_UPDATE (R407). A PLDM Type 5 update activates an image under the same checks as FW_ACTIVATE. -/
  | pldmFirmwareUpdate (image : List (BitVec 8))
  /-- I3C_DYNAMIC_ADDRESS (R445). The bus controller assigns the dynamic address by SETDASA or ENTDAA. -/
  | i3cDynamicAddress (setdasa : Bool) (addr : Nat)
  /-- CUT_PORT_RESET (R227). A cut port resets, for example on an internal error; its receive buffer, credits and training state are cleared and it starts training. -/
  | cutPortReset (router p : Nat)
  /-- ERH_PORT_RESET (R278). An Erhar port resets and then retrains, advertising its whole receive buffer in E5. -/
  | erhPortReset (port : Nat)
  /-- ERH_PACKET_ROUTE (R286). A received Erhar packet is delivered locally, or routed on a port of its route entry with HC and TTL checks, and discarded with ERR 0x3803 on failure. -/
  | erhPacketRoute (port : Nat) (pkt : ErhPkt)
  /-- ERH_OLD_BUSY_CLEAR (R289). OLD_BUSY in ERH_RCTL clears 100 µs after the device last held a flit of the old epoch. -/
  | erhOldBusyClear
  /-- HOST_CACHE_SNOOP (R320). A CXL.cache snoop from the host reaches a gatehouse host cache, which yields or invalidates the line. -/
  | hostCacheSnoop (port line : Nat) (exclusive : Bool)
  /-- CXL_CACHE_RESPONSE (R320). The host answers a gatehouse's CXL.cache request with data or ownership, and the waiting device access proceeds. -/
  | cxlCacheResponse (port line : Nat) (data : List (BitVec 8)) (ok own : Bool)
  /-- ATS_COMPLETION (R319). An ATS translation completion from the host fills the port's translation cache, or is refused and raises PAGE. -/
  | atsCompletion (port pasid iova : Nat) (hpa : Option Nat) (write : Bool)
  /-- IDE_KM (R322). An IDE_KM message over SPDM programs, switches or refreshes an IDE stream key. -/
  | ideKm (port stream : Nat) (op : IdeKmOp)
  /-- TDISP (R323). A TDISP request locks, starts or stops a trusted berth's interface, changing which requests its window and decoders accept. -/
  | tdisp (port berth : Nat) (op : TdispOp)
deriving DecidableEq, Repr

end Sys2Proof
end

