-- ==== Sys2Proof/Machine/Map.lean ====
section
/-! DEFINITION. Operations on sparse tables (NMap, keys strictly rising) and on plain lists of numbers. Every table of the
state is read and written through these, so the rising order of its keys is kept in one place. -/

namespace Sys2Proof

/-- The value at key `k`, if any. -/
def NMap.get? {α : Type} : NMap α → Nat → Option α
  | [], _ => none
  | (k', v) :: t, k => if k' = k then some v else NMap.get? t k

/-- The value at key `k`, or a default. -/
def NMap.getD {α : Type} (m : NMap α) (k : Nat) (d : α) : α := (NMap.get? m k).getD d

/-- Whether key `k` is present. -/
def NMap.has {α : Type} (m : NMap α) (k : Nat) : Bool := (NMap.get? m k).isSome

/-- Sets key `k`, keeping the keys rising. -/
def NMap.put {α : Type} : NMap α → Nat → α → NMap α
  | [], k, v => [(k, v)]
  | (k', v') :: t, k, v =>
    if k < k' then (k, v) :: (k', v') :: t
    else if k = k' then (k, v) :: t
    else (k', v') :: NMap.put t k v

/-- Removes key `k`. -/
def NMap.erase {α : Type} : NMap α → Nat → NMap α
  | [], _ => []
  | (k', v') :: t, k => if k = k' then t else (k', v') :: NMap.erase t k

/-- Sets key `k` to `v`, or removes it where `v` is the default that an absent key stands for. -/
def NMap.set {α : Type} [DecidableEq α] (d : α) (m : NMap α) (k : Nat) (v : α) : NMap α :=
  if v = d then NMap.erase m k else NMap.put m k v

/-- Applies `f` to the value at `k`, where there is one. -/
def NMap.alter {α : Type} : NMap α → Nat → (α → α) → NMap α
  | [], _, _ => []
  | (k', v) :: t, k, f => if k' = k then (k', f v) :: t else (k', v) :: NMap.alter t k f

/-- Applies `f` to every value. -/
def NMap.mapV {α β : Type} (m : NMap α) (f : Nat → α → β) : NMap β := m.map fun p => (p.1, f p.1 p.2)

/-- Keeps the entries that satisfy `p`. -/
def NMap.keep {α : Type} (m : NMap α) (p : Nat → α → Bool) : NMap α := m.filter fun e => p e.1 e.2

/-- The keys present. -/
def NMap.keys {α : Type} (m : NMap α) : List Nat := m.map (·.1)

/-- Puts a list of entries, in order. -/
def NMap.putAll {α : Type} (m : NMap α) (es : List (Nat × α)) : NMap α := es.foldl (fun a e => NMap.put a e.1 e.2) m

/-- Removes a list of keys. -/
def NMap.eraseAll {α : Type} (m : NMap α) (ks : List Nat) : NMap α := ks.foldl NMap.erase m

/-- Keys strictly rising, and above `lo` where it is given. -/
def NMap.sorted {α : Type} : Option Nat → NMap α → Bool
  | _, [] => true
  | lo, (k, _) :: t => (match lo with | none => true | some l => decide (l < k)) && NMap.sorted (some k) t

/-- A key inserted into a rising list of numbers, once. -/
def insertNat (k : Nat) : List Nat → List Nat
  | [] => [k]
  | a :: t => if k < a then k :: a :: t else if k = a then a :: t else a :: insertNat k t

/-- A list of numbers sorted, without repeats. -/
def sortNat (l : List Nat) : List Nat := l.foldr insertNat []

/-- Inserts by a key, after the entries whose key is not greater. -/
def insertBy {α : Type} (key : α → Nat) (x : α) : List α → List α
  | [] => [x]
  | a :: t => if key x < key a then x :: a :: t else a :: insertBy key x t

/-- A stable sort by a numeric key. -/
def sortBy {α : Type} (key : α → Nat) (l : List α) : List α := l.foldr (fun x acc => insertByFront key x acc) []
where
  /-- Inserts before the entries whose key is not smaller, so that `foldr` keeps equal keys in order. -/
  insertByFront (key : α → Nat) (x : α) : List α → List α
    | [] => [x]
    | a :: t => if key x ≤ key a then x :: a :: t else a :: insertByFront key x t

/-- The sum of a list of numbers. -/
def sumNat (l : List Nat) : Nat := l.foldl (· + ·) 0

/-- The least number of a list, or a default. -/
def minNat (l : List Nat) (d : Nat) : Nat := match l with | [] => d | a :: t => t.foldl Nat.min a

/-- The greatest number of a list, or 0. -/
def maxNat (l : List Nat) : Nat := l.foldl Nat.max 0

/-- The least number below `n` that satisfies `p`. -/
def firstBelow (n : Nat) (p : Nat → Bool) : Option Nat := (List.range n).find? p

/-- Replaces the first element that satisfies `p`. -/
def replaceFirst {α : Type} (p : α → Bool) (f : α → α) : List α → List α
  | [] => []
  | a :: t => if p a then f a :: t else a :: replaceFirst p f t

/-- Removes the first element that satisfies `p`. -/
def removeFirst {α : Type} (p : α → Bool) : List α → List α
  | [] => []
  | a :: t => if p a then t else a :: removeFirst p t

/-- Cuts a list into blocks of `n`, `fuel` of them at most. -/
def blocksOf {α : Type} (n : Nat) : Nat → List α → List (List α)
  | 0, _ => []
  | _, [] => []
  | fuel + 1, l => l.take n :: blocksOf n fuel (l.drop n)

end Sys2Proof
end

