-- ==== Sys2Proof/Machine/Bits.lean ====
section
/-! DEFINITION. Bit fields and little-endian bytes (R2). -/

namespace Sys2Proof

/-- The field [hi:lo] of a number. -/
def fld (w hi lo : Nat) : Nat := (w >>> lo) % 2 ^ (hi + 1 - lo)

/-- A number with the field [hi:lo] set to `v`. -/
def setFld (w hi lo v : Nat) : Nat :=
  w - fld w hi lo * 2 ^ lo + (v % 2 ^ (hi + 1 - lo)) * 2 ^ lo

/-- Bit `i` of a number. -/
def bitAt (w i : Nat) : Bool := Nat.testBit w i

/-- The field [hi:lo] of a register. -/
def Word.fld (w : Word) (hi lo : Nat) : Nat := Sys2Proof.fld w.toNat hi lo

/-- A register with the field [hi:lo] set. -/
def Word.setFld (w : Word) (hi lo v : Nat) : Word := BitVec.ofNat 64 (Sys2Proof.setFld w.toNat hi lo v)

/-- Bit `i` of a register. -/
def Word.bit (w : Word) (i : Nat) : Bool := Nat.testBit w.toNat i

/-- A register with bit `i` set or cleared. -/
def Word.setBit (w : Word) (i : Nat) (b : Bool) : Word := Word.setFld w i i (if b then 1 else 0)

/-- `n` bytes of a number, little-endian (R2). -/
def bytesOf : Nat → Nat → List Byte
  | 0, _ => []
  | n + 1, v => BitVec.ofNat 8 (v % 256) :: bytesOf n (v / 256)

/-- The number that bytes spell, little-endian (R2). -/
def ofBytes : List Byte → Nat
  | [] => 0
  | b :: t => b.toNat + 256 * ofBytes t

/-- Byte `i` of a list, 0 past its end. -/
def byteAt (l : List Byte) (i : Nat) : Byte := l.getD i 0

/-- `n` bytes of a list from offset `off` as a number, little-endian; bytes past the end read as 0. -/
def rdLE (l : List Byte) (off n : Nat) : Nat := ofBytes ((l.drop off).take n)

/-- Whether every byte from `off` to `off + n - 1` is zero. -/
def zeroAt (l : List Byte) (off n : Nat) : Bool := ((l.drop off).take n).all (· == 0)

/-- A signed number from its low `n` bits. -/
def toSigned (n v : Nat) : Int :=
  let m := v % 2 ^ n
  if 2 * m < 2 ^ n then (m : Int) else (m : Int) - (2 ^ n : Nat)

/-- The low `n` bits of a signed number. -/
def ofSigned (n : Nat) (v : Int) : Nat := (v % ((2 ^ n : Nat) : Int)).toNat

/-- A count of at most `n` bits that stays at its greatest value. -/
def satAdd (bits a b : Nat) : Nat := Nat.min (a + b) (2 ^ bits - 1)

/-- The parity of a number's bits below 2^64. -/
def parity64 (v : Nat) : Bool := ((List.range 64).filter (Nat.testBit v)).length % 2 == 1

/-- The set bits of a number below bit `n`, rising. -/
def bitsOf (n v : Nat) : List Nat := (List.range n).filter (Nat.testBit v)

/-- The number whose set bits are those of the list. -/
def maskOf (l : List Nat) : Nat := l.foldl (fun a i => a ||| 2 ^ i) 0

/-- Whether a frame sequence number comes after another, modulo 2^32: replay buffers are far shorter than half the circle. -/
def seqAfter (a b : BitVec 32) : Bool := a != b && decide ((a - b).toNat < 2 ^ 31)

/-- The place of the highest set bit; 0 of 0. -/
def floorLog2 (v : Nat) : Nat := Nat.log2 v

end Sys2Proof
end

