-- ==== Sys2Proof/Machine/Flags.lean ====
section
/-! DEFINITION. The arithmetic flags (Table 2.5): one bit each of a 16-bit set that is ORed from step to step. -/

namespace Sys2Proof.Machine

/-- A set of arithmetic flags. -/
abbrev AFlags := BitVec 16

/-- An operand element is NaN, or its scale is 0xFF. -/
def flagNanIn : AFlags := 0x0001
/-- Inf × 0 is formed, or +Inf and −Inf meet. -/
def flagInvalid : AFlags := 0x0002
/-- A sum leaves the number range. -/
def flagAccOvf : AFlags := 0x0004
/-- A drain exceeds its format's range, or an FP32 operation overflows. -/
def flagOutOvf : AFlags := 0x0008
/-- A non-zero value becomes zero. -/
def flagUnderflow : AFlags := 0x0010
/-- Non-zero bits of a block partial fall below the window. -/
def flagWindowLoss : AFlags := 0x0020
/-- The truncation of R35 discards a non-zero bit. -/
def flagSpanLoss : AFlags := 0x0040
/-- A drain or an FP32 operation rounds. -/
def flagInexact : AFlags := 0x0080
/-- The pre-scan anchor was clamped. -/
def flagAnchorClamp : AFlags := 0x0100

/-- The flag `f` where `b` holds. -/
def flagIf (b : Bool) (f : AFlags) : AFlags := if b then f else 0

/-- Every flag but ACC_OVF, the ones a cupping comparison covers (R353). -/
def flagsCompared (f : AFlags) : AFlags := f &&& 0xFFFB

end Sys2Proof.Machine
end

