-- ==== Sys2Proof/Machine/Num.lean ====
section
/-! DEFINITION. Number formats (Table 2.1, R29, R30) and exact arithmetic on their values, with IEEE 754 binary32 operations
as one rounding of an exact value (R449). -/

namespace Sys2Proof.Machine

/-- A value: a signed zero, (−1)^neg × m × 2^e with m > 0, an infinity, or NaN. -/
inductive Val where
  | zero (neg : Bool)
  | fin (neg : Bool) (m : Nat) (e : Int)
  | inf (neg : Bool)
  | nan
deriving DecidableEq, Repr

/-- A binary format: exponent and mantissa widths, bias, specials (0 none, 1 NaN only in the all-ones code, 2 IEEE), the bits
of the largest finite magnitude, and the quiet NaN written. -/
structure FloatFmt where
  eb : Nat
  mb : Nat
  bias : Nat
  special : Nat
  maxBits : Nat
  nanBits : Nat
deriving DecidableEq, Repr

/-- FP32. -/
def fp32 : FloatFmt := ⟨8, 23, 127, 2, 0x7F7FFFFF, 0x7FC00000⟩
/-- BF16. -/
def bf16 : FloatFmt := ⟨8, 7, 127, 2, 0x7F7F, 0x7FC0⟩
/-- FP16. -/
def fp16 : FloatFmt := ⟨5, 10, 15, 2, 0x7BFF, 0x7E00⟩
/-- E4M3. -/
def e4m3 : FloatFmt := ⟨4, 3, 7, 1, 0x7E, 0x7F⟩
/-- E5M2. -/
def e5m2 : FloatFmt := ⟨5, 2, 15, 2, 0x7B, 0x7F⟩
/-- E3M2. -/
def e3m2 : FloatFmt := ⟨3, 2, 3, 0, 0x1F, 0⟩
/-- E2M3. -/
def e2m3 : FloatFmt := ⟨2, 3, 1, 0, 0x1F, 0⟩
/-- E2M1. -/
def e2m1 : FloatFmt := ⟨2, 1, 1, 0, 0x7, 0⟩

/-- Decodes the bits of a format; subnormals as they stand (R28). -/
def FloatFmt.decode (f : FloatFmt) (bits : Nat) : Val :=
  let neg := Nat.testBit bits (f.eb + f.mb)
  let ex := fld bits (f.eb + f.mb - 1) f.mb
  let man := bits % 2 ^ f.mb
  let top := 2 ^ f.eb - 1
  if f.special = 2 ∧ ex = top then (if man = 0 then .inf neg else .nan)
  else if f.special = 1 ∧ ex = top ∧ man = 2 ^ f.mb - 1 then .nan
  else if ex = 0 then
    (if man = 0 then .zero neg else .fin neg man (1 - (f.bias : Int) - f.mb))
  else .fin neg (2 ^ f.mb + man) ((ex : Int) - f.bias - f.mb)

/-- m / 2^n rounded to nearest, ties to even. -/
def rneShift (m n : Nat) : Nat :=
  let q := m >>> n
  let rem := m - q * 2 ^ n
  if n = 0 then m
  else if 2 * rem > 2 ^ n ∨ (2 * rem = 2 ^ n ∧ q % 2 = 1) then q + 1 else q

/-- A finite non-zero magnitude m × 2^e rounded to a format with unbounded exponent range (R46): the magnitude's bits, which
exceed `maxBits` where the value does, and whether it was rounded. -/
def FloatFmt.round (f : FloatFmt) (m : Nat) (e : Int) : Nat × Bool :=
  let top : Int := (Nat.log2 m : Int) + e
  let q : Int := max top (1 - (f.bias : Int)) - f.mb
  if e ≥ q then
    let n := m * 2 ^ (e - q).toNat
    (if n < 2 ^ f.mb then n else (q + f.mb + f.bias).toNat * 2 ^ f.mb + (n - 2 ^ f.mb), false)
  else
    let k := (q - e).toNat
    let n := rneShift m k
    (if n < 2 ^ f.mb then n else (q + f.mb + f.bias).toNat * 2 ^ f.mb + (n - 2 ^ f.mb), decide (n * 2 ^ k ≠ m))

/-- The sign bit of a format. -/
def FloatFmt.sign (f : FloatFmt) (neg : Bool) : Nat := if neg then 2 ^ (f.eb + f.mb) else 0

/-- Drains a value to a format (R46, Table 2.4). `sat` is OVF_MODE SAT. -/
def FloatFmt.drain (f : FloatFmt) (sat : Bool) : Val → Nat × AFlags
  | .zero neg => (f.sign neg, 0)
  | .nan => (f.nanBits, 0)
  | .inf neg =>
    if sat then (f.sign neg + f.maxBits, 0)
    else if f.special = 2 then (f.sign neg + f.maxBits + 1, 0) else (f.nanBits, 0)
  | .fin neg m e =>
    let (b, ix) := f.round m e
    if b > f.maxBits then
      (if sat then f.sign neg + f.maxBits
       else if f.special = 2 then f.sign neg + f.maxBits + 1 else f.nanBits,
       flagOutOvf ||| flagInexact)
    else (f.sign neg + b, flagIf ix flagInexact ||| flagIf (b == 0) flagUnderflow)

/-- Rounds to a format and clamps at its largest finite magnitude without OUT_OVF (R49 step 4). -/
def FloatFmt.mxRound (f : FloatFmt) : Val → Nat × AFlags
  | .fin neg m e =>
    let (b, ix) := f.round m e
    if b > f.maxBits then (f.sign neg + f.maxBits, flagInexact)
    else (f.sign neg + b, flagIf ix flagInexact ||| flagIf (b == 0) flagUnderflow)
  | .inf neg => (f.sign neg + f.maxBits, 0)
  | .zero neg => (f.sign neg, 0)
  | .nan => (0, 0)

/-! ## Exact operations -/

/-- The sign of a value. -/
def Val.neg : Val → Bool
  | .zero n => n
  | .fin n _ _ => n
  | .inf n => n
  | .nan => false

/-- A signed integer times 2^e as a value; zero is +0. -/
def Val.ofInt (i : Int) (e : Int) : Val := if i = 0 then .zero false else .fin (decide (i < 0)) i.natAbs e

/-- The signed mantissa of a finite value at exponent `e`, which is not above its own. -/
def Val.atExp (v : Val) (e : Int) : Int := match v with
  | .fin n m x => (if n then -1 else 1) * ((m * 2 ^ (x - e).toNat : Nat) : Int)
  | _ => 0

/-- Exact sum of two values; `true` where +Inf meets −Inf. A zero sum of non-zero or unlike-signed terms is +0. -/
def Val.add (a b : Val) : Val × Bool := match a, b with
  | .nan, _ => (.nan, false)
  | _, .nan => (.nan, false)
  | .inf x, .inf y => if x = y then (.inf x, false) else (.nan, true)
  | .inf x, _ => (.inf x, false)
  | _, .inf y => (.inf y, false)
  | .zero x, .zero y => (.zero (x && y), false)
  | .zero _, v => (v, false)
  | v, .zero _ => (v, false)
  | .fin _ _ x, .fin _ _ y =>
    let e := min x y
    (Val.ofInt (a.atExp e + b.atExp e) e, false)

/-- Exact product; `true` where Inf × 0 is formed. -/
def Val.mul (a b : Val) : Val × Bool := match a, b with
  | .nan, _ => (.nan, false)
  | _, .nan => (.nan, false)
  | .inf _, .zero _ => (.nan, true)
  | .zero _, .inf _ => (.nan, true)
  | .inf x, v => (.inf (x != v.neg), false)
  | v, .inf x => (.inf (x != v.neg), false)
  | .fin x m e, .fin y n g => (.fin (x != y) (m * n) (e + g), false)
  | v, w => (.zero (v.neg != w.neg), false)

/-- Order of two values that are not NaN, −0 below +0. -/
def Val.lt (a b : Val) : Bool := match a, b with
  | .inf x, .inf y => x && !y
  | .inf x, _ => x
  | _, .inf y => !y
  | .zero x, .zero y => x && !y
  | .zero _, .fin n _ _ => !n
  | .fin n _ _, .zero _ => n
  | .fin _ _ x, .fin _ _ y => decide (a.atExp (min x y) < b.atExp (min x y))
  | _, _ => false

/-! ## IEEE 754 binary32, round to nearest even (R449) -/

/-- Rounds an exact value to binary32, with its flags. -/
def fp32Round : Val → Nat × AFlags := fp32.drain false

/-- An FP32 result from an exact value and an INVALID condition. -/
def fp32Of (r : Val × Bool) : Nat × AFlags :=
  let (b, fl) := fp32Round r.1
  (b, fl ||| flagIf r.2 flagInvalid)

/-- FP32 addition. -/
def fp32Add (a b : Nat) : Nat × AFlags := fp32Of ((fp32.decode a).add (fp32.decode b))

/-- FP32 multiplication. -/
def fp32Mul (a b : Nat) : Nat × AFlags := fp32Of ((fp32.decode a).mul (fp32.decode b))

/-- FP32 fused multiply-add a × b + c, one rounding. -/
def fp32Fma (a b c : Nat) : Nat × AFlags :=
  let (p, i) := (fp32.decode a).mul (fp32.decode b)
  let (r, j) := p.add (fp32.decode c)
  fp32Of (r, i || j)

/-- FP32 negation, exact. -/
def fp32Neg (a : Nat) : Nat := a ^^^ 0x80000000

/-- FP32 subtraction. -/
def fp32Sub (a b : Nat) : Nat × AFlags := fp32Add a (fp32Neg b)

/-- FP32 division; 0/0 and Inf/Inf are INVALID. The quotient keeps 64 bits and a sticky bit before its one rounding. -/
def fp32Div (a b : Nat) : Nat × AFlags :=
  match fp32.decode a, fp32.decode b with
  | .nan, _ => fp32Of (.nan, false)
  | _, .nan => fp32Of (.nan, false)
  | .inf _, .inf _ => fp32Of (.nan, true)
  | .zero _, .zero _ => fp32Of (.nan, true)
  | .inf x, w => fp32Of (.inf (x != w.neg), false)
  | v, .inf y => fp32Of (.zero (v.neg != y), false)
  | .zero x, w => fp32Of (.zero (x != w.neg), false)
  | v, .zero y => fp32Of (.inf (v.neg != y), false)
  | .fin x m e, .fin y n g =>
    let k := 64 + Nat.log2 n
    let q := m * 2 ^ k / n
    let r := m * 2 ^ k % n
    fp32Of (.fin (x != y) (2 * q + (if r = 0 then 0 else 1)) (e - g - k - 1), false)

/-- IEEE 754-2019 maximum (R449). -/
def fp32Max (a b : Nat) : Nat :=
  let x := fp32.decode a
  let y := fp32.decode b
  if x = .nan ∨ y = .nan then fp32.nanBits else if x.lt y then b else a

/-- IEEE 754-2019 minimum (R449). -/
def fp32Min (a b : Nat) : Nat :=
  let x := fp32.decode a
  let y := fp32.decode b
  if x = .nan ∨ y = .nan then fp32.nanBits else if y.lt x then b else a

/-- BF16 sum of two BF16 values: an FP32 addition, rounded to BF16 (Table 7.8, RED_OP 3). -/
def bf16Add (a b : Nat) : Nat :=
  let s := (fp32Of ((bf16.decode a).add (bf16.decode b))).1
  (bf16.drain false (fp32.decode s)).1

end Sys2Proof.Machine
end

