-- ==== Sys2Proof/Machine/LongSum.lean ====
section
/-! DEFINITION. Long-sum arithmetic (chapter 2): operand formats, products and block partials (R34 to R36), long-sums and
their addition (R37 to R39), placement (R44), the pre-scan (R41), drains (R45 to R49), and residues (R74). -/

namespace Sys2Proof.Machine

/-! ## Operand formats (Table 3.4, Table 2.1) -/

/-- An operand format by its code in Table 3.4: element width in bits, unit q, bound F, MX scales, per-tensor scale. -/
structure OpFmt where
  bits : Nat
  q : Int
  f : Int
  mx : Bool
  tensor : Bool
deriving DecidableEq, Repr

/-- The properties of a format code. Codes 9 and 10 (BF16, FP16) have no fixed unit. -/
def opFmt (code : Nat) : OpFmt :=
  match code with
  | 0 => ⟨4, -1, 3, true, false⟩
  | 1 => ⟨6, -3, 3, true, false⟩
  | 2 => ⟨6, -4, 5, true, false⟩
  | 3 => ⟨8, -9, 9, true, false⟩
  | 4 => ⟨8, -16, 16, true, false⟩
  | 5 => ⟨8, -6, 1, true, false⟩
  | 6 => ⟨8, -9, 9, false, true⟩
  | 7 => ⟨8, -16, 16, false, true⟩
  | 8 => ⟨8, 0, 7, false, true⟩
  | _ => ⟨16, 0, 0, false, false⟩

/-- Decodes an element of a format code (R28, Table 2.1). -/
def decodeElem (code bits : Nat) : Val :=
  match code with
  | 0 => e2m1.decode bits
  | 1 => e2m3.decode bits
  | 2 => e3m2.decode bits
  | 3 => e4m3.decode bits
  | 4 => e5m2.decode bits
  | 5 => Val.ofInt (toSigned 8 bits) (-6)
  | 6 => e4m3.decode bits
  | 7 => e5m2.decode bits
  | 8 => Val.ofInt (toSigned 8 bits) 0
  | 9 => bf16.decode bits
  | _ => fp16.decode bits

/-- Element `i` of a packed row (R30). -/
def elemBits (code : Nat) (row : List Byte) (i : Nat) : Nat :=
  match (opFmt code).bits with
  | 4 => fld (byteAt row (i / 2)).toNat (4 * (i % 2) + 3) (4 * (i % 2))
  | 6 => fld (rdLE row (i / 4 * 3) 3) (6 * (i % 4) + 5) (6 * (i % 4))
  | 8 => (byteAt row i).toNat
  | _ => rdLE row (2 * i) 2

/-- The unbiased exponent of an E8M0 scale; none for 0xFF (R29). -/
def scaleExp (code : Nat) : Option Int := if code = 0xFF then none else some ((code : Int) - 127)

/-! ## Long-sums -/

/-- A long-sum's meaning (R37, Table 2.2). -/
inductive LS where
  | num (v : Int)
  | povf | novf | uovf | pinf | ninf | nan
deriving DecidableEq, Repr

/-- The largest magnitude of a number: 2^127 − 16. -/
def lsMax : Int := 2 ^ 127 - 16

/-- Reads a long-sum; codes that are neither numbers nor special read as NaN (R37). -/
def LS.ofBits (w : BitVec 128) : LS :=
  let v := w.toInt
  if -lsMax ≤ v ∧ v ≤ lsMax then .num v
  else match w.toNat - 2 ^ 127 with
    | 1 => .pinf
    | 2 => .ninf
    | 3 => .povf
    | 4 => .novf
    | 5 => .uovf
    | _ => .nan

/-- The 128 bits of a long-sum (Table 2.2). -/
def LS.bits : LS → BitVec 128
  | .num v => BitVec.ofInt 128 v
  | .nan => BitVec.ofNat 128 (2 ^ 127)
  | .pinf => BitVec.ofNat 128 (2 ^ 127 + 1)
  | .ninf => BitVec.ofNat 128 (2 ^ 127 + 2)
  | .povf => BitVec.ofNat 128 (2 ^ 127 + 3)
  | .novf => BitVec.ofNat 128 (2 ^ 127 + 4)
  | .uovf => BitVec.ofNat 128 (2 ^ 127 + 5)

/-- An integer as a number, or as the overflowed code of its sign (R38). -/
def LS.ofSum (v : Int) : LS × AFlags :=
  if -lsMax ≤ v ∧ v ≤ lsMax then (.num v, 0) else (if v < 0 then .novf else .povf, flagAccOvf)

/-- The long-sum addition (R38, Table 2.3). -/
def LS.add (a b : LS) : LS × AFlags :=
  match a, b with
  | .num x, .num y => LS.ofSum (x + y)
  | .nan, _ => (.nan, 0)
  | _, .nan => (.nan, 0)
  | .pinf, .ninf => (.nan, flagInvalid)
  | .ninf, .pinf => (.nan, flagInvalid)
  | .pinf, _ => (.pinf, 0)
  | _, .pinf => (.pinf, 0)
  | .ninf, _ => (.ninf, 0)
  | _, .ninf => (.ninf, 0)
  | .uovf, _ => (.uovf, 0)
  | _, .uovf => (.uovf, 0)
  | .povf, .novf => (.uovf, 0)
  | .novf, .povf => (.uovf, 0)
  | .povf, _ => (.povf, 0)
  | _, .povf => (.povf, 0)
  | .novf, _ => (.novf, 0)
  | _, .novf => (.novf, 0)

/-- The long-sum add of a reduction window or a collective: on raw bits (R38, R39). -/
def lsAddBits (a b : BitVec 128) : BitVec 128 × AFlags :=
  let r := (LS.ofBits a).add (LS.ofBits b)
  (r.1.bits, r.2)

/-! ## Block partials -/

/-- A block's contribution: an exact integer times 2^q, or the special value its products combine to. -/
inductive Blk where
  | num (bp : Int) (q : Int)
  | spec (v : LS)
deriving DecidableEq, Repr

/-- The special product of two elements, if it is one, with its flags (R36). -/
def specialProduct (a b : Val) : Option LS × AFlags :=
  match a, b with
  | .nan, _ => (some .nan, flagNanIn)
  | _, .nan => (some .nan, flagNanIn)
  | .inf _, .zero _ => (some .nan, flagInvalid)
  | .zero _, .inf _ => (some .nan, flagInvalid)
  | .inf x, v => (some (if x != v.neg then .ninf else .pinf), 0)
  | v, .inf x => (some (if x != v.neg then .ninf else .pinf), 0)
  | _, _ => (none, 0)

/-- The combined special value of a block's products, and the flags they set (R36). NAN_IN is set for a NaN element whatever
it meets. -/
def blockSpecial (ps : List (Val × Val)) : Option LS × AFlags :=
  ps.foldl (fun acc p =>
    let (sp, fl) := specialProduct p.1 p.2
    match acc.1, sp with
    | none, x => (x, acc.2 ||| fl)
    | some y, some x => let r := y.add x; (some r.1, acc.2 ||| fl ||| r.2)
    | some y, none => (some y, acc.2 ||| fl)) (none, 0)

/-- The block partial of 32 pairs of narrow elements under scale exponents; a missing exponent is a 0xFF scale (R29, R34). -/
def narrowBlock (fa fb : OpFmt) (sa sb : Option Int) (ps : List (Val × Val)) : Blk × AFlags :=
  let ps := ps.map fun p => (if sa.isNone then Val.nan else p.1, if sb.isNone then Val.nan else p.2)
  match blockSpecial ps with
  | (some v, fl) => (.spec v, fl)
  | (none, fl) =>
    (.num (ps.foldl (fun a p => a + p.1.atExp fa.q * p.2.atExp fb.q) 0)
      (sa.getD 0 + sb.getD 0 + fa.q + fb.q), fl)

/-- The block partial of 32 pairs of BF16 or FP16 elements on its 72-bit span (R35), with SPAN_LOSS. -/
def wideBlock (ps : List (Val × Val)) : Blk × AFlags :=
  match blockSpecial ps with
  | (some v, fl) => (.spec v, fl)
  | (none, fl) =>
    let prods := ps.map fun p => (p.1.mul p.2).1
    let tops : List Int := prods.filterMap fun p => match p with
      | .fin _ m e => some ((Nat.log2 m : Int) + e)
      | _ => none
    match tops with
    | [] => (.num 0 0, fl)
    | t :: ts =>
      let q := ts.foldl max t - 65
      let parts := prods.map fun p => match p with
        | .fin n m e =>
          let mag := if e ≥ q then m * 2 ^ (e - q).toNat else m >>> (q - e).toNat
          let lost := decide (e < q) && decide (mag * 2 ^ (q - e).toNat ≠ m)
          ((if n then -(mag : Int) else mag), lost)
        | _ => (0, false)
      (.num (parts.foldl (fun a p => a + p.1) 0) q, fl ||| flagIf (parts.any (·.2)) flagSpanLoss)

/-- Adds one block partial to a long-sum at anchor `a` (R44). -/
def placeBlock (l : LS) (b : Blk) (a : Int) : LS × AFlags :=
  match b with
  | .spec v => l.add v
  | .num bp q =>
    let sh := q - (a - 112)
    if sh ≥ 0 then
      let c := bp * ((2 ^ sh.toNat : Nat) : Int)
      if -lsMax ≤ c ∧ c ≤ lsMax then l.add (.num c)
      else let r := l.add (if bp < 0 then .novf else .povf); (r.1, r.2 ||| flagAccOvf)
    else
      let n := (-sh).toNat
      let m := if n ≥ 72 then 0 else rneShift bp.natAbs n
      let c : Int := if bp < 0 then -(m : Int) else m
      let r := l.add (.num c)
      (r.1, r.2 ||| flagIf (decide (c * ((2 ^ n : Nat) : Int) ≠ bp)) flagWindowLoss)

/-! ## The pre-scan (R41) -/

/-- The least g with 2^g ≥ k. -/
def ceilLog2 (k : Nat) : Nat := if k ≤ 1 then 0 else Nat.log2 (k - 1) + 1

/-- The anchor from the A and B terms and K_TOTAL, and whether it was clamped (R41, R42). -/
def anchorOf (ta tb : Int) (kTotal : Nat) : Int × Bool :=
  let v := ta + tb + ceilLog2 kTotal
  (max (-512) (min v 511), decide (v < -512 ∨ v > 511))

/-- max over finite non-zero x of floor(log2 |x|) + 1; −256 where there is none (R41). -/
def maxElemExp (vs : List Val) : Int :=
  let es : List Int := vs.filterMap fun v => match v with
    | .fin _ m e => some ((Nat.log2 m : Int) + e + 1)
    | _ => none
  match es with
  | [] => -256
  | t :: ts => ts.foldl max t

/-- max over scale codes of the unbiased exponent, 0xFF skipped; −127 where all are 0xFF (R41). -/
def maxScaleExp (codes : List Nat) : Int :=
  match codes.filterMap scaleExp with
  | [] => -127
  | t :: ts => ts.foldl max t

/-! ## Drains -/

/-- The exact value of a long-sum at anchor `a`; overflowed sums behave as infinities, sign-unknown ones as NaN (Table 2.4). -/
def LS.val (l : LS) (a : Int) : Val :=
  match l with
  | .num v => Val.ofInt v (a - 112)
  | .pinf => .inf false
  | .povf => .inf false
  | .ninf => .inf true
  | .novf => .inf true
  | .uovf => .nan
  | .nan => .nan

/-- Output formats by code (Table 3.4): element format, bytes of one element in bits, and whether it is an MX format. -/
def outFmt (code : Nat) : FloatFmt × Nat × Bool :=
  match code with
  | 0 => (fp32, 32, false)
  | 1 => (bf16, 16, false)
  | 2 => (fp16, 16, false)
  | 3 => (e4m3, 8, false)
  | 4 => (e5m2, 8, false)
  | 5 => (e4m3, 8, true)
  | 6 => (e5m2, 8, true)
  | 7 => (e3m2, 6, true)
  | 8 => (e2m3, 6, true)
  | _ => (e2m1, 4, true)

/-- A value times 2^k. -/
def Val.scale (v : Val) (k : Int) : Val := match v with
  | .fin n m e => .fin n m (e + k)
  | w => w

/-- Unbiased exponent of a format's largest normal element (Table 2.1). -/
def FloatFmt.emax (f : FloatFmt) : Int := (f.maxBits / 2 ^ f.mb : Nat) - (f.bias : Int)

/-- Drains an MX block over its valid values (R49): scale byte, element bits, flags. -/
def drainMx (f : FloatFmt) (sat : Bool) (vs : List Val) : Nat × List Nat × AFlags :=
  let zeros := vs.map fun _ => 0
  let isInf (v : Val) : Bool := match v with | .inf _ => true | _ => false
  let round (x : Int) : List Nat × AFlags :=
    let rs := vs.map fun v => f.mxRound (v.scale (-x))
    (rs.map (·.1), rs.foldl (fun a r => a ||| r.2) 0)
  if vs.any (· == .nan) then (0xFF, zeros, 0)
  else if vs.any isInf then
    if sat then let r := round 127; (0xFE, r.1, r.2) else (0xFF, zeros, 0)
  else
    let tops : List Int := vs.filterMap fun v => match v with
      | .fin _ m e => some ((Nat.log2 m : Int) + e)
      | _ => none
    match tops with
    | [] => (0x00, zeros, 0)
    | t :: ts =>
      let x := ts.foldl max t - f.emax
      if x > 127 then
        if sat then let r := round 127; (0xFE, r.1, r.2 ||| flagOutOvf) else (0xFF, zeros, flagOutOvf)
      else
        let x := max x (-127)
        let r := round x
        ((x + 127).toNat, r.1, r.2)

/-! ## Residues (R74) -/

/-- The residue modulo 8191 of a signed integer; any width gives the same (R74). -/
def residue (v : Int) : Nat := (v % 8191).toNat

end Sys2Proof.Machine
end

