-- ==== Sys2Proof/Machine/Ecc.lean ====
section
/-! DEFINITION. The check code of the bonded DRAM (R210 to R213, R450): arithmetic in GF(256), syndromes of an error vector,
and the decode outcomes of Table 8.6. Errors are lists of (codeword position, pattern). -/

namespace Sys2Proof.Machine

/-- Multiplication by α = 2 modulo x^8 + x^4 + x^3 + x^2 + 1 (R210). -/
def gfDouble (a : Nat) : Nat := if a < 128 then 2 * a else (2 * a - 256) ^^^ 0x1D

/-- Product in GF(256), over the bits of `b` from bit `8 - fuel`. -/
def gfMulGo : Nat → Nat → Nat → Nat
  | 0, _, _ => 0
  | n + 1, a, b => (if b % 2 = 1 then a else 0) ^^^ gfMulGo n (gfDouble a) (b / 2)

/-- Product in GF(256). -/
def gfMul (a b : Nat) : Nat := gfMulGo 8 a b

/-- α^n. -/
def gfPow : Nat → Nat
  | 0 => 1
  | n + 1 => gfDouble (gfPow n)

/-- Syndrome S_i of an error vector (R210). -/
def syndrome (i : Nat) (es : List (Nat × Nat)) : Nat :=
  es.foldl (fun a e => a ^^^ gfMul e.2 (gfPow (i * e.1 % 255))) 0

/-- The four syndromes. -/
def syndromes (es : List (Nat × Nat)) : List Nat := (List.range 4).map fun i => syndrome i es

/-- Check-byte errors that make a stored sector poison (R212). -/
def poisonErrs : List (Nat × Nat) := [(1, 0xFF), (3, 0xFF)]

/-- Check-byte errors of the stored-zero form (R450). -/
def zeroErrs : List (Nat × Nat) := [(0, 0xFF), (2, 0xFF)]

/-- The single error that a syndrome locates (R213): its position and pattern. -/
def locate (y : List Nat) : Option (Nat × Nat) :=
  let s0 := y.getD 0 0
  let s1 := y.getD 1 0
  let s2 := y.getD 2 0
  let s3 := y.getD 3 0
  if s0 = 0 then none
  else
    ((List.range 68).find? fun p =>
      let a := gfPow p
      gfMul s0 a == s1 && gfMul s1 a == s2 && gfMul s2 a == s3 && (decide (p ≤ 3) || decide (s0 ≤ 0x0F))).map
      fun p => (p, s0)

/-- Outcomes of decoding a sector (Table 8.6): data with no error, data corrected at a position, zeros, zeros corrected at a
position, stored poison, or an uncorrectable detection. -/
inductive Decode where
  | data
  | dataFixed (pos pat : Nat)
  | zeros
  | zerosFixed (pos : Nat)
  | poison
  | detected
deriving DecidableEq, Repr

/-- Decodes a sector from its error vector, in mend or guard mode (R213, Table 8.6). -/
def decodeSector (guard : Bool) (es : List (Nat × Nat)) : Decode :=
  let y := syndromes es
  if y = [0, 0, 0, 0] then .data
  else if y = syndromes zeroErrs then .zeros
  else if y = syndromes poisonErrs then .poison
  else if guard then .detected
  else match locate y with
    | some (p, v) => .dataFixed p v
    | none =>
      match locate ((List.range 4).map fun i => y.getD i 0 ^^^ syndrome i zeroErrs) with
      | some (p, _) => .zerosFixed p
      | none => .detected

/-- The total error pattern at a position. -/
def errAt (es : List (Nat × Nat)) (p : Nat) : Nat := es.foldl (fun a e => if e.1 = p then a ^^^ e.2 else a) 0

/-- Whether an error remains in 16-byte block `b` of the data (nibbles 32b to 32b + 31, positions from 4; R210). -/
def blockBad (es : List (Nat × Nat)) (b : Nat) : Bool :=
  (List.range 32).any fun i => errAt es (4 + 32 * b + i) ≠ 0

/-! ## The check bytes themselves (R211) -/

/-- Remainder of a polynomial (highest degree first) by g(x) = (x+1)(x+α)(x+α^2)(x+α^3), as a four-symbol shift register,
highest degree first. -/
def polyRem : List Nat → Nat × Nat × Nat × Nat → Nat × Nat × Nat × Nat
  | [], r => r
  | c :: t, (r3, r2, r1, r0) =>
    polyRem t (r2 ^^^ gfMul r3 0x0F, r1 ^^^ gfMul r3 0x36, r0 ^^^ gfMul r3 0x78, c ^^^ gfMul r3 0x40)

/-- The check bytes of a sector of 32 bytes (R211). -/
def checkBytes (sec : List Byte) : List Nat :=
  let nib := (List.range 64).map fun j => ((sec.getD (j / 2) 0).toNat / 16 ^ (j % 2)) % 16
  let (r3, r2, r1, r0) := polyRem (nib.reverse ++ [0, 0, 0, 0]) (0, 0, 0, 0)
  [r0, r1, r2, r3]

end Sys2Proof.Machine
end

