-- ==== Sys2Proof/Config.lean ====
section
/-! DEFINITION. The free values of the model: constants with no body, so that no proof can see what they are. Each stands
for a value the spec leaves open or computes by a function it does not print; the log entry is named with each. -/

namespace Sys2Proof.Config

/-- A fresh 64-bit value for draw number `n` (log entry 6): random draws of the device, and values the spec leaves open. -/
opaque freeWord : Nat → BitVec 64

/-- SHA-384 (FIPS 180-4), not printed by the spec (log entry 11). -/
opaque sha384 : List Byte → BitVec 384

/-- A byte of a sector read under a key other than the one it was written under, or whose ciphertext was altered (R249):
by sector address, key, and byte index (log entry 11). -/
opaque wrongKeyByte : Nat → Nat → Nat → BitVec 8

/-- SHA-384 of the boot ROM (Table 16.4 block 1, log entry 11). -/
opaque romHash : BitVec 384

/-- Whether an RSA-3072 signature over a message verifies under the key with a hash: key hash, message, signature (R394,
log entry 11). -/
opaque rsaVerify : BitVec 384 → List Byte → List Byte → Bool

/-- Whether an SLH-DSA signature verifies (R394, log entry 11). -/
opaque slhVerify : BitVec 384 → List Byte → List Byte → Bool

/-- The result of the reciprocal family of finishing functions on the image's tables (R69 to R71, log entry 15): function
code, image bytes, FP32 operand bits. -/
opaque finFn : Nat → List (Nat × Byte) → BitVec 32 → BitVec 32

/-- The static energy model of R385: temperature and the two ratios (log entry 18). -/
opaque idleModel : Int → Nat → Nat → Nat

/-- The highest ratio a die's fused voltage curve allows at a set point in mV (R375; not published, log entry 19). -/
opaque curveRatio : Nat → Nat → Nat

/-- The set point in mV that a die's fused voltage curve gives a ratio (R375; not published, log entry 19). -/
opaque curveMv : Nat → Nat → Nat

/-- The supply voltage of a unit, in mV, when signature `n` was taken (Table 14.3 VOLT, log entry 20). -/
opaque volt : Nat → BitVec 16

/-- Bytes of an SPDM response whose contents the SPDM standard, not the spec, gives (R400, log entry 21): request number
and its state. -/
opaque spdmBytes : Nat → Nat → List Byte

/-- The words of TSYNC_CTL and TSYNC_STAT, whose layout the spec does not give (R305, R307): state or role number, and the last
offset or the upstream port (log entry 30). -/
opaque tsyncWord : Bool → Nat → Int → BitVec 64

/-- Bytes of CXL responses whose contents the CXL specification gives (R313, log entry 31): configuration space by port and
offset (kind 0), Identify (1), logs by UUID and offset (2), the list of logs (3), the UUIDs of event records (4). -/
opaque cxlByte : Nat → Nat → Nat → BitVec 8

/-- A byte of a sealed save-area page (R404): key, nonce, the page's plaintext, and the byte's index (log entry 11). -/
opaque sealByte : Nat → Nat → List Byte → Nat → BitVec 8

end Sys2Proof.Config
end

