-- ==== Sys2Proof/Machine/State.lean ====
section
/-! DEFINITION. The state of the XZ9-P72 as plain data, the reasons a step can stop, and the state after reset.

Conventions of keys (log entry 5). A die is its logical number 0 to 71, a site 0 to 79, a gatehouse 0 to 3, a router is a
die or 72 + gatehouse. An engine slot of the module is site x 20 + slot, a core is die x 32 + logical core, a hardware
thread is core x 16 + thread. A global address is a device physical address below 2^43; (1 + port) x 2^70 + a for
host address a through CXL port 0 or 1; 3 x 2^70 + dev x 2^43 + pa for address pa at remote device dev. A copy held by a
unit is keyed unit x 2^80 + global address. -/

namespace Sys2Proof.Machine

/-- Why the machine stops. Every constructor is raised for a command that cannot occur in the state it meets: the device
does nothing there, and the model does not go on as if it had. All are SAFE: they cut behaviours off, none is added. -/
inductive Fault where
  /-- The command names a die, engine, core, slice, router, port, window or mailbox that the device does not have
  (Table 0.3). Raised by every family. Safe. -/
  | noSuchUnit
  /-- No thread runs on the named hardware thread, or it is not able to issue (suspended, stopped or ended), so it executes
  no instruction (R88, R121, R153). Raised by the thread families. Safe. -/
  | noReadyThread
  /-- The named command, context, passage or berth is not in a state in which this event concerns it. Raised by the
  lock-keeper and convoy families. Safe. -/
  | notPending
  /-- No message, packet, transfer, tile or operation that this event completes is in flight. Raised by the basin, link,
  tile and background-operation families. Safe. -/
  | notInFlight
  /-- The mailbox holds no accepted request of this opcode. Raised by the mailbox families. Safe. -/
  | noRequest
  /-- The block is powered off, stopped, lost or not yet brought up, so the event cannot reach it (R382, R384, R328). Safe. -/
  | blockDown
  /-- The event's own time or level condition does not hold (a timer that is not running, a pin already at that level). Safe. -/
  | notArmed
deriving DecidableEq, Repr

/-- Why a command has no meaning. -/
inductive Refusal where
  /-- The command has no meaning in the model yet. Raised by Dispatch.lean alone. Safe. -/
  | notModelled (mnemonic : String)
deriving DecidableEq, Repr

/-! ## Threads (chapter 4) -/

/-- What a thread waits for. -/
inductive Wait where
  /-- Able to issue. -/
  | none
  /-- TWAIT or TWAIT.ACQ on tickets up to a number (R103). -/
  | tickets (rd : BitVec 5) (upTo : Nat) (acq : Bool)
  /-- CTRWAIT (R120). -/
  | counter (rd : BitVec 5) (ctx ctr : Nat) (threshold : Word)
  /-- A load, store or atomic sent to the home of a tracked line, to the host or to a remote device. -/
  | memory
  /-- A release waits for PUT acknowledgements (R110); the instruction is then issued again. -/
  | puts
  /-- A synchronous fault waits for the handler (R122). -/
  | fault (id : Nat)
  /-- The handler thread waits for a fault record. -/
  | handlerIdle
deriving DecidableEq, Repr

/-- One hardware thread in use: its registers (Table 4.1), the user CSRs of Table 4.3, and its wait. `uid` tells apart the
threads that a hardware thread runs one after another. `bank` is the map bank its instruction in progress latched (R251), and
`ilen` that instruction's length. -/
structure Thread where
  uid : Nat
  berth : Nat
  ctx : Nat
  seq : Nat
  harbour : Bool
  handler : Bool
  convoy : Bool
  ktid : Nat
  ktcnt : Nat
  pc : Word
  x : Vector Word 32
  f : Vector Word 32
  v : Vector (BitVec 512) 32
  vtype : Word
  vl : Nat
  vstart : Nat
  vcsr : BitVec 3
  fcsr : BitVec 8
  instret : Nat
  kticket : Nat
  kflt : Word
  wait : Wait
  frozen : Bool
  bank : Bool
  ilen : Nat
deriving DecidableEq, Repr

/-- A ticket (R101): whose it is, its number, whether it has completed, with which status and flags, and whether a wait has
reported it. -/
structure Ticket where
  uid : Nat
  ctx : Nat
  seq : Nat
  num : Nat
  done : Bool
  status : Status
  flags : BitVec 16
  reported : Bool
deriving DecidableEq, Repr

/-- What a memory access in progress does when its data arrives: a load or store of `len` instruction bytes at a base
address (`aq`: then FENCE.ACQ), an atomic, or nothing but the installation of the data (`fetch`; the instruction is then
issued again). -/
inductive Access where
  | load (form : LoadForm) (va len : Nat) (aq : Bool)
  | store (form : StoreForm) (va len : Nat)
  | amo (op : AmoOp) (width : AmoWidth) (rd : BitVec 5) (va : Nat) (operand comparand : BitVec 128) (aq : Bool)
  | fetch
deriving DecidableEq, Repr

/-- Thread state of the module: hardware threads in use, all tickets not yet retired, and the next thread number. -/
structure ThreadSt where
  threads : NMap Thread
  tickets : List Ticket
  nextUid : Nat
deriving DecidableEq, Repr

/-! ## Memory and basin (chapters 6 to 8) -/

/-- What is known of one 32-byte DRAM sector besides its bytes: stored-zero form (R450), stored poison (R212), the key it
was written under (R249) and the symbol errors its stored word has taken (R210). -/
structure SecMeta where
  zero : Bool
  poison : Bool
  key : Nat
  errs : List (Nat × BitVec 8)
deriving DecidableEq, Repr

/-- Page states (Table 10.2). -/
inductive PotState where
  | free | zeroed | owned | loading | quarantined | withdrawn | system
deriving DecidableEq, Repr

/-- A page-ownership-table entry (Table 10.2). -/
structure PotEnt where
  owner : Nat
  state : PotState
  guard : Bool
  ro : Bool
  mooring : Bool
  spill : Bool
  code : Bool
deriving DecidableEq, Repr

/-- DRAM thermal states (Table 8.7). -/
inductive DramHeat where
  | normal | warm | throttle | stop
deriving DecidableEq, Repr

/-- A row repair record (R220; Table 13.6, REPAIR_LIST): its place, with the site whose stack it is, its spare, whether it is
fused, its time, the codeword positions that its read corrected, and the sectors that it poisoned. -/
structure RowRepair where
  die : Nat
  site : Nat
  chan : Nat
  layer : Nat
  bank : Nat
  row : Nat
  spare : Nat
  fused : Bool
  time : Nat
  fixed : List Nat
  poisoned : Nat
deriving DecidableEq, Repr

/-- A DRAM read held in STOP (R219): of a thread's own access (ticket 0), of one of its transfers, or (uid 0) of a request of
another node. -/
structure StopRead where
  die : Nat
  node : Nat
  tid : Nat
  uid : Nat
  ticket : Nat
  sector : Nat
  since : Nat
deriving DecidableEq, Repr

/-- Bonded DRAM (chapter 8): bytes by device physical address, sector facts, the page ownership tables, thermal states,
row repairs in progress (the blocked banks) and done, refreshed rows, and margining steps in progress (site, step count). -/
structure MemSt where
  dram : List Host.Cell
  sect : NMap SecMeta
  spentSec : NMap Unit
  pot : NMap PotEnt
  zeroedAtBringUp : Bool
  heat : NMap DramHeat
  blocked : List (Nat × Nat × Nat × Nat × Nat)
  repairs : List RowRepair
  refreshed : NMap Nat
  stopReads : List StopRead
  stopWrites : NMap (List Nat)
  margining : List Nat
deriving DecidableEq, Repr

/-- A byte held in a cache; `dirty` says that its home has not taken it yet (R96, R176). -/
structure CByte where
  val : Byte
  dirty : Bool
deriving DecidableEq, Repr

/-- A cache line's allocation facts (R182, R194): its age stamp, window and class, and whether it is leased or owned. -/
structure LineMeta where
  age : Nat
  win : Nat
  cls : Nat
  owned : Bool
  since : Nat
deriving DecidableEq, Repr

/-- Directory states (R186). No entry is state I. -/
inductive DirState where
  | shared
  | owned (node : Nat)
  | busy
deriving DecidableEq, Repr

/-- A transaction that holds a line in B: the requester, its kind (0 RdS, 1 RdX, 2 Upg, 3 eviction or rebuild), the nodes
whose answers are awaited, and whether an owner's write-back has been absorbed meanwhile. -/
structure Txn where
  req : Req
  kind : Nat
  await : List Nat
  absorbed : Bool
deriving DecidableEq, Repr

/-- A directory entry (R185). -/
structure DirEnt where
  state : DirState
  sharers : List Nat
  hs0 : Bool
  hs1 : Bool
  watch : Bool
  pin : Bool
  lease : Bool
  leasedAt : Nat
  lru : Nat
  txn : Option Txn
deriving DecidableEq, Repr

/-- Basin messages between a home and a holder or requester (Table 7.6). -/
inductive MsgKind where
  | inv | fwdS | fwdX | snpCur | invAck | fwdAck | dataU | dataS | dataX | gntX | wbD | wbK | wbAck | nack | err
  | biSnpInv | biSnpShared
deriving DecidableEq, Repr

/-- A message in flight: bytes are (offset in the line, byte); `dirty` are the offsets that the home does not have (FwdX);
`fwdTo` is the requester of a forward (100 is the home itself), and 1 in a FwdAck that carries no data (Table 7.7). -/
structure Msg where
  kind : MsgKind
  dst : Nat
  src : Nat
  line : Nat
  fwdTo : Nat
  bytes : List (Nat × Byte)
  dirty : List Nat
  poison : List Nat
  status : Status
deriving DecidableEq, Repr

/-- A request of a die that waits for an answer: kind 0 RdS, 1 RdX, 2 Upg on a directory line (R186), 3 data or 4 ownership
of a host line (R320), 5 an address translation (R319); `va` is the address that waits. `held` are the forwards and invalidations that wait for the access
(Table 7.7). -/
structure Pend where
  die : Nat
  line : Nat
  tid : Nat
  uid : Nat
  kind : Nat
  access : Access
  va : Nat
  tries : Nat
  nacked : Bool
  retryAt : Nat
  since : Nat
  held : List Msg
deriving DecidableEq, Repr

/-- A reduction update queued at a slice (R197). -/
structure RedUpd where
  die : Nat
  slice : Nat
  line : Nat
  op : Nat
  bytes : List (Nat × Byte)
  ctx : Nat
  seq : Nat
deriving DecidableEq, Repr

/-- Basin state (chapter 7) and the L1 caches (R96): bytes, poisoned sectors and line facts of each cache; the directories,
messages, waiting requests, starvation queues, predictors, near-atomic histories, update queues, far-quota changes
(die x 64 + slice to the new quota), maintenance operations, the instruction-cache epochs and the LR reservations. -/
structure BasinSt where
  l1 : NMap CByte
  l1Poison : NMap Unit
  icache : NMap Byte
  far : NMap CByte
  farPoison : NMap Unit
  farLines : NMap LineMeta
  home : NMap CByte
  homePoison : NMap Unit
  homeLines : NMap LineMeta
  dir : NMap DirEnt
  net : List Msg
  pend : List Pend
  starve : NMap (List (Nat × Nat))
  predictor : NMap Nat
  nearHist : NMap (List (Nat × Nat))
  updq : List RedUpd
  quotaNew : NMap Nat
  maint : NMap (Nat × Option Nat)
  winPending : NMap (Word × Word × Word)
  resv : NMap (Nat × Nat)
  stamp : Nat
deriving DecidableEq, Repr

/-! ## Engines and holds (chapter 3) -/

/-- A hold sector's sidecar (R57). Parity failures are named by the command that reads (Upset). -/
structure Side where
  tag : Nat
  spent : Bool
  poison : Bool
deriving DecidableEq, Repr

/-- A submitted tile (R61, R102): where, whose, its ticket, descriptor, masked engine set and AFTER bit; `kind` is 0 for a
first run, 1 for a re-run, 2 for a cupping copy, 3 for a stolen tile; `owner` is the logical engine
whose hold it reads, `outOwner` the one on `srcDie` whose hold takes its output (R60, R151). -/
structure Tile where
  die : Nat
  tid : Nat
  uid : Nat
  ticket : Nat
  ctx : Nat
  seq : Nat
  desc : Vector Word 8
  mask : BitVec 16
  after : Bool
  kind : Nat
  owner : Nat
  srcDie : Nat
  outOwner : Nat
deriving DecidableEq, Repr

/-- A region of a tile (R59): hold slot, first byte, row pitch in bytes, rows, bytes of a row. -/
structure TileReg where
  slot : Nat
  start : Nat
  pitch : Nat
  rows : Nat
  bytes : Nat
deriving DecidableEq, Repr

/-- What a drained tile writes to its hold, (offset, bytes, tag) row by row, and its flags. -/
structure TileOut where
  writes : List (Nat × List Byte × Nat)
  flags : BitVec 16
deriving DecidableEq, Repr

/-- A tile in an engine: the long-sums of its accumulators by row x 64 + column (R54), its anchor and flags, the tags of its
output rows and their combination (R80, R82), what residue checks excluded, whether it is cupped (R353), an injected fault
(R87), its regions and whether a write has met them (R65), and its start. -/
structure EngRun where
  tile : Tile
  accs : NMap (BitVec 128)
  anchor : Int
  flags : BitVec 16
  rowTags : List Nat
  allTag : Nat
  uncovered : Nat
  cupped : Bool
  inject : Nat
  regions : List TileReg
  upset : Bool
  started : Nat
  startCyc : Nat
deriving DecidableEq, Repr

/-- A cupped tile (R353): its original's engine and slot, the original's output once released, and the copy's output with its
engine and slot once drained. -/
structure CupWait where
  tile : Tile
  te : Nat
  slot : Nat
  orig : Option TileOut
  copy : Option (TileOut × Nat × Nat)
deriving DecidableEq, Repr

/-- A cupping mismatch that a check replay judges (R363): the tile's die and coordinates, the two slots with their outputs,
and the accepted output. -/
structure Mismatch where
  ctx : Nat
  seq : Nat
  die : Nat
  key : List Nat
  outs : List (Nat × List (Nat × List Byte × Nat))
  accepted : Option (List (Nat × List Byte × Nat))
deriving DecidableEq, Repr

/-- A barge transfer (R105, R106): kind 0 HLD, 1 HST, 2 GATH, 3 SCAT, with its operand words and options, the sectors it has
moved, its start by time and fabric cycles, the first failure that it has met and whether that ends it (`dead`), whether it has
read poison of a guard-mode page (R360), and the host translation that it waits for (R319), refused if `atsBad`. -/
structure Transfer where
  kind : Nat
  die : Nat
  tid : Nat
  uid : Nat
  ticket : Nat
  ctx : Nat
  seq : Nat
  berth : Nat
  harbour : Bool
  convoy : Bool
  a1 : Word
  a2 : Word
  a3 : Word
  opt : Bool
  desc : Vector Word 4
  bank : Bool
  paused : Bool
  pos : Nat
  started : Nat
  startCyc : Nat
  st : Status
  dead : Bool
  guard : Bool
  ats : Nat
  atsBad : Bool
deriving DecidableEq, Repr

/-- Engines, holds, tile queues and barges. `eng` has the tile in the array of engine die x 16 + engine, and at 1,152 more the
one that drains (R148). `holdTag` is the tag of the sectors of a slot that have no sidecar of their own
(R156, R242). -/
structure EngineSt where
  hold : NMap Byte
  side : NMap Side
  holdTag : NMap Nat
  tileq : List Tile
  reruns : List Tile
  copies : List CupWait
  mism : List Mismatch
  eng : NMap EngRun
  arithStopped : NMap Unit
  workAt : NMap Nat
  xfers : List Transfer
  fin : NMap Byte
  cupFirst : List (Nat × Nat × Nat)
  finPending : NMap Bool
  spentPending : NMap Bool
deriving DecidableEq, Repr

/-! ## Lock-keepers (chapter 5) -/

/-- A context (R125, R126, Table 5.1). `reserved` lists the completion slots given out, `written` those written with a gap
before them; `tries` counts the SEQ re-reads (R128). -/
structure Context where
  berth : Nat
  home : Nat
  sqLog2 : Nat
  cqLog2 : Nat
  rcbVa : Nat
  defaultDur : Nat
  slot : Nat
  state : Nat
  sqHead : Nat
  sqTail : Nat
  cqHead : Nat
  cqTail : Nat
  cqNext : Nat
  written : List Nat
  ctrs : Vector Word 16
  tries : Nat
  watching : Bool
  pinned : Bool
  port : Option Nat
deriving DecidableEq, Repr

/-- Where a command stands between take and completion. -/
inductive Phase where
  | taken | ready | prescan | scheduled | running | preempting | preempted | restoring | replayWait | stopping | roll
  | heldRepair
deriving DecidableEq, Repr

/-- The counts of a command's snapshot (Table 18.7). -/
structure Counts where
  tiles : Nat
  reruns : Nat
  cupped : Nat
  cupSkipped : Nat
  kCyc : Nat
  holdStall : Nat
  resUncovered : Nat
  issue : Nat
  bargeSect : Nat
  remoteBytes : Nat
  spillSect : Nat
deriving DecidableEq, Repr

/-- Nothing counted. -/
def Counts.zero : Counts :=
  { tiles := 0, reruns := 0, cupped := 0, cupSkipped := 0, kCyc := 0, holdStall := 0, resUncovered := 0, issue := 0
    bargeSect := 0, remoteBytes := 0, spillSect := 0 }

/-- A command taken and not yet complete (R133 to R141). `met` are the waits met, `live` the liveness ranges (engine, start,
sectors), `serve` the engine that serves a logical one in a check replay (key die x 16 + engine, R357), `cup` the cupping code
of the attempt by die (R352), `stepRows` a step's passages with their row counts (R257), `journal` its mooring operations
(berth, mooring, popped; R358),
`group` its anchor group (Table 5.6), `remoteAt` its remote bytes at the last gathering of R385, `noTiles` a tag-mixing or spent-read fault before the handler's action (R83). -/
structure Cmd where
  ctx : Nat
  seq : Nat
  berth : Nat
  words : Vector Word 16
  phase : Phase
  met : BitVec 4
  tTake : Nat
  tReady : Nat
  tStart : Nat
  preempts : Nat
  replays : Nat
  cflags : BitVec 8
  preemptedNs : Nat
  preAt : Nat
  energyNJ : Nat
  anchor : Option Int
  clamped : Bool
  flags : BitVec 16
  redOrder : Bool
  mixed : Bool
  counts : Counts
  activeId : Nat
  finBanks : NMap Nat
  cup : NMap Nat
  live : List (Nat × Nat × Nat)
  status : Status
  failed : Bool
  slot : Nat
  serve : NMap Nat
  check : Bool
  spillBytes : Nat
  trigger : Status
  heldAt : Nat
  startCyc : Nat
  stepRows : List (Nat × Nat)
  journal : List (Nat × Nat × Bool)
  group : Nat
  noTiles : Bool
  remoteAt : Nat
deriving DecidableEq, Repr

/-- What a pre-emption saved of a victim (R153): its threads and the spilled hold sectors (die x 16 + logical engine, offset, bytes, sidecar), how
many sectors the spill moved,
and the transfers that were paused. -/
structure Spill where
  ctx : Nat
  seq : Nat
  threads : NMap Thread
  sectors : List (Nat × Nat × List Byte × Side)
  count : Nat
  forCtx : Nat
  forSeq : Nat
deriving DecidableEq, Repr

/-- Contexts, commands, spilled victims, and the hold on command starts by set-all operations (R339): `held` berths
(255 for every die), and for each context why its oldest unstarted entry waits, with the time since when (Table 18.10). -/
structure LockSt where
  ctxs : NMap Context
  cmds : List Cmd
  spills : List Spill
  held : List Nat
  holdMulti : Bool
  takes : Bool
  resvDies : NMap (Nat × Nat)
  cupFloor : Option Nat
  blockAt : NMap (Nat × Nat)
deriving DecidableEq, Repr

/-! ## Berths, cargo, convoys (chapter 10) -/

/-- Berth states (R242). -/
inductive BerthState where
  | free | active | resetting | destroying
deriving DecidableEq, Repr

/-- A peer region (R292) or host region (R319). -/
structure Region where
  host : Bool
  base : Nat
  limit : Nat
  write : Bool
  dest : Nat
  target : Nat
  tee : Bool
deriving DecidableEq, Repr

/-- A moorings pool (R268): every mooring, the stack of free ones, the dies over which they are spread and the next in turn. -/
structure Pool where
  all : List Nat
  free : List Nat
  home : Nat
  dies : List Nat
  rot : Nat
deriving DecidableEq, Repr

/-- A fault record (Table 4.7) in a berth's fault queue. `live` while it has had no action. -/
structure FaultRec where
  id : Nat
  time : Nat
  pc : Word
  va : Word
  cause : Nat
  status : Status
  ctx : Nat
  seq : Nat
  tid : Nat
  uid : Nat
  tag : BitVec 32
  sync : Bool
deriving DecidableEq, Repr

/-- An account record (Table 10.6). -/
structure Account where
  tCreated : Nat
  completed : Nat
  failed : Nat
  qwaitNs : Nat
  preempts : Nat
  preemptedNs : Nat
  spillWaitNs : Nat
  energyUJ : Nat
  convoyRows : Nat
  cargoDelayNs : Nat
  cargoDelayEvents : Nat
  moorEmpty : Nat
  dieNs : Nat
  snapshotLost : Nat
deriving DecidableEq, Repr

/-- A berth (Table 10.1). `owned` lists (die, time at which it was given). -/
structure Berth where
  state : BerthState
  kind : Nat
  trusted : Bool
  opEntry : Bool
  prioMax : Nat
  quota : Nat
  dies : List Nat
  ownedAt : NMap Nat
  rowCap : Nat
  growPolicy : Nat
  spill : List Nat
  faultqEntries : Nat
  handlerEntry : Option Word
  faultqVa : Nat
  faultqSize : Nat
  faultq : List FaultRec
  handlerTid : Option Nat
  pasid : Option Nat
  regions : NMap Region
  pool : Option Pool
  saveList : List (Nat × Nat × Nat)
  loadList : List (Nat × Nat × Nat)
  account : Account
  rotation : Nat
  slots : Vector (Option Nat) 64
  cargoMapped : Bool
  windows : List Nat
  locked : Bool
  running : Bool
  mapPages : NMap (Nat × Nat × Bool × Bool)
  moorLeak : List Nat
deriving DecidableEq, Repr

/-- Cargo states of CARGO_QUERY. -/
inductive CargoState where
  | none | loading | sealed
deriving DecidableEq, Repr

/-- A cargo page's repair source (R342). -/
structure Source where
  peer : Bool
  port : Nat
  dev : Nat
  addr : Nat
deriving DecidableEq, Repr

/-- The convoy program's registration (R254). -/
structure ConvoyReg where
  entry : Word
  imageVa : Nat
  imagePages : Nat
  tpm : Nat
  scratch : Nat
  ctx : Nat
  hash : BitVec 384
deriving DecidableEq, Repr

/-- A passage in the convoy roll (R256 to R266). -/
structure Passage where
  idx : Nat
  ctx : Nat
  seq : Nat
  berth : Nat
  prio : Nat
  inPa : Nat
  outPa : Nat
  inLen : Nat
  maxNew : Nat
  pos : Nat
  made : Nat
  held : Nat
  joined : Bool
  ended : Bool
  failedSteps : Nat
  asideAt : Option Nat
  order : Nat
  status : Status
deriving DecidableEq, Repr

/-- Cargo, convoy roll and berths. `resv` is the moorings left of the running step's reservation per berth (R269);
`stepNo` counts steps that formed rows; `rr` is the round-robin turn among berths (R262), `tables` the table
blocks in use by berth x 2 + bank and `mapStale` the berths whose old bank is not up to date (R337), `seals` what the seal table
guards by berth, host page and nonce (R404). -/
structure BerthSt where
  berths : NMap Berth
  cargoState : CargoState
  cargoPages : List Nat
  cargoVa : Nat
  cargoHash : BitVec 384
  pageHashes : NMap (BitVec 384)
  sources : NMap Source
  convoy : Option ConvoyReg
  roll : List Passage
  resv : NMap Nat
  stepNo : Nat
  nextPsg : Nat
  rr : Nat
  opAccount : Account
  opEnergyNJ : Nat
  moorLeak : Nat
  seals : List (Nat × Nat × Nat × List Byte)
  nonces : NMap Nat
  tables : NMap (List Nat)
  mapStale : List Nat
  relading : NMap Nat
  tlb : NMap Word
  refused : NMap Nat
deriving DecidableEq, Repr

/-! ## Links (chapters 9 and 11) -/

/-- One side of a cut (R225 to R230). CUT_STAT and CUT_CTL themselves are registers. Credits are by virtual channel, ordinary
shares 0 to 3 and detour shares 4 to 7 (R237). `nakReq` is a replay that the peer has asked for, `peerSeq` the peer's
last-forwarded sequence of the current retrain. -/
structure CutPort where
  txSeq : BitVec 32
  rxSeq : BitVec 32
  lastFwd : BitVec 32
  ackedSeq : BitVec 32
  nakSent : Bool
  replay : List (BitVec 32 × List CutPkt)
  queue : List CutPkt
  credits : Vector Nat 8
  crcTimes : List Nat
  training : Option CutTrainIn
  trained : Bool
  isReset : Bool
  activeOff : BitVec 9
  nakReq : Option (BitVec 32)
  peerSeq : Option (BitVec 32)
deriving DecidableEq, Repr

/-- Cuts, and the committed epochs that await G0's broadcast by router (R236). -/
structure CutSt where
  ports : NMap CutPort
  pendingEpoch : NMap Bool
deriving DecidableEq, Repr

/-- One Erhar port (R276 to R281). Credits are by virtual channel and hop class: 0 to 3 for HC 0, 4 to 7 for HC 1 (R288). -/
structure ErhPort where
  txSeq : BitVec 32
  rxSeq : BitVec 32
  lastFwd : BitVec 32
  nakSent : Bool
  replay : List (BitVec 32 × List ErhPkt)
  queue : List ErhPkt
  credits : Vector Nat 8
  crcTimes : List Nat
  training : Option ErhTrainIn
  global : Bool
  peerValid : Bool
  isReset : Bool
deriving DecidableEq, Repr

/-- An open remote operation (R294): kind 0 PUT, 1 GET, 2 ATOMIC; the thread that waits or the ticket it belongs to; the
gatehouse that it left by. -/
structure ErhOpen where
  txn : Nat
  kind : Nat
  uid : Nat
  tid : Nat
  ticket : Option Nat
  ctx : Nat
  seq : Nat
  dst : BitVec 18
  addr : Nat
  access : Access
  waiting : Bool
  since : Nat
  gate : Nat
deriving DecidableEq, Repr

/-- A berth's entry of the span table (R290). -/
structure Span where
  id : Nat
  lo : Nat
  hi : Nat
deriving DecidableEq, Repr

/-- A collective group entry (Table 11.8) with its last generation status and the root's drain flags. -/
structure Group where
  flags : BitVec 16
  berth : Nat
  engines : BitVec 8
  rank : Nat
  size : Nat
  parent : Nat
  nchild : Nat
  child : List Nat
  arrive : BitVec 16
  release : BitVec 16
  localCnt : Nat
  desc : Nat
  gen : Nat
  agen : Nat
  lastCount : Nat
  lastInfo : Word
  lastStatus : Status
  drainFlags : BitVec 16
deriving DecidableEq, Repr

/-- A generation in progress (R299): descriptor, sums by element, the chunks heard of each child and passed on, the latest arrival
and the next latest (R304), and the result's chunks with the drain's flags. -/
structure CollRun where
  gen : Nat
  desc : List Byte
  sums : NMap (BitVec 128)
  heard : List (Nat × Nat)
  sent : List Nat
  latest : Nat
  latestRank : Nat
  second : Nat
  result : NMap (List Byte)
  info : Word
  flags : BitVec 16
deriving DecidableEq, Repr

/-- Time synchronisation states (Table 11.9). -/
inductive SyncState where
  | free | locking | locked | holdover
deriving DecidableEq, Repr

/-- Erhar scale-out (chapter 11). `got` holds the bytes that GETs have brought for accesses in progress, by thread and ticket
(ErhOps.lean, `gotUnit`) and global address; `early` are collective chunks of generations not begun here (R299). -/
structure ErhSt where
  ports : NMap ErhPort
  opens : List ErhOpen
  nextTxn : Nat
  spans : NMap Span
  groups : NMap Group
  runs : NMap CollRun
  got : NMap Byte
  early : List ErhPkt
  oldHeldAt : Nat
  role : Nat
  upstream : Nat
  ppsEn : Bool
  stepAllowed : Bool
  sync : SyncState
  offset : Int
  inBound : Nat
  missed : Nat
  pendingT : Bool
  ppsLast : Option Nat
  ppsIgnored : Nat
deriving DecidableEq, Repr

/-! ## CXL (chapter 12) -/

/-- An HDM decoder (R314). -/
structure Decoder where
  base : Nat
  size : Nat
  committed : Bool
  error : Bool
  uncommitting : Bool
deriving DecidableEq, Repr

/-- A host-cache line of 64 bytes (R320): bytes present, whether owned, and pinned for a watch. -/
structure HcLine where
  bytes : NMap CByte
  own : Bool
  pinned : Bool
  poison : Bool
deriving DecidableEq, Repr

/-- An address-translation-cache entry (R319). -/
structure AtcEnt where
  pasid : Nat
  page : Nat
  hpa : Nat
  write : Bool
deriving DecidableEq, Repr

/-- One IDE stream (R322): whether keyed, its key set, and whether it is in skid mode. -/
structure IdeStream where
  keyed : Bool
  keySet : Nat
  running : Bool
deriving DecidableEq, Repr

/-- One CXL port. `rsp` is its last completion toward the host: the data, whether it is poisoned, and whether it is a Completer
Abort or a configuration retry. -/
structure CxlPort where
  up : Bool
  lost : Bool
  width : Nat
  rate : Nat
  flit256 : Bool
  decoders : NMap Decoder
  hcache : NMap HcLine
  hreqs : List (Nat × Bool)
  atc : List AtcEnt
  atsReqs : List (Nat × Nat)
  ide : NMap IdeStream
  viral : Bool
  rsp : List Byte
  rspPoison : Bool
  rspAbort : Bool
deriving DecidableEq, Repr

/-- A CXL event record: its handle, the log's kind byte, the time and the body (R327). -/
structure CxlRec where
  handle : Nat
  time : Nat
  dram : Bool
  body : List Byte
deriving DecidableEq, Repr

/-- CXL host ports and the device's event logs. -/
structure CxlSt where
  ports : Vector CxlPort 2
  logs : Vector (List CxlRec) 4
  overflow : Vector Nat 4
  nextHandle : Nat
  policy : List Nat
  timestamp : Word
  msix : List Nat
  reply : List Byte
  replyStatus : Nat
deriving DecidableEq, Repr

/-! ## Mailboxes (chapter 13) -/

/-- A request that firmware has accepted (R331): opcode, SEQ, NOTIFY and payload. -/
structure MbReq where
  opcode : BitVec 16
  seq : BitVec 32
  notify : Word
  payload : List Byte
deriving DecidableEq, Repr

/-- A mailbox page (Table 13.1): its bytes, the request in progress, whether its map change is committed (R337), and the pages
that it frees then. -/
structure MbPage where
  bytes : NMap Byte
  req : Option MbReq
  stage : Bool
  work : List Nat
deriving DecidableEq, Repr

/-- A background operation (R334). `aux` is its working data; `ended` once its result stands. -/
structure Bg where
  id : Nat
  mb : Mbox
  req : MbReq
  ended : Bool
  status : Status
  progress : Nat
  tDone : Nat
  rsp : List Byte
  endOrder : Nat
  aux : List Nat
  since : Nat
deriving DecidableEq, Repr

/-- Kiltor mailboxes: pages by berth, background operations, and whether a firmware switch runs (R345) or the operator's page
waits for the end of a bring-up that DEVICE_RESET started. -/
structure MbSt where
  pages : NMap MbPage
  bgs : List Bg
  nextBg : Nat
  ends : Nat
  switching : Bool
  resetting : Bool
deriving DecidableEq, Repr

/-! ## Errors, counters, trace (chapters 14 and 18) -/

/-- A failure signature (Table 14.3), by field. -/
structure Sig where
  sigSeq : Nat
  time : Nat
  status : Status
  mech : Nat
  action : Nat
  severity : Nat
  unitKind : Nat
  site : Nat
  ldie : Nat
  unitIndex : Nat
  logical : Nat
  tally : Nat
  dramLoc : Nat
  ctx : Nat
  berth : Nat
  cmdSeq : Nat
  tileTag : BitVec 32
  cmdHash : BitVec 128
  flags : BitVec 16
  resExp : Nat
  resObs : Nat
  resIndex : Nat
  resAxis : Nat
  mOff : BitVec 32
  nOff : BitVec 32
  kOff : BitVec 32
  ratio : Nat
  grade : Nat
  temp : Int
  droop1ms : Nat
  droop1s : Nat
  droopHist : Word
  times : List Nat
  hops : List (BitVec 16)
  addr : Nat
  fwVersion : Word
deriving DecidableEq, Repr

/-- An event-log entry (Table 18.3). -/
structure Evt where
  seq : Nat
  kind : Nat
  site : Nat
  unit : Nat
  time : Nat
  addr : Word
  value : Word
deriving DecidableEq, Repr

/-- A trace record (Table 18.8), by field. -/
structure TraceRec where
  tEnd : Nat
  cycEnd : Nat
  tSpan : Nat
  cycSpan : Nat
  typ : Nat
  ldie : Nat
  unit : Nat
  region : Nat
  ctx : Nat
  berth : Nat
  seq : Nat
  tag : BitVec 32
  status : Status
  data : List (BitVec 32)
deriving DecidableEq, Repr

/-- A die's trace (R431). -/
structure Trace where
  enabled : Bool
  berth : Nat
  bufVa : Nat
  bytes : Nat
  filter : BitVec 32
  recs : List TraceRec
  lost : Nat
  dropped : Nat
  written : Nat
deriving DecidableEq, Repr

/-- A self-test chunk in progress on a die (R367): the slot, and the chunks its test has done. -/
structure SelfTest where
  core : Bool
  slot : Nat
  chunk : Nat
deriving DecidableEq, Repr

/-- Errors, tallies, logs, counters. Tally keys: kind, then unit numbers (Table 14.2). `tagLog` has the tag-mixing faults:
die, tile coordinates and the two tags (R83). `retired` is the retirement list
(R412), kept over bring-ups: kind, site, index. `retiring` is unit retirements whose copy runs (R364).
`testAge` has each slot's last completed self-test, `testDone` the chunks done of an unfinished one (R367). -/
structure RelSt where
  tallies : List ((Nat × Nat × Nat × Nat) × List Nat)
  lastDet : List ((Nat × Nat × Nat × Nat × Nat) × Nat)
  tagLog : List (Nat × List Nat × Nat × Nat)
  lanePos : List (Nat × Nat × Nat × Nat × Nat)
  sigs : List Sig
  sigNext : Nat
  evts : List Evt
  evtNext : Nat
  evtLast : List ((Nat × Nat × Nat) × Nat)
  traces : NMap Trace
  retired : List (Nat × Nat × Nat)
  retiring : List (Nat × Bool × Nat × Nat)
  selftest : Bool
  testing : NMap SelfTest
  testAge : NMap Nat
  testDone : NMap Nat
  snapshots : Nat
deriving DecidableEq, Repr

/-! ## Clocks, power, heat, boot (chapters 15, 17, 19) -/

/-- Boot states (Table 17.1). -/
inductive Boot where
  | rom | waitTray | cuts | dieTest | dram | map | links | service | stopped | recovery | locked | failed
deriving DecidableEq, Repr

/-- States of a site (R15). -/
inductive SiteState where
  | inService (die : Nat) | standby | failed
deriving DecidableEq, Repr

/-- An in-service die repair (R416): the die, its old and new sites, its phase 1 A, 2 B, the passes done, and its mailbox
operation if a command started it. -/
structure Repair where
  die : Nat
  oldSite : Nat
  newSite : Nat
  phase : Nat
  passes : Nat
  dirty : List Nat
  bg : Option Nat
deriving DecidableEq, Repr

/-- Panel: site states, fused standby columns and grades (Table 16.1 tail), the repair in progress and those waiting. -/
structure PanelSt where
  sites : NMap SiteState
  fusedStandby : Vector Nat 8
  grades : NMap Nat
  fencedGh : List Nat
  repair : Option Repair
  repairQ : List Nat
deriving DecidableEq, Repr

/-- Pins, forcing, heat, cap control, energy and the boot state. Times are time-base values in ns. `falling` are the dies whose
thermal cap falls (R383); `ramp` has for a die that returns from forcing the time of its next step and its ceiling (R379),
`droopCeil` the ceiling of a region (die x 2 + east) in a droop or returning from one (R376); `history` the module power of the
last steps, newest first (R377). -/
structure PowerSt where
  boot : Boot
  standbyGood : Bool
  flow : Bool
  vr : Bool
  pwrGood : Bool
  modId : BitVec 6
  dynAddr : Option Nat
  thermTrip : Bool
  alarmN : Bool
  riseHeld : Bool
  flowFellAt : Option Nat
  stopping : Bool
  falling : NMap Unit
  ramp : NMap (Nat × Nat)
  temp : NMap Int
  thermCap : NMap Nat
  capW : Nat
  windowMs : Nat
  history : List Nat
  rPrev : Nat
  lowerUntil : NMap Nat
  vrTimes : List Nat
  lastCommit : NMap Nat
  droopSince : NMap Nat
  droopCeil : NMap Nat
  droopCnt : NMap (List Nat)
  railSet : NMap Nat
  restarts : List Nat
  restartDue : Bool
  romRestarts : Nat
  coolSince : Option Nat
  ratioMax : NMap Nat
deriving DecidableEq, Repr

/-- Time base (R387, R388): the count; a slew announced, in ns over 100,000 edges, with the edges of it past; the ns that a
backward step still holds; and the cycle counters of R390 by die. -/
structure ClockSt where
  now : Nat
  slew : Int
  slewEdge : Nat
  hold : Nat
  arithW : NMap Nat
  arithE : NMap Nat
  fabW : NMap Nat
  fabE : NMap Nat
  edge : NMap Nat
deriving DecidableEq, Repr

/-! ## Trust (chapter 16) -/

/-- The security fuses (Table 16.1). -/
structure Fuses where
  rsaHash : Vector (BitVec 384) 4
  slhHash : Vector (BitVec 384) 4
  revokeRsa : BitVec 4
  revokeSlh : BitVec 4
  svn : Nat
  alarmPolicy : BitVec 2
  debugPolicy : BitVec 2
  berthReduce : BitVec 8
  kill : Bool
  idSeed : BitVec 256
  dsn : Word
deriving DecidableEq, Repr

/-- An SPDM connection of one transport: the requests seen, the algorithms agreed, and its sessions (id, established). -/
structure Spdm where
  version : Bool
  caps : Bool
  algs : Bool
  dhe : Bool
  sessions : List (Nat × Bool × Nat)
  nextSession : Nat
deriving DecidableEq, Repr

/-- Trust, fuses and alarms. `keys` maps a key slot to the number of the key it holds; `genNext` numbers new keys;
`images` are the whole bytes of the active, previous and staged firmware images; `fwState` is FW_QUERY's STATE. -/
structure SecSt where
  fuses : Fuses
  published : Word
  alarmLock : Bool
  alarmCause : Nat
  alarmLevel : Nat
  nonce : Option (BitVec 256)
  debugUntil : Option Nat
  debugScope : BitVec 32
  keys : NMap Nat
  genNext : Nat
  active : List Byte
  previous : List Byte
  staged : NMap Byte
  stagedTotal : Nat
  fwState : Nat
  measGen : Nat
  identity : Bool
  spdm : Vector Spdm 3
  response : List Byte
  spdmError : Bool
  switchSlot : Nat
  switchBg : Nat
deriving DecidableEq, Repr

/-! ## The whole machine -/

/-- The state: the waiting commands, the parts of the device by chapter, its registers by canonical address (Ops.lean,
`canon`), and the counter that free values are drawn with (the model's own field, log entry 6). -/
structure State where
  pending : List Instr
  clk : ClockSt
  panel : PanelSt
  regs : NMap Word
  mem : MemSt
  basin : BasinSt
  eng : EngineSt
  thr : ThreadSt
  lk : LockSt
  bth : BerthSt
  cut : CutSt
  erh : ErhSt
  cxl : CxlSt
  mbx : MbSt
  rel : RelSt
  pwr : PowerSt
  sec : SecSt
  fresh : Nat
deriving DecidableEq, Repr

/-! ## Reset -/

/-- An account with nothing counted. -/
def Account.zero : Account :=
  { tCreated := 0, completed := 0, failed := 0, qwaitNs := 0, preempts := 0, preemptedNs := 0, spillWaitNs := 0,
    energyUJ := 0, convoyRows := 0, cargoDelayNs := 0, cargoDelayEvents := 0, moorEmpty := 0, dieNs := 0,
    snapshotLost := 0 }

/-- A CXL port with no link, no decoder and an empty host cache. -/
def CxlPort.init : CxlPort :=
  { up := false, lost := false, width := 0, rate := 0, flit256 := false, decoders := [], hcache := [], hreqs := [],
    atc := [], atsReqs := [], ide := [], viral := false, rsp := [], rspPoison := false, rspAbort := false }

/-- A cut port as a port reset leaves it (R227): sequence numbers at 0, no credits, nothing buffered. -/
def CutPort.init : CutPort :=
  { txSeq := 0, rxSeq := 0, lastFwd := 0, ackedSeq := 0, nakSent := false, replay := [], queue := [],
    credits := Vector.replicate 8 0, crcTimes := [], training := none, trained := false,
    isReset := true, activeOff := 0, nakReq := none, peerSeq := none }

/-- An Erhar port as a port reset leaves it (R278). -/
def ErhPort.init : ErhPort :=
  { txSeq := 0, rxSeq := 0, lastFwd := 0, nakSent := false, replay := [], queue := [],
    credits := Vector.replicate 8 0, crcTimes := [], training := none, global := false, peerValid := false,
    isReset := true }

/-- An SPDM transport with no connection. -/
def Spdm.init : Spdm := { version := false, caps := false, algs := false, dhe := false, sessions := [], nextSession := 1 }

/-- Fuses as manufactured with nothing blown (log entry 4). -/
def Fuses.blank : Fuses :=
  { rsaHash := Vector.replicate 4 0, slhHash := Vector.replicate 4 0, revokeRsa := 0, revokeSlh := 0, svn := 0,
    alarmPolicy := 0, debugPolicy := 0, berthReduce := 0, kill := false, idSeed := 0, dsn := 0 }

/-- The machine right after device reset, before the boot ROM's first step (Table 17.1): registers at their reset values
(an unlisted register reads `regReset`), every queue and cache empty, DRAM with nothing listed, pins at the levels the
module pulls them to (Table 19.3), and the values of log entry 4 where the spec gives none. -/
def State.reset : State :=
  { pending := []
    clk := { now := 0, slew := 0, slewEdge := 0, hold := 0, arithW := [], arithE := [], fabW := [], fabE := [], edge := [] }
    panel := { sites := [], fusedStandby := Vector.replicate 8 0, grades := [], fencedGh := [], repair := none,
               repairQ := [] }
    regs := []
    mem := { dram := [], sect := [], spentSec := [], pot := [], zeroedAtBringUp := false, heat := [], blocked := [], repairs := [],
             refreshed := [], stopReads := [], stopWrites := [], margining := [] }
    basin := { l1 := [], l1Poison := [], icache := [], far := [], farPoison := [], farLines := [],
               home := [], homePoison := [], homeLines := [], dir := [], net := [], pend := [], starve := [],
               predictor := [], nearHist := [], updq := [], quotaNew := [], maint := [], winPending := [], resv := [],
               stamp := 0 }
    eng := { hold := [], side := [], holdTag := [], tileq := [], reruns := [], copies := [], mism := [], eng := [], arithStopped := [],
             workAt := [], xfers := [], fin := [], cupFirst := [], finPending := [], spentPending := [] }
    thr := { threads := [], tickets := [], nextUid := 1 }
    lk := { ctxs := [], cmds := [], spills := [], held := [], holdMulti := false, takes := false, resvDies := [],
            cupFloor := none, blockAt := [] }
    bth := { berths := [], cargoState := .none, cargoPages := [], cargoVa := 0, cargoHash := 0, pageHashes := [],
             sources := [], convoy := none, roll := [], resv := [], stepNo := 0, nextPsg := 0, rr := 0,
             opAccount := Account.zero, opEnergyNJ := 0, moorLeak := 0, seals := [], nonces := [], tables := [], mapStale := [],
             relading := [], tlb := [], refused := [] }
    cut := { ports := [], pendingEpoch := [] }
    erh := { ports := [], opens := [], nextTxn := 0, spans := [], groups := [], runs := [], got := [], early := [],
             oldHeldAt := 0, role := 0, upstream := 0, ppsEn := false, stepAllowed := false, sync := .free, offset := 0,
             inBound := 0, missed := 0, pendingT := false, ppsLast := none, ppsIgnored := 0 }
    cxl := { ports := Vector.replicate 2 CxlPort.init, logs := Vector.replicate 4 [], overflow := Vector.replicate 4 0,
             nextHandle := 1, policy := [0, 0, 0, 0], timestamp := 0, msix := [], reply := [], replyStatus := 0 }
    mbx := { pages := [], bgs := [], nextBg := 1, ends := 0, switching := false, resetting := false }
    rel := { tallies := [], lastDet := [], tagLog := [], lanePos := [], sigs := [], sigNext := 0, evts := [], evtNext := 0,
             evtLast := [], traces := [], retired := [], retiring := [], selftest := true, testing := [], testAge := [], testDone := [],
             snapshots := 0 }
    pwr := { boot := .rom, standbyGood := true, flow := false, vr := false, pwrGood := false, modId := 63,
             dynAddr := none, thermTrip := false, alarmN := false, riseHeld := false, flowFellAt := none,
             stopping := false, falling := [], ramp := [], temp := [], thermCap := [], capW := 18000,
             windowMs := 2000, history := [], rPrev := 12, lowerUntil := [], vrTimes := [], lastCommit := [],
             droopSince := [], droopCeil := [], droopCnt := [], railSet := [], restarts := [], restartDue := false, romRestarts := 0, coolSince := none,
             ratioMax := [] }
    sec := { fuses := Fuses.blank, published := 0, alarmLock := false, alarmCause := 0, alarmLevel := 0,
             nonce := none, debugUntil := none, debugScope := 0, keys := [], genNext := 1, active := [], previous := [],
             staged := [], stagedTotal := 0, fwState := 0, measGen := 0, identity := false,
             spdm := Vector.replicate 3 Spdm.init, response := [], spdmError := false, switchSlot := 0, switchBg := 0 }
    fresh := 0 }

end Sys2Proof.Machine
end

