-- ==== Sys2Proof/Machine/Reg.lean ====
section
/-! DEFINITION. Addresses of the register map (R24, R25), reset values of the registers, and reads and writes of stored
registers. Registers are kept by canonical address: the die base of a logical die, the Gg base of a gatehouse, and the site
aperture only of a site that runs no logical die. -/

namespace Sys2Proof.Machine

/-- Die base of logical die `d` (R25). -/
def dieBase (d : Nat) : Nat := 0x74000000000 + d * 0x100000000

/-- Gg base (R25). -/
def ghBase (g : Nat) : Nat := 0x70000000000 + g * 0x1000000000

/-- Site aperture of site `t` (R25). -/
def siteBase (t : Nat) : Nat := 0x79000000000 + t * 0x100000000

/-- DRAM base of logical die `d` (R25). -/
def dramBase (d : Nat) : Nat := d * 0x1000000000

/-- Bytes of one die's DRAM: 48 GiB (Table 1.6). -/
def dramSize : Nat := 0xC00000000

/-- Router base (R25): a die 0 to 71, gatehouse 72 to 75, or the site aperture of site `r - 80`. -/
def routerBase (r : Nat) : Nat := if r < 72 then dieBase r else if r < 76 then ghBase (r - 72) else siteBase (r - 80)

/-- Reset value of the register at an offset of die space (the Reset columns of the register tables). -/
def regResetDie (off : Nat) : Word :=
  if off = 0x0100 then 0x0000FFFFFFFFFFFF
  else if off = 0x0108 ∨ off = 0x0110 then 0xFFFFFFFFFFFFFFFF
  else if off = 0x0300 then 0x30C30C30C30C
  else if off = 0x0308 then 0x30CA28000000
  else if 0x3100 ≤ off ∧ off < 0x3300 then 0x40004
  else if 0x4000 ≤ off ∧ off < 0x4400 ∧ (off % 0x40 = 0x10 ∨ off % 0x40 = 0x30) then 0x10000000FF
  else 0

/-- Reset value of the register at a canonical address. -/
def regReset (a : Nat) : Word :=
  if a = 0x70000020008 then 2000
  else if 0x70000001000 ≤ a ∧ a < 0x70000001040 then 0xF000000FFFFFFFFF
  else if 0x74000000000 ≤ a ∧ a < 0x78800000000 then regResetDie (a % 0x100000000)
  else if 0x79000000000 ≤ a ∧ a < 0x7E000000000 then regResetDie (a % 0x100000000)
  else 0

/-- A stored register. -/
def State.reg (s : State) (a : Nat) : Word := NMap.getD s.regs a (regReset a)

/-- Stores a register. -/
def State.setReg (s : State) (a : Nat) (w : Word) : State := { s with regs := NMap.put s.regs a w }

/-- A field of a stored register. -/
def State.rfld (s : State) (a hi lo : Nat) : Nat := Word.fld (s.reg a) hi lo

/-- Sets a field of a stored register. -/
def State.setRfld (s : State) (a hi lo v : Nat) : State := s.setReg a (Word.setFld (s.reg a) hi lo v)

/-- A bit of a stored register. -/
def State.rbit (s : State) (a i : Nat) : Bool := Word.bit (s.reg a) i

/-- Sets or clears a bit of a stored register. -/
def State.setRbit (s : State) (a i : Nat) (b : Bool) : State := s.setRfld a i i (if b then 1 else 0)

/-! ## One modifier per part of the state -/

/-- Changes the time base and cycle counters. -/
def State.modClk (s : State) (f : ClockSt → ClockSt) : State := { s with clk := f s.clk }
/-- Changes the panel. -/
def State.modPanel (s : State) (f : PanelSt → PanelSt) : State := { s with panel := f s.panel }
/-- Changes the bonded DRAM. -/
def State.modMem (s : State) (f : MemSt → MemSt) : State := { s with mem := f s.mem }
/-- Changes the basin and the L1s. -/
def State.modBasin (s : State) (f : BasinSt → BasinSt) : State := { s with basin := f s.basin }
/-- Changes engines, holds and barges. -/
def State.modEng (s : State) (f : EngineSt → EngineSt) : State := { s with eng := f s.eng }
/-- Changes threads and tickets. -/
def State.modThr (s : State) (f : ThreadSt → ThreadSt) : State := { s with thr := f s.thr }
/-- Changes contexts and commands. -/
def State.modLk (s : State) (f : LockSt → LockSt) : State := { s with lk := f s.lk }
/-- Changes berths, cargo and convoys. -/
def State.modBth (s : State) (f : BerthSt → BerthSt) : State := { s with bth := f s.bth }
/-- Changes the cuts. -/
def State.modCut (s : State) (f : CutSt → CutSt) : State := { s with cut := f s.cut }
/-- Changes the Erhar link. -/
def State.modErh (s : State) (f : ErhSt → ErhSt) : State := { s with erh := f s.erh }
/-- Changes the CXL ports. -/
def State.modCxl (s : State) (f : CxlSt → CxlSt) : State := { s with cxl := f s.cxl }
/-- Changes the mailboxes. -/
def State.modMbx (s : State) (f : MbSt → MbSt) : State := { s with mbx := f s.mbx }
/-- Changes errors, counters and trace. -/
def State.modRel (s : State) (f : RelSt → RelSt) : State := { s with rel := f s.rel }
/-- Changes clocks, power, heat and boot. -/
def State.modPwr (s : State) (f : PowerSt → PowerSt) : State := { s with pwr := f s.pwr }
/-- Changes trust, fuses and alarms. -/
def State.modSec (s : State) (f : SecSt → SecSt) : State := { s with sec := f s.sec }

/-- Advances the counter that free values are drawn with (log entry 6). -/
def State.drawn (s : State) (n : Nat) : State := { s with fresh := s.fresh + n }

/-! ## Which units exist (R12 to R15, R20) -/

/-- The site that runs logical die `d`, if it is present (R13, R14). -/
def State.siteOf (s : State) (d : Nat) : Option Nat :=
  (s.panel.sites.find? fun e => e.2 == SiteState.inService d).map (·.1)

/-- The state of a site (R15); a site not yet mapped counts as failed. -/
def State.site (s : State) (t : Nat) : SiteState := NMap.getD s.panel.sites t .failed

/-- Whether logical die `d` is present (R14). -/
def State.present (s : State) (d : Nat) : Bool := d < 72 && (s.siteOf d).isSome

/-- The dies in service, rising. -/
def State.diesIn (s : State) : List Nat := (List.range 72).filter s.present

/-- Position within its row of the slot that runs logical engine `j` on die `d` (Table 1.3); 7 is none. -/
def State.engPos (s : State) (d j : Nat) : Nat := s.rfld (dieBase d + 0x100) (3 * j + 2) (3 * j)

/-- Position within its row of the slot that runs logical core `g` on die `d` (Table 1.4); 15 is none. -/
def State.corePos (s : State) (d g : Nat) : Nat :=
  s.rfld (dieBase d + 0x108 + (g / 16) * 8) (4 * (g % 16) + 3) (4 * (g % 16))

/-- The physical slot of logical engine `j` (R20). -/
def State.engSlot (s : State) (d j : Nat) : Option Nat :=
  if s.engPos d j < 5 then some (j / 4 * 5 + s.engPos d j) else none

/-- The physical slot of logical core `g` (R20). -/
def State.coreSlot (s : State) (d g : Nat) : Option Nat :=
  if s.corePos d g < 9 then some (g / 8 * 9 + s.corePos d g) else none

/-- The present logical engines of a die. -/
def State.engines (s : State) (d : Nat) : List Nat := (List.range 16).filter fun j => (s.engSlot d j).isSome

/-- The present logical cores of a die. -/
def State.cores (s : State) (d : Nat) : List Nat := (List.range 32).filter fun g => (s.coreSlot d g).isSome

/-- The module-wide key of the slot that runs logical engine `j` of die `d`: site x 20 + slot (log entry 5). -/
def State.slotKey (s : State) (d j : Nat) : Option Nat :=
  match s.siteOf d, s.engSlot d j with
  | some t, some k => some (t * 20 + k)
  | _, _ => none

/-- SITE of an event or signature for a die: its site, or 0 where it has none. -/
def State.siteNum (s : State) (d : Nat) : Nat := (s.siteOf d).getD 0

/-- The standby site of a die's row, if it has one (R13, R15). -/
def State.rowStandby (s : State) (d : Nat) : Option Nat :=
  ((List.range 10).map fun c => d / 9 * 10 + c).find? fun t => s.site t == .standby

/-- Starts the first waiting die repair that has a standby, if none runs (R416): phase A begins. -/
def State.repairNext (s : State) : State :=
  if s.panel.repair.isSome then s
  else match s.panel.repairQ with
    | [] => s
    | d :: rest =>
      match s.siteOf d, s.rowStandby d with
      | some o, some n => s.modPanel fun p => { p with
          repair := some { die := d, oldSite := o, newSite := n, phase := 1, passes := 0, dirty := [], bg := none }, repairQ := rest }
      | _, _ => s.modPanel fun p => { p with repairQ := rest }

/-- Kiltor firmware requests a repair of a die whose row has a standby; one runs at a time (R364, R416). -/
def State.askRepair (s : State) (d : Nat) : State :=
  if (s.rowStandby d).isSome && !s.panel.repairQ.contains d && s.panel.repair.all (·.die != d) then
    (s.modPanel fun p => { p with repairQ := p.repairQ ++ [d] }).repairNext
  else s

/-- The canonical address of a register address: the aperture of a site in service names the same registers as its die's
space, the debug hold window excepted (R25, R86). -/
def State.canon (s : State) (a : Nat) : Nat :=
  if 0x79000000000 ≤ a ∧ a < 0x7E000000000 then
    let t := (a - 0x79000000000) / 0x100000000
    let off := a % 0x100000000
    if off ≥ 0x80000000 then a
    else match s.site t with
      | .inService d => dieBase d + off
      | _ => a
  else a

end Sys2Proof.Machine
end

