-- ==== Sys2Proof/Machine/Log.lean ====
section
/-! DEFINITION. Counters (R424 to R429), the event log (R425, R426), CXL event records (R327) and failure signatures
(R362, R368, R452), with the tallies they feed. -/

namespace Sys2Proof.Machine

/-! ## Always-on and programmable counters -/

/-- Adds to always-on counter `i` of die `d`, saturating (R424). -/
def State.cnt (s : State) (d i n : Nat) : State :=
  let a := dieBase d + 0x7800 + i * 8
  s.setReg a (BitVec.ofNat 64 (satAdd 64 (s.reg a).toNat n))

/-- Adds to always-on counter `i` of gatehouse `g`, saturating (R424). -/
def State.gcnt (s : State) (g i n : Nat) : State :=
  let a := ghBase g + 0x28000 + i * 8
  s.setReg a (BitVec.ofNat 64 (satAdd 64 (s.reg a).toNat n))

/-- Adds `n` to programmable counter `k` of die `d` if it counts `event` for `berth` (R427); `berth = none` is work of no
berth, which only SCOPE 0 counts. -/
def State.pmcOne (d event n : Nat) (berth : Option Nat) (s : State) (k : Nat) : State :=
  let cfg := s.reg (dieBase d + 0x808 + k * 0x10)
  let a := dieBase d + 0x800 + k * 0x10
  if Word.fld cfg 15 0 = event ∧ event ≠ 0 ∧ (Word.fld cfg 25 24 = 0 ∨ berth = some (Word.fld cfg 23 16)) then
    s.setReg a (BitVec.ofNat 64 (satAdd 63 (Word.fld (s.reg a) 62 0) n))
  else s

/-- Adds `n` occurrences of a programmable-counter event on die `d` (Table 18.4). -/
def State.pmc (s : State) (d event n : Nat) (berth : Option Nat) : State :=
  (List.range 8).foldl (State.pmcOne d event n berth) s

/-- Resets the SCOPE 2 counters of a die that `berth` holds, at the start of one of its commands there (R428). -/
def State.pmcStart (s : State) (d berth : Nat) : State :=
  (List.range 8).foldl (fun s k =>
    let cfg := s.reg (dieBase d + 0x808 + k * 0x10)
    if Word.fld cfg 25 24 = 2 ∧ Word.fld cfg 23 16 = berth then s.setReg (dieBase d + 0x800 + k * 0x10) 0 else s) s

/-! ## Event log -/

/-- Logs an event of one KIND at one unit of one site (R425, R426): one entry per source per 100 ns, 4,096 entries kept. -/
def State.event (s : State) (kind site unit addr : Nat) (value : Word) : State :=
  let key := (kind, site, unit)
  match s.rel.evtLast.find? (·.1 == key) with
  | some (_, t) =>
    if s.clk.now < t + 100 then s.gcnt 0 12 1 else log key
  | none => log key
where
  /-- Writes the entry. -/
  log (key : Nat × Nat × Nat) : State :=
    let e : Evt := { seq := s.rel.evtNext + 1, kind := kind, site := site, unit := unit, time := s.clk.now,
                     addr := BitVec.ofNat 64 addr, value := value }
    s.modRel fun r => { r with
      evtNext := r.evtNext + 1
      evts := (r.evts ++ [e]).drop (r.evts.length + 1 - 4096)
      evtLast := (key, s.clk.now) :: r.evtLast.filter (·.1 != key) }

/-- A class S write or a COMMIT that was ignored (R7): the block's sticky CFG_IGNORED flag and the event. `kind` is 1 or 2. -/
def State.ignored (s : State) (kind flagAddr flagBit site addr : Nat) (value : Word) : State :=
  (s.setRbit flagAddr flagBit true).event kind site 0xFFFF addr value

/-! ## CXL event records -/

/-- A record in one of the four CXL logs of C0 (R327): 256 each, a full log drops the newest and counts it. A vector number
is noted under the host's interrupt policy. -/
def State.cxlEvent (s : State) (log : Nat) (dram : Bool) (body : List Byte) : State :=
  let l := log % 4
  let recs := s.cxl.logs.toList.getD l []
  if recs.length ≥ 256 then
    s.modCxl fun c => { c with overflow := c.overflow.setIfInBounds l (c.overflow.toList.getD l 0 + 1) }
  else
    s.modCxl fun c => { c with
      logs := c.logs.setIfInBounds l (recs ++ [{ handle := c.nextHandle, time := s.clk.now, dram := dram, body := body }])
      nextHandle := c.nextHandle + 1
      msix := if c.policy.getD l 0 = 1 then c.msix ++ [3] else c.msix }

/-! ## Signatures -/

/-- A signature that names nothing yet. -/
def Sig.blank : Sig :=
  { sigSeq := 0, time := 0, status := 0, mech := 0, action := 0, severity := 0, unitKind := 7, site := 80, ldie := 0xFF,
    unitIndex := 0, logical := 0xFF, tally := 0, dramLoc := 0, ctx := 0xFFFF, berth := 0, cmdSeq := 0, tileTag := 0,
    cmdHash := 0, flags := 0, resExp := 0, resObs := 0, resIndex := 0, resAxis := 0, mOff := 0, nOff := 0, kOff := 0,
    ratio := 0, grade := 0, temp := 0, droop1ms := 0, droop1s := 0, droopHist := 0, times := [], hops := [], addr := 0,
    fwVersion := 0 }

/-- The 256 bytes of a signature (Table 14.3). -/
def Sig.bytes (g : Sig) : List Byte :=
  bytesOf 8 g.sigSeq ++ bytesOf 8 g.time ++ bytesOf 2 g.status.toNat ++ bytesOf 1 g.mech ++ bytesOf 1 g.action ++
  bytesOf 1 g.severity ++ bytesOf 1 g.unitKind ++ bytesOf 1 g.site ++ bytesOf 1 g.ldie ++ bytesOf 2 g.unitIndex ++
  bytesOf 1 g.logical ++ bytesOf 1 g.tally ++ bytesOf 4 g.dramLoc ++ bytesOf 2 g.ctx ++ bytesOf 1 g.berth ++
  bytesOf 1 0 ++ bytesOf 8 g.cmdSeq ++ bytesOf 4 g.tileTag.toNat ++ bytesOf 16 g.cmdHash.toNat ++
  bytesOf 2 (ofSigned 16 g.temp) ++ bytesOf 2 (Config.volt g.sigSeq).toNat ++ bytesOf 1 g.ratio ++ bytesOf 1 g.grade ++
  bytesOf 2 g.droop1ms ++ bytesOf 2 g.resExp ++ bytesOf 2 g.resObs ++ bytesOf 2 g.flags.toNat ++ bytesOf 2 0 ++
  bytesOf 4 g.mOff.toNat ++ bytesOf 4 g.nOff.toNat ++ bytesOf 4 g.kOff.toNat ++ bytesOf 2 g.resIndex ++
  bytesOf 1 g.resAxis ++ bytesOf 1 0 ++ bytesOf 4 g.droop1s ++ bytesOf 8 g.droopHist.toNat ++ bytesOf 4 0 ++
  ((List.range 3).map fun i => bytesOf 8 (g.times.getD i 0)).flatten ++
  ((List.range 12).map fun i => bytesOf 2 (g.hops.getD i 0).toNat).flatten ++
  bytesOf 8 g.addr ++ bytesOf 8 g.fwVersion.toNat ++ bytesOf 80 0

/-- VERSION of the running firmware image: bytes 8 to 15 of its header (Table 16.3). -/
def State.fwVersion (s : State) : Word := BitVec.ofNat 64 (rdLE s.sec.active 8 8)

/-- Writes a signature (R368): the next SIG_SEQ, a ring of 4,096, and a record in the CXL log of its severity. -/
def State.sign (s : State) (g : Sig) : State :=
  let g := { g with sigSeq := s.rel.sigNext + 1, time := s.clk.now, fwVersion := s.fwVersion }
  let s := if s.rel.sigs.length ≥ 4096 then s.gcnt 0 11 1 else s
  let s := s.modRel fun r => { r with
    sigNext := r.sigNext + 1
    sigs := (r.sigs ++ [g]).drop (r.sigs.length + 1 - 4096) }
  s.cxlEvent g.severity (g.mech == 8 || g.mech == 9 || g.mech == 10) (g.bytes.take 80)

/-- A tallied unit (Table 14.2): kind and three numbers. Engine and core: site, slot. Die: site. Row: die x 64 + channel,
layer x 64 + bank, row. Bundle: router, port, bundle. Erhar port: port. Slice: site, slice. -/
abbrev UnitKey := Nat × Nat × Nat × Nat

/-- The times of a unit's last three counted detections, newest first. -/
def State.tallyTimes (s : State) (k : UnitKey) : List Nat :=
  ((s.rel.tallies.find? (·.1 == k)).map (·.2)).getD []

/-- 24 hours in ns (R362). -/
def dayNs : Nat := 86400000000000

/-- Counts a detection of a mechanism on a unit (R362): several of one mechanism within 1 ms count once. The Bool says that
it was the third within 24 hours. -/
def State.tally (s : State) (k : UnitKey) (mech : Nat) : State × Bool :=
  let dk := (k.1, k.2.1, k.2.2.1, k.2.2.2, mech)
  let recent := match s.rel.lastDet.find? (·.1 == dk) with
    | some (_, t) => decide (s.clk.now < t + 1000000)
    | none => false
  if recent then (s, false)
  else
    let ts := (s.clk.now :: s.tallyTimes k).take 3
    let s := s.modRel fun r => { r with
      tallies := (k, ts) :: r.tallies.filter (·.1 != k)
      lastDet := (dk, s.clk.now) :: r.lastDet.filter (·.1 != dk) }
    (s, ts.length = 3 && decide (s.clk.now ≤ ts.getD 2 0 + dayNs))

/-- How many counted detections of a unit stand within 24 hours. -/
def State.tallyCount (s : State) (k : UnitKey) : Nat :=
  ((s.tallyTimes k).filter fun t => decide (s.clk.now ≤ t + dayNs)).length

/-- Droop stretches of a region (die x 2 + east) within the last `ns`. -/
def State.droops (s : State) (region ns : Nat) : Nat :=
  ((NMap.getD s.pwr.droopCnt region []).filter fun t => decide (s.clk.now < t + ns)).length

/-- Fills a signature's fields about the die: site, temperature, ratio, grade and droop (Table 14.3). -/
def Sig.onDie (g : Sig) (s : State) (d : Nat) (east : Bool) : Sig :=
  let st := s.reg (dieBase d + 0x308)
  let region := d * 2 + (if east then 1 else 0)
  { g with
    site := s.siteNum d, ldie := d, temp := NMap.getD s.pwr.temp d 0
    ratio := if east then Word.fld st 47 42 else Word.fld st 41 36
    grade := if east then Word.fld st 35 30 else Word.fld st 29 24
    droop1ms := Nat.min (s.droops region 1000000) 0xFFFF
    droop1s := s.droops region 1000000000
    droopHist := BitVec.ofNat 64 (maskOf ((List.range 64).filter fun i =>
      (NMap.getD s.pwr.droopCnt region []).any fun t =>
        decide (t + (i + 1) * 1000000 > s.clk.now) && decide (t + i * 1000000 ≤ s.clk.now))) }

end Sys2Proof.Machine
end

