-- ==== Sys2Proof/Machine/Mem.lean ====
section
/-! DEFINITION. The bonded DRAM and the home parts (chapters 7, 8 and 10): address decoding, page ownership, sector reads
and writes with the check code, allocation in the slices, and reads and writes at the home. -/

namespace Sys2Proof.Machine

/-! ## Address decoding (R24, R204, R205, R208) -/

/-- Whether PA lies in some die's DRAM range (Table 1.6). -/
def isDram (pa : Nat) : Bool := pa / 0x1000000000 < 72 && pa % 0x1000000000 < dramSize

/-- The die that homes a DRAM address. -/
def homeOf (pa : Nat) : Nat := pa / 0x1000000000

/-- Offset in a die's DRAM range, PA[35:0]. -/
def offOf (pa : Nat) : Nat := pa % 0x1000000000

/-- The channel masks of Table 8.3. -/
def chanMasks : List Nat := [0x104104100, 0x208208200, 0x410410400, 0x820820800, 0x41041000, 0x82082000]

/-- The channel of a DRAM address, which is also its slice (R175, R204). -/
def chanOf (pa : Nat) : Nat :=
  sumNat ((List.range 6).map fun i => if parity64 (offOf pa &&& chanMasks.getD i 0) then 2 ^ i else 0)

/-- Layer, bank and row of a DRAM address (Table 8.4). -/
def layerOf (pa : Nat) : Nat := fld pa 35 32
/-- Bank of a DRAM address. -/
def bankOf (pa : Nat) : Nat := fld pa 22 17
/-- Row within the bank. -/
def rowOf (pa : Nat) : Nat := fld pa 31 23

/-- The tally key of the DRAM row of an address (Table 14.2). -/
def rowKey (pa : Nat) : UnitKey := (3, homeOf pa * 64 + chanOf pa, layerOf pa * 64 + bankOf pa, rowOf pa)

/-- The basin set of a line (R175). -/
def setOf (pa : Nat) : Nat := (fld pa 35 14 * 2 + fld pa 7 7) % 384

/-- The directory set of a line (R185). -/
def dirSetOf (pa : Nat) : Nat := (fld pa 35 14 * 2 + fld pa 7 7) % 2048

/-- The 128-byte line of an address. -/
def lineOf (a : Nat) : Nat := a - a % 128

/-- The 32-byte sector of an address. -/
def secOf (a : Nat) : Nat := a - a % 32

/-- The four sectors of a line. -/
def secsOfLine (line : Nat) : List Nat := [line, line + 32, line + 64, line + 96]

/-- Members of a die's active spread set, rising (R208). -/
def State.spreadMembers (s : State) (d k : Nat) : List Nat :=
  let b := dieBase d + 0x5000 + k * 0x80
  bitsOf 72 ((s.reg (b + 0x48)).toNat + Word.fld (s.reg (b + 0x50)) 7 0 * 2 ^ 64)

/-- Start and size in bytes of a die's active spread aperture, if valid (Table 8.5). -/
def State.spreadAper (s : State) (d k : Nat) : Option (Nat × Nat) :=
  let w := s.reg (dieBase d + 0x5000 + k * 0x80 + 0x40)
  if Word.bit w 63 then
    some (0x50000000000 + Word.fld w 9 0 * 0x40000000, (Word.fld w 25 16 + 1) * 0x40000000)
  else none

/-- The backing address of `x` in spread set `k` as die `d` computes it (R208). -/
def State.spreadBacking (s : State) (d k start x : Nat) : Nat :=
  let m := s.spreadMembers d k
  let n := m.length
  let g := (x - start) / 0x1000
  let row := g / n
  let f := (row ^^^ (row >>> 8) ^^^ (row >>> 16) ^^^ (row >>> 24)) % 256
  let r := (g % n + f) % n
  dramBase (m.getD r 0) + s.rfld (dieBase d + 0x5000 + k * 0x80 + 0x58) 35 16 * 0x10000 + row * 0x1000 + x % 0x1000

/-- The DRAM address that a device address reaches from die `d`: itself, or its spread backing; none where Table 1.6 says
that the address is unpopulated, reserved or mapped by no set. -/
def State.dramAddr (s : State) (d pa : Nat) : Option Nat :=
  if isDram pa then some pa
  else if 0x50000000000 ≤ pa ∧ pa < 0x60000000000 then
    ((List.range 8).find? fun k => match s.spreadAper d k with
      | some (a, n) => decide (a ≤ pa) && decide (pa < a + n) && (s.spreadMembers d k).length != 0
      | none => false).map fun k =>
        s.spreadBacking d k ((s.spreadAper d k).map (·.1) |>.getD 0) pa
  else none

/-! ## Page ownership (R243 to R247) -/

/-- The POT entry of a page never written: SYSTEM in the top 64 MiB of a die (R243), ZEROED after the zeroing of R216, else
FREE. -/
def potDefault (zeroed : Bool) (page : Nat) : PotEnt :=
  { owner := 0
    state := if offOf (page * 0x10000) ≥ 0xBFC000000 then .system else if zeroed then .zeroed else .free
    guard := false, ro := false, mooring := false, spill := false, code := false }

/-- The POT entry of a page, by page number PA[42:16]. -/
def State.pot (s : State) (page : Nat) : PotEnt := NMap.getD s.mem.pot page (potDefault s.mem.zeroedAtBringUp page)

/-- Writes a POT entry (R245). -/
def State.setPot (s : State) (page : Nat) (e : PotEnt) : State := s.modMem fun m => { m with pot := NMap.put m.pot page e }

/-- Key slot of a page (R249). -/
def PotEnt.keySlot (e : PotEnt) : Nat := if e.state = .system then 0 else e.owner

/-- The number of the key in a slot. -/
def State.keyNum (s : State) (slot : Nat) : Nat := NMap.getD s.sec.keys slot 0

/-- The berths with rows in the running step of a context (R258). -/
def State.stepSet (s : State) (ctx : Nat) : List Nat :=
  ((s.lk.cmds.filter fun c => c.ctx == ctx && c.phase != .taken).map fun c => c.stepRows.map (·.1)).flatten.filterMap
    fun p => (s.bth.roll.find? (·.idx == p)).map (·.berth)

/-- Outcomes of the home ownership check: allowed, refused, or a read that returns poison. -/
inductive Own where
  | allow | refuse | poison
deriving DecidableEq, Repr

/-- Table 10.3. -/
def State.ownCheck (s : State) (r : Req) (e : PotEnt) (write : Bool) : Own :=
  let own (b : Nat) : Own := if e.owner = b then (if write && e.ro then .refuse else .allow)
    else if e.owner = 255 then (if write then .refuse else .allow) else .refuse
  match r.agent with
  | .firmware => .allow
  | .berth b => match e.state with
    | .owned => own b
    | .quarantined => if write then .refuse else if e.owner = b ∨ e.owner = 255 then .poison else .refuse
    | _ => .refuse
  | .operator => match e.state with
    | .owned => own 0
    | .loading => .allow
    | .quarantined => if write then .refuse else if e.owner = 0 ∨ e.owner = 255 then .poison else .refuse
    | _ => .refuse
  | .convoy => match e.state with
    | .owned =>
      if e.owner = 0 then .allow
      else if e.owner = 255 then (if write then .refuse else .allow)
      else if (s.stepSet r.ctx).contains e.owner then (if write && e.ro then .refuse else .allow) else .refuse
    | .quarantined =>
      if write then .refuse
      else if e.owner = 0 ∨ e.owner = 255 ∨ (s.stepSet r.ctx).contains e.owner then .poison else .refuse
    | _ => .refuse

/-! ## Sectors in DRAM -/

/-- Facts of a sector never written: stored-zero form (R216, log entry 7). -/
def SecMeta.fresh : SecMeta := { zero := true, poison := false, key := 0, errs := [] }

/-- The facts of a sector. -/
def State.sect (s : State) (sa : Nat) : SecMeta := NMap.getD s.mem.sect sa SecMeta.fresh

/-- A byte of DRAM; an address never written reads 0 (log entry 7). -/
def memRead (m : List Host.Cell) (a : Nat) : Byte := NMap.getD m a 0

/-- Writes a byte of DRAM, keeping the canonical form: an entry equal to what an unlisted address reads as is removed. -/
def memWrite (m : List Host.Cell) (a : Nat) (b : Byte) : List Host.Cell := NMap.set (0 : Byte) m a b

/-- Writes consecutive bytes. -/
def memWrites (m : List Host.Cell) (a : Nat) : List Byte → List Host.Cell
  | [] => m
  | b :: t => memWrites (memWrite m a b) (a + 1) t

/-- The canonical form of DRAM: addresses strictly rising, no entry equal to 0. -/
def Memory.wf (m : List Host.Cell) : Bool := NMap.sorted none m && m.all fun c => c.2 != 0

/-- The error vector of a stored sector (R210, R212, R450). -/
def SecMeta.errVec (m : SecMeta) : List (Nat × Nat) :=
  m.errs.map (fun e => (e.1, e.2.toNat)) ++ (if m.poison then poisonErrs else []) ++ (if m.zero then zeroErrs else [])

/-- A DRAM detection or correction at a sector: the row's tally, the retirement it starts (R220), a lane fault (R221), and
the signature of R452. `scrub` says that the patrol scrub found it. -/
def State.dramReport (s : State) (sa mech pos : Nat) (scrub : Bool) : State :=
  let d := homeOf sa
  let e := s.pot (sa / 0x10000)
  let k := rowKey sa
  let (s, full) := s.tally k mech
  let cargo := e.owner = 255 && e.state != .free && e.state != .zeroed
  let (st, act, sev) := if mech = 8 then ((0 : Status), 0, 0)
    else if cargo then (0x3707, 6, 1) else if scrub then (0, 9, 2) else (0x3701, 9, 2)
  let sig : Sig := { Sig.blank.onDie s d false with
    status := st, mech := mech, action := act, severity := sev, unitKind := 3, unitIndex := chanOf sa
    tally := s.tallyCount k, addr := sa, times := s.tallyTimes k
    dramLoc := layerOf sa * 2 ^ 26 + bankOf sa * 2 ^ 20 + rowOf sa * 2 ^ 11 + pos * 2 ^ 4 }
  let s := s.sign sig
  let s := if mech ≠ 8 ∧ cargo then s.setPot (sa / 0x10000) { e with state := .quarantined } else s
  let s := if full then
      let b := (d, chanOf sa, layerOf sa, bankOf sa, rowOf sa)
      (s.modMem fun m => { m with blocked := if m.blocked.contains b then m.blocked else m.blocked ++ [b] }).sign
        { sig with status := 0, action := 5, severity := 1 }
    else s
  if mech = 8 then
    let row := layerOf sa * 2 ^ 20 + bankOf sa * 2 ^ 10 + rowOf sa
    let old := s.rel.lanePos.filter fun q => decide (s.clk.now ≤ q.2.2.2.2 + dayNs) &&
      !(q.1 == d && q.2.1 == chanOf sa && q.2.2.1 == pos && q.2.2.2.1 == row)
    let mine := old.filter fun q => q.1 == d && q.2.1 == chanOf sa && q.2.2.1 == pos
    let s := s.modRel fun r => { r with lanePos := (d, chanOf sa, pos, row, s.clk.now) :: old }
    if mine.length ≥ 2 then
      let (s, _) := s.tally (2, s.siteNum d, 0, 0) 0x13
      (s.askRepair d).sign
        { sig with mech := 0x13, action := 5, severity := 1, unitKind := 2, status := 0 }
    else s
  else s

/-- Reads a sector from its stack (R213): 32 bytes and whether they are poison. `dram` are the symbol errors that hit the
stored word before the read. -/
def State.dramSector (s : State) (sa : Nat) (dram : List (Nat × Nat × BitVec 8)) : List Byte × Bool × State :=
  let m0 := s.sect sa
  let hits := (dram.filter (·.1 == sa)).map fun e => e.2
  let m := { m0 with errs := m0.errs ++ hits }
  let s := if hits = [] then s else s.modMem fun q => { q with sect := NMap.put q.sect sa m }
  let e := s.pot (sa / 0x10000)
  let es := m.errVec
  let d := homeOf sa
  let s := (s.cnt d 10 1).pmc d 0x30 1 none
  let stored := (List.range 32).map fun i => memRead s.mem.dram (sa + i)
  let plain (es : List (Nat × Nat)) : List Byte := (List.range 32).map fun i =>
    if m.key ≠ s.keyNum e.keySlot ∨ m.zero ∨ blockBad es (i / 16) then
      Config.wrongKeyByte sa (s.keyNum e.keySlot) i
    else stored.getD i 0
  let zeros : List Byte := List.replicate 32 0
  match decodeSector e.guard es with
  | .data => (plain es, false, s)
  | .dataFixed p v => (plain ((p, v) :: es), false, s.dramReport sa 8 p false)
  | .zeros => (zeros, false, s)
  | .zerosFixed p => (zeros, false, s.dramReport sa 8 p false)
  | .poison => (zeros, true, s)
  | .detected => (zeros, true, s.dramReport sa (if e.guard then 0x0A else 9) 0x7F false)

/-- Whether a die's stack is in STOP (Table 8.7), so that it issues no access. -/
def State.stopHeat (s : State) (d : Nat) : Bool := NMap.getD s.mem.heat d .normal == .stop

/-- Writes a whole sector as ciphertext under its page's key, or as stored poison (R212, R249). -/
def State.dramPut (s : State) (sa : Nat) (bytes : List Byte) (poison : Bool) : State :=
  let key := s.keyNum (s.pot (sa / 0x10000)).keySlot
  let s := (s.cnt (homeOf sa) 11 1).pmc (homeOf sa) 0x31 1 none
  s.modMem fun m => { m with
    dram := memWrites m.dram sa bytes
    sect := NMap.put m.sect sa { zero := false, poison := poison, key := key, errs := [] } }

/-- Writes a sector in stored-zero form (R450). -/
def State.dramZero (s : State) (sa : Nat) : State :=
  s.modMem fun m => { m with
    dram := memWrites m.dram sa (List.replicate 32 0)
    sect := NMap.erase m.sect sa }

/-- Writes every sector of a 64 KiB page in stored-zero form (R248). Only what is listed needs to change. -/
def State.zeroPage (s : State) (page : Nat) : State :=
  s.modMem fun m => { m with
    dram := NMap.keep m.dram fun a _ => a / 0x10000 != page
    sect := NMap.keep m.sect fun a _ => a / 0x10000 != page
    spentSec := NMap.keep m.spentSec fun a _ => a / 0x10000 != page }

/-! ## Windows (R179 to R182) -/

/-- The lowest active window of a die that an address matches (R179); `dev` names a remote device. -/
def State.winOf (s : State) (d : Nat) (dev : Option Nat) (pa : Nat) : Option (Nat × Word) :=
  ((List.range 16).find? fun w =>
    let b := dieBase d + 0x4000 + w * 0x40
    let at' := s.reg (b + 0x30)
    Word.bit at' 63 && decide (s.rfld (b + 0x20) 26 0 ≤ pa / 0x10000) && decide (pa / 0x10000 ≤ s.rfld (b + 0x28) 26 0) &&
    (match dev with
      | none => !Word.bit at' 62
      | some v => Word.bit at' 62 && Word.fld at' 61 44 == v)).map fun w => (w, s.reg (dieBase d + 0x4000 + w * 0x40 + 0x30))

/-- Whether a window tracks its lines; REMOTE windows never do (R181). -/
def attrTracked (w : Option (Nat × Word)) : Bool := match w with
  | some (_, a) => Word.bit a 39 && !Word.bit a 62
  | none => false

/-- RED_OP of a window; 0 for REMOTE windows (R181). -/
def attrRed (w : Option (Nat × Word)) : Nat := match w with
  | some (_, a) => if Word.bit a 62 then 0 else Word.fld a 43 40
  | none => 0

/-- PCLASS of a window: 0 normal, 1 streaming, 2 persistent. -/
def attrClass (w : Option (Nat × Word)) : Nat := match w with
  | some (_, a) => Word.fld a 38 37
  | none => 0

/-- WAYQ of a window, at most 16; 16 outside every window (Table 7.4, R179). -/
def attrWays (w : Option (Nat × Word)) : Nat := match w with
  | some (_, a) => Nat.min (Word.fld a 36 32) 16
  | none => 16

/-- The window's number in a line's facts; 16 is none. -/
def attrNum (w : Option (Nat × Word)) : Nat := match w with
  | some (n, _) => n
  | none => 16

/-- FAR_QUOTA in effect at a slice (R177). -/
def State.farQuota (s : State) (d slice : Nat) : Nat := s.rfld (dieBase d + 0x3100 + slice * 8) 19 16

/-! ## The home part -/

/-- Whether reduction updates are queued for a line, which is then moored (R197). -/
def State.moored (s : State) (line : Nat) : Bool := s.basin.updq.any (·.line == line)

/-- Bytes of a sector held in the home part. -/
def State.homeBytes (s : State) (sa : Nat) : List (Option CByte) := (List.range 32).map fun i => NMap.get? s.basin.home (sa + i)

/-- Writes a sector's dirty home bytes to DRAM, merged over the stored sector where they do not fill it, and leaves them
clean (R176, R200). In STOP the write stays queued: the bytes stay dirty (R219). -/
def State.homeClean (s : State) (sa : Nat) : State :=
  let bs := s.homeBytes sa
  let dirty := bs.map fun b => match b with | some c => c.dirty | none => false
  let pz := NMap.has s.basin.homePoison sa
  if !dirty.any id && !(pz && !(s.sect sa).poison) then s
  else if s.stopHeat (homeOf sa) then
    s.modMem fun m => { m with
      stopWrites := NMap.put m.stopWrites (homeOf sa) (insertNat sa (NMap.getD m.stopWrites (homeOf sa) [])) }
  else
    let full := dirty.all id
    let (old, oldPz, s) := if full then ([], false, s) else s.dramSector sa []
    let merged := (List.range 32).map fun i => match bs.getD i none with
      | some c => if c.dirty then c.val else old.getD i 0
      | none => old.getD i 0
    let s := s.dramPut sa merged (pz || oldPz)
    s.modBasin fun b => { b with
      home := (List.range 32).foldl (fun h i => NMap.alter h (sa + i) fun c => { c with dirty := false }) b.home }

/-- Drops a sector's clean home bytes. -/
def State.homeDropSec (s : State) (sa : Nat) : State :=
  s.modBasin fun b => { b with
    home := NMap.keep b.home fun a c => secOf a != sa || c.dirty
    homePoison := if (b.home.any fun e => secOf e.1 == sa && e.2.dirty) then b.homePoison else NMap.erase b.homePoison sa }

/-- Evicts a line from the home part: dirty bytes to DRAM, then dropped. -/
def State.homeEvict (s : State) (line : Nat) : State :=
  let s := (secsOfLine line).foldl (fun s sa => (s.homeClean sa).homeDropSec sa) s
  s.modBasin fun b => { b with homeLines := NMap.erase b.homeLines line }

/-- Flushes a slice's home part: dirty bytes to DRAM, kept clean (R199). -/
def State.flushHome (s : State) (d : Nat) (slice : Option Nat) : State :=
  let secs := sortNat ((s.basin.home.filter fun e => e.2.dirty && homeOf e.1 == d &&
    (match slice with | some n => chanOf e.1 == n | none => true)).map fun e => secOf e.1)
  secs.foldl State.homeClean s

/-- The line that makes room among `set` (line key and facts, none moored) for a new line of window `win` with quota `wayq`
in a part of `ways` ways: `pick_victim` of R182. `some none` is a free way, `none` no victim. -/
def pickVictim (set : NMap LineMeta) (moored : Nat → Bool) (ways win wayq : Nat) : Option (Option Nat) :=
  let oldest (p : Nat → LineMeta → Bool) : Option Nat :=
    (set.foldl (fun (best : Option (Nat × Nat)) e =>
      if p e.1 e.2 && !moored e.1 then
        match best with
        | some (_, a) => if e.2.age < a then some (e.1, e.2.age) else best
        | none => some (e.1, e.2.age)
      else best) none).map (·.1)
  if (set.filter (·.2.win == win)).length ≥ wayq then (oldest fun _ l => l.win == win).map some
  else if set.length < ways then some none
  else match oldest (fun _ l => l.cls == 1) with
    | some k => some (some k)
    | none => match oldest (fun _ l => l.cls == 0) with
      | some k => some (some k)
      | none => (oldest fun _ l => l.cls == 2).map some

/-- The age of a new line: younger than all, or older than all of its set for a streaming line (R182). -/
def newAge (stamp : Nat) (set : NMap LineMeta) (cls : Nat) : Nat :=
  if cls = 1 then minNat (set.map (·.2.age)) (2 ^ 40 + stamp) - 1 else 2 ^ 40 + stamp

/-- The home lines in the set of `line`. -/
def State.homeSet (s : State) (line : Nat) : NMap LineMeta :=
  NMap.keep s.basin.homeLines fun l _ => homeOf l == homeOf line && chanOf l == chanOf line && setOf l == setOf line

/-- Whether a slice of a die has retired, so that it allocates nothing (R364). -/
def State.sliceRetired (s : State) (d slice : Nat) : Bool := s.rel.retired.contains (6, s.siteNum d, slice)

/-- Makes room for a line in the home part (R182). False where it is served without allocation. -/
def State.homeAlloc (s : State) (line : Nat) : Bool × State :=
  let d := homeOf line
  let w := s.winOf d none line
  let cls := attrClass w
  let touch (s : State) : State := s.modBasin fun b => { b with
    stamp := b.stamp + 1
    homeLines := NMap.alter b.homeLines line fun l => if l.cls = 1 then l else { l with age := 2 ^ 40 + b.stamp } }
  if NMap.has s.basin.homeLines line then (true, touch s)
  else if attrWays w = 0 ∨ s.sliceRetired d (chanOf line) then (false, s)
  else
    match pickVictim (s.homeSet line) s.moored (16 - s.farQuota d (chanOf line)) (attrNum w) (attrWays w) with
    | none => (false, s)
    | some v =>
      let s := match v with | some l => s.homeEvict l | none => s
      (true, s.modBasin fun b => { b with
        stamp := b.stamp + 1
        homeLines := NMap.put b.homeLines line
          { age := newAge b.stamp (s.homeSet line) cls, win := attrNum w, cls := cls, owned := false, since := s.clk.now } })

/-- A slice retires (R364): its home part is flushed, it allocates nothing from then on, and die repair is requested. -/
def State.sliceRetire (s : State) (d slice : Nat) : State :=
  if s.sliceRetired d slice then s
  else
    ((s.modRel fun r => { r with retired := (6, s.siteNum d, slice) :: r.retired }).flushHome d (some slice)).askRepair d

/-- A basin parity detection in a slice (R201): tally and signature; a full tally retires it. -/
def State.sliceReport (s : State) (d slice mech : Nat) (addr : Nat) : State :=
  let k : UnitKey := (6, s.siteNum d, slice, 0)
  let (s, full) := s.tally k mech
  let sig : Sig := { Sig.blank.onDie s d (decide (slice ≥ 32)) with
    mech := mech, action := if mech = 0x0C then 9 else 0, severity := if mech = 0x0C then 2 else 0
    status := if mech = 0x0C then 0x3701 else 0, unitKind := 6, unitIndex := slice, tally := s.tallyCount k
    times := s.tallyTimes k, addr := addr }
  let s := s.sign sig
  if full then (s.sign { sig with status := 0, action := 5, severity := 1 }).sliceRetire d slice else s

/-- What a read answers: a status (0, or poison 0x3701 or 0x3707, or a refusal), the bytes, and whether it must wait for a
holder or for the stack. -/
structure Rd where
  st : Status
  bytes : List Byte
  wait : Bool
deriving DecidableEq, Repr

/-- Reads a sector at the home part (R176): the held bytes where they cover `need`, else the DRAM sector beneath the dirty
bytes; filled if `alloc`. Answers the bytes and poison. -/
def State.homeSector (s : State) (sa : Nat) (need : List Nat) (alloc : Bool) (u : Upset) : Rd × State :=
  let d := homeOf sa
  let bs := s.homeBytes sa
  let anyDirty := bs.any fun b => match b with | some c => c.dirty | none => false
  let held := need.all fun i => (bs.getD i none).isSome
  let hit := held && !need.isEmpty
  -- parity of the held sector (R201)
  let par := u.parity.contains sa && bs.any Option.isSome
  let s := if par && anyDirty then s.modBasin fun b => { b with homePoison := NMap.put b.homePoison sa () } else s
  let s := if par && !anyDirty then s.homeDropSec sa else s
  let s := if par then s.sliceReport d (chanOf sa) (if anyDirty then 0x0C else 0x0B) sa else s
  let bs := if par && !anyDirty then List.replicate 32 none else bs
  if hit && !(par && !anyDirty) then
    let s := if NMap.has s.basin.homeLines (lineOf sa) then (s.homeAlloc (lineOf sa)).2 else s
    let s := s.pmc d 0x21 1 none
    ({ st := if !NMap.has s.basin.homePoison sa then 0 else if NMap.has s.mem.spentSec sa then 0x210B else 0x3701
       bytes := bs.map fun b => match b with | some c => c.val | none => 0, wait := false }, s)
  else if s.stopHeat d then ({ st := 0x3301, bytes := [], wait := true }, s)
  else
    let s := s.pmc d 0x22 1 none
    let (old, pz, s) := s.dramSector sa u.dram
    let pz := pz || NMap.has s.basin.homePoison sa
    let merged := (List.range 32).map fun i => match bs.getD i none with
      | some c => if c.dirty then c.val else old.getD i 0
      | none => old.getD i 0
    let (al, s) := if alloc then s.homeAlloc (lineOf sa) else (false, s)
    let s := if al then s.modBasin fun b => { b with
        home := (List.range 32).foldl (fun h i =>
          match bs.getD i none with
          | some c => if c.dirty then h else NMap.put h (sa + i) { val := old.getD i 0, dirty := false }
          | none => NMap.put h (sa + i) { val := old.getD i 0, dirty := false }) b.home
        homePoison := if pz then NMap.put b.homePoison sa () else b.homePoison }
      else s
    let st : Status := if !pz then 0 else if NMap.has s.mem.spentSec sa then 0x210B else if (s.pot (sa / 0x10000)).state = .quarantined then 0x3707 else 0x3701
    ({ st := st, bytes := merged, wait := false }, s)

/-- Merges bytes (offset in the sector, value) into the home part, or into DRAM by the controller where the line takes no
way (R182, R197). A write of the whole sector clears poison; `poison` marks it. -/
def State.homeMerge (s : State) (sa : Nat) (bytes : List (Nat × Byte)) (poison : Bool) : State :=
  let full := (List.range 32).all fun i => bytes.any (·.1 == i)
  let (al, s) := s.homeAlloc (lineOf sa)
  let s := s.modBasin fun b => { b with
    home := bytes.foldl (fun h p => NMap.put h (sa + p.1) { val := p.2, dirty := true }) b.home
    homePoison := if poison then NMap.put b.homePoison sa ()
      else if full then NMap.erase b.homePoison sa else b.homePoison }
  let s := if full && !poison then s.modMem fun m => { m with spentSec := NMap.erase m.spentSec sa } else s
  if al then s else (s.homeClean sa).homeDropSec sa

end Sys2Proof.Machine
end

