-- ==== Sys2Proof/Machine/Cache.lean ====
section
/-! DEFINITION. Copies and their homes (chapters 4, 6 and 7): far parts and L1s, snoops and recalls, reads and writes at the
home, reads of a die's basin, write-backs, acquire invalidations, and reduction updates. -/

namespace Sys2Proof.Machine

/-- Key of a byte held by a unit (log entry 5). -/
def heldKey (unit ga : Nat) : Nat := unit * 2 ^ 80 + ga

/-- The unit of a held key. -/
def keyUnit (k : Nat) : Nat := k / 2 ^ 80

/-- The global address of a held key. -/
def keyAddr (k : Nat) : Nat := k % 2 ^ 80

/-- A request of an agent from a die with no tracking attributes. -/
def reqOf (die : Nat) (a : Agent) : Req := { node := die, agent := a, tracked := false, redOp := 0, ctx := 0 }

/-! ## Far parts -/

/-- Bytes of a sector held in a die's far part. -/
def State.farBytes (s : State) (d sa : Nat) : List (Option CByte) :=
  (List.range 32).map fun i => NMap.get? s.basin.far (heldKey d (sa + i))

/-- The dirty bytes of a sector of a far part, as (offset, value). -/
def dirtyOf (bs : List (Option CByte)) : List (Nat × Byte) :=
  (List.range bs.length).filterMap fun i => match bs.getD i none with
    | some c => if c.dirty then some (i, c.val) else none
    | none => none

/-- Merges a die's dirty far bytes of a line into the home part, keeping them clean in the far part (WbK, FwdAck, WbU). -/
def State.farWriteBack (s : State) (d line : Nat) : State :=
  (secsOfLine line).foldl (fun s sa =>
    let ds := dirtyOf (s.farBytes d sa)
    if ds = [] then s
    else
      let s := s.homeMerge sa ds (NMap.has s.basin.farPoison (heldKey d sa))
      s.modBasin fun b => { b with
        far := ds.foldl (fun h p => NMap.alter h (heldKey d (sa + p.1)) fun c => { c with dirty := false }) b.far }) s

/-- Drops a line from a die's far part. -/
def State.farDrop (s : State) (d line : Nat) : State :=
  s.modBasin fun b => { b with
    far := NMap.keep b.far fun k _ => !(keyUnit k == d && lineOf (keyAddr k) == line)
    farPoison := NMap.keep b.farPoison fun k _ => !(keyUnit k == d && lineOf (keyAddr k) == line)
    farLines := NMap.erase b.farLines (heldKey d line) }

/-- Removes a die from a line's directory entry; an entry with no holder is freed unless it is pinned or watched (R186). -/
def State.dirRemove (s : State) (line node : Nat) : State :=
  match NMap.get? s.basin.dir line with
  | none => s
  | some e =>
    let e := { e with
      sharers := e.sharers.filter (· != node)
      hs0 := e.hs0 && node != 72
      hs1 := e.hs1 && node != 73
      lease := false
      state := match e.state with
        | .owned n => if n = node then DirState.shared else .owned n
        | x => x }
    let held := match e.state with | .owned _ => true | .busy => true | .shared => false
    if !held && e.sharers.isEmpty && !e.hs0 && !e.hs1 && !e.watch && !e.pin then
      s.modBasin fun b => { b with dir := NMap.erase b.dir line }
    else s.modBasin fun b => { b with dir := NMap.put b.dir line e }

/-- The index of a line's contention predictor (R195). -/
def predIdx (pa : Nat) : Nat := (homeOf pa * 64 + chanOf pa) * 256 + (fld pa 14 7 ^^^ fld pa 22 15)

/-- Moves a two-bit predictor counter; it resets to 2 (R195). -/
def State.predMove (s : State) (pa : Nat) (up : Bool) : State :=
  s.modBasin fun b => { b with
    predictor := NMap.put b.predictor (predIdx pa)
      (let v := NMap.getD b.predictor (predIdx pa) 2
       if up then Nat.min 3 (v + 1) else v - 1) }

/-- Evicts a line from a far part: dirty bytes home, an owned line returned, a lease's end counted (R189, R194, R195). -/
def State.farEvict (s : State) (d line : Nat) : State :=
  let s := s.farWriteBack d line
  let s := s.farDrop d line
  match NMap.get? s.basin.dir line with
  | some e =>
    if e.state = .owned d then
      let s := if e.lease then s.predMove line false else s
      s.dirRemove line d
    else match e.txn with
      | some t =>
        if t.await.contains d then s.modBasin fun b => { b with
          dir := NMap.put b.dir line { e with txn := some { t with absorbed := true } } }
        else s
      | none => s
  | none => s

/-- The far lines of a die in the set of a line. -/
def State.farSet (s : State) (d line : Nat) : NMap LineMeta :=
  NMap.keep s.basin.farLines fun k _ =>
    keyUnit k == d && chanOf (keyAddr k) == chanOf line && setOf (keyAddr k) == setOf line

/-- Makes room for a line in a die's far part (R182): false for a streaming window, a quota of 0 or no victim. -/
def State.farAlloc (s : State) (d line : Nat) : Bool × State :=
  let dev := if line ≥ 3 * 2 ^ 70 then some ((line - 3 * 2 ^ 70) / 2 ^ 43) else none
  let w := s.winOf d dev (line % 2 ^ 43)
  let k := heldKey d line
  if NMap.has s.basin.farLines k then
    (true, s.modBasin fun b => { b with
      stamp := b.stamp + 1
      farLines := NMap.alter b.farLines k fun l => { l with age := 2 ^ 40 + b.stamp } })
  else if attrClass w = 1 ∨ attrWays w = 0 ∨ s.sliceRetired d (chanOf line) then (false, s)
  else
    let moored (key : Nat) : Bool := s.moored (keyAddr key)
    match pickVictim (s.farSet d line) moored (s.farQuota d (chanOf line)) (attrNum w) (attrWays w) with
    | none => (false, s)
    | some v =>
      let s := match v with | some key => s.farEvict d (keyAddr key) | none => s
      (true, s.modBasin fun b => { b with
        stamp := b.stamp + 1
        farLines := NMap.put b.farLines k
          { age := 2 ^ 40 + b.stamp, win := attrNum w, cls := attrClass w, owned := false, since := s.clk.now } })

/-- Installs clean bytes of a sector in a far part, beneath its dirty bytes. -/
def State.farFill (s : State) (d sa : Nat) (bytes : List Byte) (poison : Bool) : State :=
  s.modBasin fun b => { b with
    far := (List.range 32).foldl (fun h i =>
      match NMap.get? h (heldKey d (sa + i)) with
      | some c => if c.dirty then h else NMap.put h (heldKey d (sa + i)) { val := byteAt bytes i, dirty := false }
      | none => NMap.put h (heldKey d (sa + i)) { val := byteAt bytes i, dirty := false }) b.far
    farPoison := if poison then NMap.put b.farPoison (heldKey d sa) () else NMap.erase b.farPoison (heldKey d sa) }

/-! ## Snoops and recalls -/

/-- A message put on the network. -/
def State.send (s : State) (m : Msg) : State := s.modBasin fun b => { b with net := b.net ++ [m] }

/-- A message with nothing but its kind and ends. -/
def Msg.bare (kind : MsgKind) (dst src line : Nat) : Msg :=
  { kind := kind, dst := dst, src := src, line := line, fwdTo := 0, bytes := [], dirty := [], poison := [], status := 0 }

/-- Starts a back-invalidate snoop of a host holder and holds the line in B until its answer (R316). -/
def State.biSnoop (s : State) (line : Nat) (e : DirEnt) (port : Nat) (shared : Bool) (r : Req) : State :=
  let s := s.send (Msg.bare (if shared then .biSnpShared else .biSnpInv) (72 + port) (homeOf line) line)
  s.modBasin fun b => { b with
    dir := NMap.put b.dir line
      { e with state := .busy, txn := some { req := r, kind := 3, await := [72 + port], absorbed := false } } }

/-- Takes current data from an owning die, which keeps the line (SnpCur, R192); true where the read must wait: the line is in
B, or the host owns it. -/
def State.snoopCur (s : State) (line : Nat) (r : Req) : Bool × State :=
  match NMap.get? s.basin.dir line with
  | none => (false, s)
  | some e => match e.state with
    | .busy => (true, s)
    | .shared => (false, s)
    | .owned n =>
      if n < 72 then (false, s.farWriteBack n line)
      else (true, s.biSnoop line e (n - 72) true r)

/-- Removes every copy of a line outside its home: dirty bytes come home, dies drop it; true where a host holder must answer
first (R186, R191). A lease recalled within 2 µs raises the predictor (R195). -/
def State.recall (s : State) (line : Nat) (r : Req) : Bool × State :=
  match NMap.get? s.basin.dir line with
  | none => (false, s)
  | some e => match e.state with
    | .busy => (true, s)
    | .owned n =>
      if n < 72 then
        let s := (s.farWriteBack n line).farDrop n line
        let s := if e.lease && decide (s.clk.now < e.leasedAt + 2000) then s.predMove line true else s
        (false, s.dirRemove line n)
      else (true, s.biSnoop line e (n - 72) false r)
    | .shared =>
      let s := e.sharers.foldl (fun s d => (s.farDrop d line).dirRemove line d) s
      if e.hs0 then (true, s.biSnoop line { e with sharers := [] } 0 false r)
      else if e.hs1 then (true, s.biSnoop line { e with sharers := [] } 1 false r)
      else (false, s)

/-! ## Reduction updates (R196, R197) -/

/-- Bytes of one element of a reduction operation (Table 7.8). -/
def redBytes (op : Nat) : Nat :=
  match op with
  | 1 => 16
  | 2 => 4
  | 3 => 2
  | 4 => 4
  | 5 => 8
  | 6 => 4
  | 7 => 8
  | 8 => 4
  | 9 => 8
  | 10 => 4
  | 11 => 8
  | 12 => 4
  | 13 => 8
  | _ => 1

/-- One element of a reduction: stored value and update to the new value, with arithmetic flags (Table 7.8). -/
def redElem (op old new : Nat) : Nat × AFlags :=
  let sg (n v : Nat) : Int := toSigned n v
  match op with
  | 1 => let r := lsAddBits (BitVec.ofNat 128 old) (BitVec.ofNat 128 new); (r.1.toNat, r.2)
  | 2 => ((fp32Add old new).1, 0)
  | 3 => (bf16Add old new, 0)
  | 4 => ((old + new) % 2 ^ 32, 0)
  | 5 => ((old + new) % 2 ^ 64, 0)
  | 6 => (if sg 32 new < sg 32 old then new else old, 0)
  | 7 => (if sg 64 new < sg 64 old then new else old, 0)
  | 8 => (if sg 32 old < sg 32 new then new else old, 0)
  | 9 => (if sg 64 old < sg 64 new then new else old, 0)
  | 10 => (Nat.min old new, 0)
  | 11 => (Nat.min old new, 0)
  | 12 => (Nat.max old new, 0)
  | 13 => (Nat.max old new, 0)
  | _ => (new, 0)

/-- The command a context and SEQ name, changed where it is in flight. -/
def State.modCmd (s : State) (ctx seq : Nat) (f : Cmd → Cmd) : State :=
  s.modLk fun l => { l with cmds := l.cmds.map fun c => if c.ctx == ctx && c.seq == seq then f c else c }

/-- Applies one queued update at its home: whole elements only (R196). -/
def State.applyUpd (s : State) (q : RedUpd) : State :=
  let n := redBytes q.op
  let sa := secOf q.line
  let s := ((List.range (32 / n)).foldl (fun (s : State) i =>
    let offs := (List.range n).map fun j => i * n + j
    if offs.all fun o => q.bytes.any (·.1 == o) then
      let (rd, s) := s.homeSector sa offs true {}
      let old := rdLE rd.bytes (i * n) n
      let new := ofBytes (offs.map fun o => ((q.bytes.find? (·.1 == o)).map (·.2)).getD 0)
      let (v, fl) := redElem q.op old new
      let s := s.homeMerge sa ((List.range n).map fun j => (i * n + j, byteAt (bytesOf n v) j)) (rd.st != 0)
      s.modCmd q.ctx q.seq fun c => { c with flags := c.flags ||| fl }
    else s) s)
  if q.op = 2 ∨ q.op = 3 then s.modCmd q.ctx q.seq fun c => { c with redOrder := true } else s

/-- Applies every queued update of a line, in order. -/
def State.drainLine (s : State) (line : Nat) : State :=
  let mine := s.basin.updq.filter fun q => lineOf q.line == line
  let s := s.modBasin fun b => { b with updq := b.updq.filter fun q => lineOf q.line != line }
  mine.foldl State.applyUpd s

/-- Applies the oldest queued update of a slice. -/
def State.drainOne (s : State) (d slice : Nat) : State :=
  match s.basin.updq.find? fun q => q.die == d && q.slice == slice with
  | none => s
  | some q =>
    State.applyUpd (s.modBasin fun b => { b with updq := removeFirst (fun q => q.die == d && q.slice == slice) b.updq }) q

/-- Whether a byte mask covers every element it touches whole. -/
def redWhole (op : Nat) (bytes : List (Nat × Byte)) : Bool :=
  let n := redBytes op
  bytes.all fun p => (List.range n).all fun j => bytes.any (·.1 == p.1 / n * n + j)

/-! ## Accesses at the home -/

/-- The reduction operation the home applies to a DRAM line (R181: the home's attributes rule). -/
def State.redOpAt (s : State) (pa : Nat) : Nat := attrRed (s.winOf (homeOf pa) none pa)

/-- Whether the home tracks a line. -/
def State.trackedAt (s : State) (pa : Nat) : Bool := attrTracked (s.winOf (homeOf pa) none pa)

/-- Counts a mismatch of a request's tracking attributes with the home's (R181). -/
def State.attrCheck (s : State) (r : Req) (pa : Nat) : State :=
  if r.tracked != s.trackedAt pa || r.redOp != s.redOpAt pa then s.cnt (homeOf pa) 14 1 else s

/-- Counts the payload of a request between dies (Table 18.2, indices 12 and 13). -/
def State.remoteBytes (s : State) (src home n : Nat) : State :=
  if src = home ∨ src ≥ 72 then s else ((s.cnt src 12 n).cnt home 13 n).pmc src 0x24 1 none

/-- A read of one sector at the home (R184, R246): the ownership check, updates drained, the owner snooped, then the home
part or DRAM. -/
def State.homeRead (s : State) (r : Req) (sa : Nat) (need : List Nat) (alloc : Bool) (u : Upset) : Rd × State :=
  let e := s.pot (sa / 0x10000)
  if !s.present (homeOf sa) then ({ st := 0x2201, bytes := [], wait := false }, s)
  else match s.ownCheck r e false with
  | .refuse => ({ st := 0x4104, bytes := [], wait := false }, s)
  | .poison =>
    ({ st := if e.owner = 255 then 0x3707 else 0x3701, bytes := List.replicate 32 0, wait := false }, s)
  | .allow =>
    let s := s.drainLine (lineOf sa)
    let (w, s) := s.snoopCur (lineOf sa) r
    if w then ({ st := 0, bytes := [], wait := true }, s)
    else
      let s := s.remoteBytes r.node (homeOf sa) 32
      s.homeSector sa need alloc u

/-- Breaks the LR reservations on a line (R94); the A extension lets any write to the line do so. -/
def State.breakResv (s : State) (line : Nat) : State :=
  s.modBasin fun b => { b with resv := NMap.keep b.resv fun _ r => r.1 != line }

/-- A write of bytes (offset in the sector, value) at the home: the ownership check, a reduction update where the window has
one (R196), else every other copy recalled and the bytes merged. Status 0 where accepted; the Bool asks to wait. -/
def State.homeWrite (s : State) (r : Req) (ctx seq sa : Nat) (bytes : List (Nat × Byte)) (poison : Bool) :
    Status × Bool × State :=
  let e := s.pot (sa / 0x10000)
  if !s.present (homeOf sa) then (0x2201, false, s)
  else if s.ownCheck r e true ≠ .allow then (0x4104, false, s)
  else
    let op := s.redOpAt sa
    let s := (s.remoteBytes r.node (homeOf sa) bytes.length).breakResv (lineOf sa)
    if op ≠ 0 then
      let d := homeOf sa
      let n := chanOf sa
      let (w, s) := s.snoopCur (lineOf sa) r
      if w then (0, true, s) else
      let s := if (s.basin.updq.filter fun q => q.die == d && q.slice == n).length ≥ 64 then s.drainOne d n else s
      let s := s.modBasin fun b => { b with
        updq := b.updq ++ [{ die := d, slice := n, line := sa, op := op, bytes := bytes, ctx := ctx, seq := seq }] }
      (if redWhole op bytes then 0 else 0x2203, false, s)
    else
      let s := s.drainLine (lineOf sa)
      let (w, s) := s.recall (lineOf sa) r
      if w then (0, true, s) else (0, false, s.homeMerge sa bytes poison)

/-! ## A die's basin -/

/-- Parity of a sector held in a far part (R201): a clean sector is dropped, a dirty one becomes poison. -/
def State.farParity (s : State) (d sa : Nat) (u : Upset) : State :=
  let bs := s.farBytes d sa
  if u.parity.contains (heldKey d sa) && bs.any Option.isSome then
    if (dirtyOf bs).isEmpty then
      let s := s.sliceReport d (chanOf sa) 0x0B sa
      s.modBasin fun b => { b with far := NMap.keep b.far fun k _ => !(keyUnit k == d && secOf (keyAddr k) == sa) }
    else
      let s := s.sliceReport d (chanOf sa) 0x0C sa
      s.modBasin fun b => { b with farPoison := NMap.put b.farPoison (heldKey d sa) () }
  else s

/-- A read of one DRAM sector through die `d`'s basin (Table 6.2): the home part for local lines, the far part where it holds
the bytes, otherwise the home, filling the far part. With `look`, or on a line the home tracks, the home answers and nothing
is allocated (R192). -/
def State.basinRead (s : State) (d : Nat) (r : Req) (sa : Nat) (need : List Nat) (look : Bool) (u : Upset) : Rd × State :=
  if homeOf sa = d then s.homeRead r sa need (!look) u
  else
    let s := s.farParity d sa u
    let bs := s.farBytes d sa
    if !look && need.all fun i => (bs.getD i none).isSome then
      let s := (s.pmc d 0x23 1 none)
      let s := if NMap.has s.basin.farLines (heldKey d (lineOf sa)) then (s.farAlloc d (lineOf sa)).2 else s
      ({ st := if NMap.has s.basin.farPoison (heldKey d sa) then 0x3701 else 0
         bytes := bs.map fun b => match b with | some c => c.val | none => 0, wait := false }, s)
    else
      let (rd, s) := s.homeRead r sa need (!look) u
      if rd.wait ∨ (rd.st ≠ 0 ∧ rd.st ≠ 0x3701 ∧ rd.st ≠ 0x3707) then (rd, s)
      else
        let merged := (List.range 32).map fun i => match bs.getD i none with
          | some c => if c.dirty then c.val else byteAt rd.bytes i
          | none => byteAt rd.bytes i
        let s := if look ∨ s.trackedAt sa then s
          else
            let (al, s) := s.farAlloc d (lineOf sa)
            if al then s.farFill d sa rd.bytes (rd.st != 0) else s
        ({ rd with bytes := merged }, s)

/-! ## L1 caches -/

/-- The die of a core key. -/
def dieOfCore (core : Nat) : Nat := core / 32

/-- Sectors (global addresses) with dirty L1 bytes of a core, within [lo, hi). -/
def State.l1DirtySecs (s : State) (core lo hi : Nat) : List Nat :=
  sortNat ((s.basin.l1.filter fun e => e.2.dirty && keyUnit e.1 == core && decide (lo ≤ lineOf (keyAddr e.1) + 127) &&
    decide (lineOf (keyAddr e.1) < hi)).map fun e => secOf (keyAddr e.1))

/-- The dirty bytes of an L1 sector. -/
def State.l1Dirty (s : State) (core sa : Nat) : List (Nat × Byte) :=
  dirtyOf ((List.range 32).map fun i => NMap.get? s.basin.l1 (heldKey core (sa + i)))

/-- Marks an L1 sector's bytes clean. -/
def State.l1MarkClean (s : State) (core sa : Nat) : State :=
  s.modBasin fun b => { b with
    l1 := (List.range 32).foldl (fun h i => NMap.alter h (heldKey core (sa + i)) fun c => { c with dirty := false }) b.l1
    l1Poison := NMap.erase b.l1Poison (heldKey core sa) }

/-- A CXL port's state. -/
def State.cport (s : State) (port : Nat) : CxlPort := s.cxl.ports.toList.getD port CxlPort.init

/-- Changes a CXL port. -/
def State.modPort (s : State) (port : Nat) (f : CxlPort → CxlPort) : State :=
  s.modCxl fun c => { c with ports := c.ports.setIfInBounds port (f (c.ports.toList.getD port CxlPort.init)) }

/-- Asks the host for a 64-byte line through a port, for ownership or for data (R320). -/
def State.hostAsk (s : State) (port line : Nat) (own : Bool) : State :=
  s.modPort port fun p => { p with
    hreqs := if p.hreqs.any (fun q => q.1 == line && (q.2 || !own)) then p.hreqs else p.hreqs ++ [(line, own)] }

/-- A host-cache line with nothing in it. -/
def HcLine.empty : HcLine := { bytes := [], own := false, pinned := false, poison := false }

/-- Writes bytes (host address, value) into a port's host cache as modified data, asking for ownership of lines it does not
own (R171, R320). True where every line is owned, so that the host observes the data. -/
def State.hostWrite (s : State) (port : Nat) (bytes : List (Nat × Byte)) : Bool × State :=
  bytes.foldl (fun (acc : Bool × State) p =>
    let line := p.1 - p.1 % 64
    let l := NMap.getD (acc.2.cport port).hcache line HcLine.empty
    let s := acc.2.modPort port fun q => { q with
      hcache := NMap.put q.hcache line { l with bytes := NMap.put l.bytes (p.1 % 64) { val := p.2, dirty := true } } }
    let s := if l.own then s else s.hostAsk port line true
    (acc.1 && l.own, s)) (true, s)

/-- Writes a sector's dirty L1 bytes to where Table 6.1 holds them next: the home part for local lines, the far part for
remote ones (or the home itself), the host cache. False where the home must first recall a host copy: the bytes then stay
dirty in the L1. -/
def State.l1WriteBack (s : State) (core sa : Nat) : Bool × State :=
  let ds := s.l1Dirty core sa
  let d := dieOfCore core
  let pz := NMap.has s.basin.l1Poison (heldKey core sa)
  if ds = [] then (true, s)
  else if sa ≥ 3 * 2 ^ 70 then (true, s.l1MarkClean core sa)
  else if sa ≥ 2 ^ 70 then
    let (ok, s) := s.hostWrite (sa / 2 ^ 70 - 1) (ds.map fun p => ((sa + p.1) % 2 ^ 70, p.2))
    (ok, s.l1MarkClean core sa)
  else if homeOf sa = d then
    let (w, s) := s.recall (lineOf sa) (reqOf d .firmware)
    if w then (false, s) else (true, (s.homeMerge sa ds pz).l1MarkClean core sa)
  else
    let (al, s) := s.farAlloc d (lineOf sa)
    if al then
      let s := s.modBasin fun b => { b with
        far := ds.foldl (fun h p => NMap.put h (heldKey d (sa + p.1)) { val := p.2, dirty := true }) b.far
        farPoison := if pz then NMap.put b.farPoison (heldKey d sa) ()
          else if ds.length = 32 then NMap.erase b.farPoison (heldKey d sa) else b.farPoison }
      (true, s.l1MarkClean core sa)
    else
      let (w, s) := s.recall (lineOf sa) (reqOf d .firmware)
      if w then (false, s) else (true, (s.homeMerge sa ds pz).l1MarkClean core sa)

/-- Writes back a core's dirty L1 sectors within [lo, hi). True where all are accepted. -/
def State.l1Flush (s : State) (core lo hi : Nat) : Bool × State :=
  (s.l1DirtySecs core lo hi).foldl (fun acc sa => let (ok, s) := acc.2.l1WriteBack core sa; (acc.1 && ok, s)) (true, s)

/-- Drops a core's clean L1 bytes within [lo, hi) (R100). -/
def State.l1Invalidate (s : State) (core lo hi : Nat) : State :=
  s.modBasin fun b => { b with
    l1 := NMap.keep b.l1 fun k c => !(keyUnit k == core && !c.dirty && decide (lo ≤ lineOf (keyAddr k) + 127) &&
      decide (lineOf (keyAddr k) < hi)) }

/-- Lines of a die's far part with dirty bytes, within [lo, hi). -/
def State.farDirtyLines (s : State) (d lo hi : Nat) : List Nat :=
  sortNat ((s.basin.far.filter fun e => e.2.dirty && keyUnit e.1 == d && decide (lo ≤ lineOf (keyAddr e.1) + 127) &&
    decide (lineOf (keyAddr e.1) < hi)).map fun e => lineOf (keyAddr e.1))

/-- Writes back a far line to its home; false where a host copy must be recalled first. A line the die owns needs no recall. -/
def State.farWbU (s : State) (d line : Nat) : Bool × State :=
  let mine := match NMap.get? s.basin.dir line with | some e => e.state == DirState.owned d | none => true
  if mine then (true, s.farWriteBack d line)
  else
    let (w, s) := s.recall line (reqOf d .firmware)
    if w then (false, s) else (true, s.farWriteBack d line)

/-- Writes back a die's dirty far lines within [lo, hi). -/
def State.farFlush (s : State) (d lo hi : Nat) : Bool × State :=
  (s.farDirtyLines d lo hi).foldl (fun acc l => let (ok, s) := acc.2.farWbU d l; (acc.1 && ok, s)) (true, s)

/-- Drops a die's clean far copies of untracked lines within [lo, hi) (R109, R183); lines the directory holds stay. -/
def State.farInvalidate (s : State) (d lo hi : Nat) : State :=
  let gone (k : Nat) : Bool := keyUnit k == d && decide (lo ≤ lineOf (keyAddr k) + 127) && decide (lineOf (keyAddr k) < hi) &&
    !NMap.has s.basin.dir (lineOf (keyAddr k))
  let s := s.modBasin fun b => { b with far := NMap.keep b.far fun k c => !(gone k && !c.dirty) }
  s.modBasin fun b => { b with
    farLines := NMap.keep b.farLines fun k _ => !(gone k) ||
      b.far.any fun e => keyUnit e.1 == d && lineOf (keyAddr e.1) == keyAddr k
    farPoison := NMap.keep b.farPoison fun k _ => !(gone k) ||
      b.far.any fun e => keyUnit e.1 == d && secOf (keyAddr e.1) == keyAddr k }

/-- The whole address range, for fences over all memory. -/
def allMem : Nat := 2 ^ 80

/-- FENCE.ACQ of a core over [lo, hi) (R109). -/
def State.acquire (s : State) (core lo hi : Nat) : State :=
  (s.l1Invalidate core lo hi).farInvalidate (dieOfCore core) lo hi

/-- The write-backs of FENCE.REL of a core over [lo, hi) (R110). -/
def State.release (s : State) (core lo hi : Nat) : Bool × State :=
  let (a, s) := s.l1Flush core lo hi
  let (b, s) := s.farFlush (dieOfCore core) lo hi
  (a && b, s)

/-- Writes back and invalidates a core's L1 at a command's end (R100). -/
def State.l1Close (s : State) (core : Nat) : State :=
  let (_, s) := s.l1Flush core 0 allMem
  s.l1Invalidate core 0 allMem

/-- Writes back every far line of a die and returns its owned lines (CLEAN_FAR, R199). -/
def State.cleanFar (s : State) (d : Nat) (slice : Option Nat) : State :=
  let lines := sortNat ((s.basin.farLines.filter fun e => keyUnit e.1 == d &&
    (match slice with | some n => chanOf (keyAddr e.1) == n | none => true)).map fun e => keyAddr e.1)
  lines.foldl (fun s l =>
    let s := s.farEvict d l
    s.dirRemove l d) s

end Sys2Proof.Machine
end

