-- ==== Sys2Proof/Machine/Xlate.lean ====
section
/-! DEFINITION. Translation of a berth's virtual addresses (R250 to R252, R292, R319) and reads and writes of memory by
global address and by virtual address. Global addresses: device below 2^43, host (1 + port) x 2^70 + a, remote device
3 x 2^70 + dev x 2^43 + pa (log entry 5). -/

namespace Sys2Proof.Machine

/-- What an access wants of its page. -/
inductive Want where
  | read | write | exec
deriving DecidableEq, Repr

/-- A translation: an address, a fault cause of Table 4.6 (3 PAGE, 4 ACCESS), or an ATS request that must be answered. -/
inductive Xl where
  | ok (ga : Nat)
  | fault (cause : Nat)
  | wait
deriving DecidableEq, Repr

/-- BMAPb register base (Table 10.4). -/
def bmapBase (b : Nat) : Nat := ghBase 0 + 0x10000 + b * 0x40

/-- The bank that new issues of a berth latch (R251). -/
def State.activeBank (s : State) (b : Nat) : Bool := s.rbit (bmapBase b + 0x10) 32

/-- Level-0 table of a berth's bank. -/
def State.rootOf (s : State) (b : Nat) (bank : Bool) : Nat :=
  s.rfld (bmapBase b + (if bank then 8 else 0)) 42 11 * 0x800

/-- An 8-byte map entry, read from its SYSTEM page. -/
def State.mapEntry (s : State) (a : Nat) : Word × State :=
  if isDram a then
    let (rd, s) := s.homeSector (secOf a) ((List.range 8).map fun i => a % 32 + i) true {}
    (if rd.st = 0 then BitVec.ofNat 64 (rdLE rd.bytes (a % 32) 8) else 0, s)
  else (0, s)

/-- Whether a leaf's page lies wholly within one die's 48 GiB or within the spread aperture (R250). -/
def leafPlace (a size : Nat) : Bool :=
  (isDram a && isDram (a + size - 1) && homeOf a == homeOf (a + size - 1)) ||
  (decide (0x50000000000 ≤ a) && decide (a + size ≤ 0x60000000000))

/-- Page size of a leaf at a level. -/
def leafSize (level : Nat) : Nat := if level = 1 then 0x40000000 else if level = 2 then 0x200000 else 0x10000

/-- A valid entry of a level (R250): a table's address, or a leaf as (page address, WRITE, EXEC). -/
def mapDecode (level : Nat) (e : Word) : Option (Nat ⊕ (Nat × Bool × Bool)) :=
  let leaf := Word.bit e 1
  let a := Word.fld e 42 8 * 0x100
  if !Word.bit e 0 || Word.fld e 7 4 != 0 || Word.fld e 63 43 != 0 then none
  else if leaf then
    if level = 0 || Word.fld e 15 8 != 0 || a % leafSize level != 0 || !leafPlace a (leafSize level) then none
    else some (.inr (a, Word.bit e 2, Word.bit e 3))
  else if level = 3 then none
  else if level < 2 && a % 0x1000 != 0 then none
  else some (.inl a)

/-- Index of a virtual address at a level. -/
def mapIndex (level va : Nat) : Nat :=
  if level = 0 then fld va 46 39 else if level = 1 then fld va 38 30 else if level = 2 then fld va 29 21 else fld va 20 16

/-- Walks a map from a table at `level` (R250): the 64 KiB page's address and rights. -/
def State.walk : Nat → State → Nat → Nat → Nat → Option (Nat × Bool × Bool) × State
  | 0, s, _, _, _ => (none, s)
  | fuel + 1, s, level, table, va =>
    let (e, s) := s.mapEntry (table + 8 * mapIndex level va)
    match mapDecode level e with
    | none => (none, s)
    | some (.inr (a, w, x)) => (some (a + (va % leafSize level) / 0x10000 * 0x10000, w, x), s)
    | some (.inl t) => State.walk fuel s (level + 1) t va

/-- A berth. -/
def State.berth? (s : State) (b : Nat) : Option Berth := NMap.get? s.bth.berths b

/-- Changes a berth. -/
def State.modBerth (s : State) (b : Nat) (f : Berth → Berth) : State :=
  s.modBth fun x => { x with berths := NMap.alter x.berths b f }

/-- Key of a region of a berth: its bank, whether it is a host region, and its slot. -/
def regionKey (bank host : Bool) (slot : Nat) : Nat := (if bank then 32 else 0) + (if host then 16 else 0) + slot

/-- The region of a berth's bank that covers a virtual address (R292, R319). -/
def State.regionOf (s : State) (b : Nat) (bank : Bool) (va : Nat) : Option Region :=
  match s.berth? b with
  | some e => (e.regions.find? fun r => (decide (32 ≤ r.1) == bank) && decide (r.2.base ≤ va) && decide (va < r.2.limit)).map (·.2)
  | none => none

/-- PASID of a berth in a port's translation cache; 2^20 is none, which berth 0 uses (R319). -/
def State.pasidOf (s : State) (b : Nat) : Nat := ((s.berth? b).bind (·.pasid)).getD (2 ^ 20)

/-- The device's own DEV_ID, if assigned (Table 11.6). -/
def State.ownDev (s : State) : Option Nat :=
  if s.rbit (ghBase 0 + 0x20000) 63 then some (s.rfld (ghBase 0 + 0x20000) 17 0) else none

/-- Translates a virtual address of a berth in a bank (R250 to R252). `phys` admits the physical form (R258). -/
def State.translate (s : State) (b : Nat) (bank : Bool) (va : Nat) (want : Want) (phys : Bool) : Xl × State :=
  if va ≥ 2 ^ 63 then
    if phys ∧ fld va 62 43 = 0 then (.ok (fld va 42 0), s) else (.fault 3, s)
  else if va ≥ 2 ^ 47 then (.fault 3, s)
  else match s.regionOf b bank va with
  | some r =>
    if want = .exec ∨ (want = .write ∧ !r.write) then (.fault 4, s)
    else if r.host then
      let iova := r.target + (va - r.base)
      match (s.cport r.dest).atc.find? fun t => t.pasid == s.pasidOf b && t.page == iova / 4096 with
      | some t =>
        if want = .write ∧ !t.write then (.fault 3, s)
        else (.ok ((1 + r.dest) * 2 ^ 70 + t.hpa * 4096 + iova % 4096), s)
      | none =>
        (.wait, s.modPort r.dest fun p => { p with
          atsReqs := if p.atsReqs.contains (s.pasidOf b, iova / 4096) then p.atsReqs
            else p.atsReqs ++ [(s.pasidOf b, iova / 4096)] })
    else if s.ownDev = some r.dest then (.fault 3, s)
    else (.ok (3 * 2 ^ 70 + r.dest * 2 ^ 43 + r.target + (va - r.base)), s)
  | none =>
    let key := (b * 2 + (if bank then 1 else 0)) * 2 ^ 31 + va / 0x10000
    let go (a : Nat) (w x : Bool) : Xl :=
      if (want = .write ∧ !w) ∨ (want = .exec ∧ !x) then .fault 4 else .ok (a + va % 0x10000)
    match NMap.get? s.bth.tlb key with
    | some e => (go (Word.fld e 42 16 * 0x10000) (Word.bit e 2) (Word.bit e 3), s)
    | none =>
      match State.walk 4 s 0 (s.rootOf b bank) va with
      | (none, s) => (.fault 3, s)
      | (some (a, w, x), s) =>
        (go a w x, s.modBth fun t => { t with
          tlb := NMap.put t.tlb key (BitVec.ofNat 64 (a + (if w then 4 else 0) + (if x then 8 else 0))) })

/-- Drops the TLB entries of a berth and bank (R251). -/
def State.tlbDrop (s : State) (b : Nat) (bank : Bool) : State :=
  s.modBth fun t => { t with tlb := NMap.keep t.tlb fun k _ => k / 2 ^ 31 != b * 2 + (if bank then 1 else 0) }

/-- Status of a fault cause (R142). -/
def causeStatus (cause : Nat) : Status :=
  let cls := match cause with | 1 => 6 | 4 => 4 | 10 => 4 | 12 => 4 | _ => 2
  BitVec.ofNat 16 (cls * 0x1000 + 0x100 + cause)

/-- Agent of a berth's own accesses. -/
def agentOf (b : Nat) : Agent := if b = 0 then .operator else .berth b

/-! ## Memory by global address -/

/-- Whether a global address is of this device's register space, a host, or a remote device. -/
def isReg (ga : Nat) : Bool := decide (0x70000000000 ≤ ga) && decide (ga < 0x80000000000)
/-- Whether a global address is a host address. -/
def isHost (ga : Nat) : Bool := decide (2 ^ 70 ≤ ga) && decide (ga < 3 * 2 ^ 70)
/-- Whether a global address is of a remote device. -/
def isRemote (ga : Nat) : Bool := decide (3 * 2 ^ 70 ≤ ga)

/-- A read of `n` bytes of host memory through its port's host cache (R320), asking the host for lines it does not hold. -/
def State.hostRead (s : State) (ga n : Nat) : Rd × State :=
  let port := ga / 2 ^ 70 - 1
  let a := ga % 2 ^ 70
  let p := s.cport port
  if p.lost ∨ !p.up then ({ st := 0x3C01, bytes := [], wait := false }, s)
  else
    let lines := sortNat ((List.range n).map fun i => (a + i) - (a + i) % 64)
    let byte (i : Nat) : Option CByte := match NMap.get? p.hcache ((a + i) - (a + i) % 64) with
      | some l => NMap.get? l.bytes ((a + i) % 64)
      | none => none
    if (List.range n).all fun i => (byte i).isSome then
      let bad := lines.any fun l => match NMap.get? p.hcache l with | some h => h.poison | none => false
      ({ st := if bad then 0x3C02 else 0
         bytes := (List.range n).map fun i => match byte i with | some c => c.val | none => 0, wait := false }, s)
    else ({ st := 0, bytes := [], wait := true }, lines.foldl (fun s l => s.hostAsk port l false) s)

/-- A read of `n` bytes within one sector by global address through die `d`. -/
def State.gaReadSec (s : State) (d : Nat) (r : Req) (ga n : Nat) (look : Bool) (u : Upset) : Rd × State :=
  if isHost ga then s.hostRead ga n
  else if isRemote ga ∨ isReg ga then ({ st := 0x4104, bytes := [], wait := false }, s)
  else match s.dramAddr d ga with
    | none => ({ st := 0x2201, bytes := [], wait := false }, s)
    | some pa =>
      let (rd, s) := s.basinRead d r (secOf pa) ((List.range n).map fun i => pa % 32 + i) look u
      ({ rd with bytes := (rd.bytes.drop (pa % 32)).take n }, s)

/-- The pieces of [a, a + n) that lie in one sector each, as (address, length). -/
def sectorPieces : Nat → Nat → Nat → List (Nat × Nat)
  | 0, _, _ => []
  | fuel + 1, a, n =>
    if n = 0 then []
    else
      let k := Nat.min n (32 - a % 32)
      (a, k) :: sectorPieces fuel (a + k) (n - k)

/-- Reads piece after piece; the first status that is no poison, or a wait, ends it. -/
def readPieces (f : State → Nat → Nat → Rd × State) : List (Nat × Nat) → State → Rd × State
  | [], s => ({ st := 0, bytes := [], wait := false }, s)
  | (a, n) :: t, s =>
    let (r, s) := f s a n
    if r.wait ∨ (r.st ≠ 0 ∧ r.st ≠ 0x3701 ∧ r.st ≠ 0x3707) then (r, s)
    else
      let (q, s) := readPieces f t s
      ({ st := if r.st ≠ 0 then r.st else q.st, bytes := r.bytes ++ q.bytes, wait := q.wait }, s)

/-- A write of bytes within one sector by global address, straight to its point of coherence (Table 6.1, barges and
harbour stores). -/
def State.gaWriteSec (s : State) (d : Nat) (r : Req) (ctx seq ga : Nat) (bytes : List Byte) (poison : Bool) :
    Status × Bool × State :=
  if isHost ga then
    let port := ga / 2 ^ 70 - 1
    if (s.cport port).lost ∨ !(s.cport port).up then (0x3C01, false, s)
    else
      let (_, s) := s.hostWrite port ((List.range bytes.length).map fun i => ((ga + i) % 2 ^ 70, byteAt bytes i))
      (0, false, s)
  else if isRemote ga ∨ isReg ga then (0x4104, false, s)
  else match s.dramAddr d ga with
    | none => (0x2201, false, s)
    | some pa =>
      s.homeWrite r ctx seq (secOf pa) ((List.range bytes.length).map fun i => (pa % 32 + i, byteAt bytes i)) poison

/-! ## Memory by virtual address, for lock-keepers and firmware -/

/-- Reads `n` bytes at a berth's virtual address as its agent, at the point of coherence (R332, R127). Translation failures
give 0x2103 and 0x4104. -/
def State.vaRead (s : State) (b va n : Nat) : Rd × State :=
  readPieces (fun s a k =>
    match s.translate b (s.activeBank b) a .read false with
    | (.ok ga, s) => s.gaReadSec (if isDram ga then homeOf ga else 0) (reqOf 76 (agentOf b)) ga k true {}
    | (.fault c, s) => ({ st := causeStatus c, bytes := [], wait := false }, s)
    | (.wait, s) => ({ st := 0, bytes := [], wait := true }, s)) (sectorPieces (n + 1) va n) s

/-- Writes piece after piece (address, bytes). The first failing status, or a wait for a host holder, ends it; pieces before
it stay written. -/
def writePieces (f : State → Nat → List Byte → Status × Bool × State) :
    List (Nat × List Byte) → State → Status × Bool × State
  | [], s => (0, false, s)
  | (a, bs) :: t, s =>
    match f s a bs with
    | (st, w, s) => if st ≠ 0 ∨ w then (st, w, s) else writePieces f t s

/-- The sector pieces of a write. -/
def writeList (a : Nat) (bytes : List Byte) : List (Nat × List Byte) :=
  (sectorPieces (bytes.length + 1) a bytes.length).map fun p => (p.1, (bytes.drop (p.1 - a)).take p.2)

/-- Writes bytes at a berth's virtual address as its agent. The Bool asks to try again once a holder has answered. -/
def State.vaWrite (s : State) (b va : Nat) (bytes : List Byte) : Status × Bool × State :=
  writePieces (fun s a bs => match s.translate b (s.activeBank b) a .write false with
    | (.ok ga, s) => s.gaWriteSec 0 (reqOf 76 (agentOf b)) 0 0 ga bs false
    | (.fault c, s) => (causeStatus c, false, s)
    | (.wait, s) => (0, true, s)) (writeList va bytes) s

/-- Reads `n` bytes at a device physical address as an agent. -/
def State.paRead (s : State) (a : Agent) (pa n : Nat) : Rd × State :=
  readPieces (fun s p k => s.gaReadSec (if isDram p then homeOf p else 0) (reqOf 76 a) p k true {})
    (sectorPieces (n + 1) pa n) s

/-- Writes bytes at a device physical address as an agent. -/
def State.paWrite (s : State) (a : Agent) (pa : Nat) (bytes : List Byte) : Status × Bool × State :=
  writePieces (fun s p bs => s.gaWriteSec 0 (reqOf 76 a) 0 0 p bs false) (writeList pa bytes) s

end Sys2Proof.Machine
end

