-- ==== Sys2Proof/Machine/Trace.lean ====
section
/-! DEFINITION. Trace buffers (R431, R432). -/

namespace Sys2Proof.Machine

/-- The cycle counter of a die that REGION names (Table 18.8): 0, 1 arithmetic west and east; 2, 3 fabric; 4 edge. -/
def State.cyc (s : State) (d region : Nat) : Nat := match region with
  | 0 => NMap.getD s.clk.arithW d 0
  | 1 => NMap.getD s.clk.arithE d 0
  | 2 => NMap.getD s.clk.fabW d 0
  | 3 => NMap.getD s.clk.fabE d 0
  | _ => NMap.getD s.clk.edge d 0

/-- FILTER's bit for a record type (R431). -/
def traceBit (typ : Nat) : Nat := match typ with
  | 1 => 0
  | 2 => 1
  | 3 => 1
  | 4 => 2
  | 5 => 2
  | 6 => 3
  | 7 => 4
  | 8 => 5
  | _ => 6

/-- A trace record with nothing but its type. -/
def TraceRec.blank (typ : Nat) : TraceRec :=
  { tEnd := 0, cycEnd := 0, tSpan := 0, cycSpan := 0, typ := typ, ldie := 0, unit := 0xFF, region := 4, ctx := 0, berth := 0,
    seq := 0, tag := 0, status := 0, data := [] }

/-- The 64 bytes of a record (Table 18.8). -/
def TraceRec.bytes (r : TraceRec) : List Byte :=
  bytesOf 8 r.tEnd ++ bytesOf 8 r.cycEnd ++ bytesOf 4 (Nat.min r.tSpan 0xFFFFFFFF) ++ bytesOf 4 (Nat.min r.cycSpan 0xFFFFFFFF) ++
  bytesOf 1 r.typ ++ bytesOf 1 r.ldie ++ bytesOf 1 r.unit ++ bytesOf 1 r.region ++ bytesOf 2 r.ctx ++ bytesOf 1 r.berth ++
  bytesOf 1 0 ++ bytesOf 8 r.seq ++ bytesOf 4 r.tag.toNat ++ bytesOf 4 r.status.toNat ++
  ((List.range 4).map fun i => bytesOf 4 (r.data.getD i 0).toNat).flatten

/-- Adds a record on a die, if its trace covers the berth and the type: a full buffer drops it, and the next one written is
preceded by a lost marker (R432). -/
def State.trace (s : State) (d : Nat) (r : TraceRec) : State :=
  match NMap.get? s.rel.traces d with
  | none => s
  | some t =>
    if !t.enabled ∨ !bitAt t.filter.toNat (traceBit r.typ) ∨ (t.berth ≠ 0 ∧ t.berth ≠ r.berth) then s
    else
      let r := { r with tEnd := s.clk.now, cycEnd := s.cyc d r.region, ldie := d }
      let mark : List TraceRec := if t.dropped = 0 then []
        else [{ TraceRec.blank 0xFF with tEnd := s.clk.now, cycEnd := s.cyc d 4, ldie := d, tSpan := t.dropped }]
      let t' : Trace := if t.recs.length + mark.length ≥ 256 then { t with lost := t.lost + 1, dropped := t.dropped + 1 }
        else { t with recs := t.recs ++ mark ++ [r], dropped := 0 }
      s.modRel fun x => { x with traces := NMap.put x.traces d t' }

/-- Writes a die's records to the trace's destination, and the header; a refused write disables the trace (R431, R432). -/
def State.traceDrain (s : State) (d : Nat) : State :=
  match NMap.get? s.rel.traces d with
  | none => s
  | some t =>
    if !t.enabled ∨ t.recs = [] then s
    else
      let cap := (t.bytes - 64) / 64
      let (bad, s) := (List.range t.recs.length).foldl (fun (a : Bool × State) i =>
        if a.1 then a
        else
          let r := t.recs.getD i (TraceRec.blank 0)
          let (st, _, s) := a.2.vaWrite t.berth (t.bufVa + 64 + 64 * ((t.written + i) % cap)) r.bytes
          (st != 0, s)) (false, s)
      let (st, _, s) := s.vaWrite t.berth t.bufVa (bytesOf 8 (t.written + t.recs.length) ++ bytesOf 8 t.lost)
      let t' : Trace := { t with
        recs := [], written := t.written + t.recs.length, enabled := !(bad || st != 0) }
      s.modRel fun x => { x with traces := NMap.put x.traces d t' }

end Sys2Proof.Machine
end

