-- ==== Sys2Proof/Machine/Cmd.lean ====
section
/-! DEFINITION. Threads, tickets, commands and completion counters: the operations that the thread, lock-keeper, tile and
mailbox families share, with taking a fault (R121 to R124) and stopping a command (R122, R356) among them. -/

namespace Sys2Proof.Machine

/-! ## Command entries (Table 5.3) -/

/-- Word `i` of a command entry. -/
def Cmd.word (c : Cmd) (i : Nat) : Word := c.words.toList.getD i 0
/-- OPCODE. -/
def Cmd.opcode (c : Cmd) : Nat := Word.fld (c.word 0) 15 0
/-- PRIORITY. -/
def Cmd.prio (c : Cmd) : Nat := Word.fld (c.word 0) 31 29
/-- FAULT_TO_HANDLER. -/
def Cmd.toHandler (c : Cmd) : Bool := Word.bit (c.word 0) 17
/-- REPLAYABLE. -/
def Cmd.replayable (c : Cmd) : Bool := Word.bit (c.word 0) 16
/-- OVERLAP. -/
def Cmd.overlap (c : Cmd) : Bool := Word.bit (c.word 0) 21
/-- OVF_MODE SAT. -/
def Cmd.sat (c : Cmd) : Bool := !Word.bit (c.word 0) 20
/-- ANCHOR_MODE. -/
def Cmd.anchorMode (c : Cmd) : Nat := Word.fld (c.word 0) 19 18
/-- STEAL. -/
def Cmd.steal (c : Cmd) : Bool := Word.bit (c.word 0) 22
/-- ENG_CLAIM. -/
def Cmd.claim (c : Cmd) : Nat := Word.fld (c.word 1) 63 48
/-- THR_PER_DIE. -/
def Cmd.threads (c : Cmd) : Nat := Word.fld (c.word 1) 41 32
/-- DIE_SET as a mask of 72 bits. -/
def Cmd.dieMask (c : Cmd) : Nat := (c.word 5).toNat + 2 ^ 64 * Word.fld (c.word 6) 7 0
/-- The dies of the set, rising. -/
def Cmd.dies (c : Cmd) : List Nat := bitsOf 72 c.dieMask

/-- Whether a command holds engines and threads: from its start to its end. -/
def Phase.holds : Phase → Bool
  | .running => true
  | .preempting => true
  | .restoring => true
  | .replayWait => true
  | .stopping => true
  | .prescan => true
  | _ => false

/-- Whether a command has started and is not complete (R129 counts it, as do the busy rules of R6). -/
def Phase.started : Phase → Bool
  | .taken => false
  | .ready => false
  | .scheduled => false
  | .roll => true
  | _ => true

/-- A command in flight. -/
def State.cmd? (s : State) (ctx seq : Nat) : Option Cmd := s.lk.cmds.find? fun c => c.ctx == ctx && c.seq == seq

/-- A context. -/
def State.ctx? (s : State) (ctx : Nat) : Option Context := NMap.get? s.lk.ctxs ctx

/-- Changes a context. -/
def State.modCtx (s : State) (ctx : Nat) (f : Context → Context) : State :=
  s.modLk fun l => { l with ctxs := NMap.alter l.ctxs ctx f }

/-- Commands running on a die: those that hold its engines or threads. -/
def State.cmdsOn (s : State) (d : Nat) : List Cmd := s.lk.cmds.filter fun c => c.phase.holds && bitAt c.dieMask d

/-- Whether any command runs on a die, the command boundary of class B fields (R6). -/
def State.dieBusy (s : State) (d : Nat) : Bool := !(s.cmdsOn d).isEmpty

/-- Whether any tile runs on a die, the tile boundary of class B fields. -/
def State.tileBusy (s : State) (d : Nat) : Bool := s.eng.eng.any fun e => e.2.tile.die == d

/-! ## Threads -/

/-- Key of a hardware thread (log entry 5). -/
def tidOf (die core thr : Nat) : Nat := (die * 32 + core) * 16 + thr
/-- Die of a hardware thread. -/
def dieOfThr (tid : Nat) : Nat := tid / 512
/-- Core key of a hardware thread. -/
def coreOfThr (tid : Nat) : Nat := tid / 16

/-- The thread on a hardware thread. -/
def State.thread? (s : State) (tid : Nat) : Option Thread := NMap.get? s.thr.threads tid

/-- Changes a thread. -/
def State.modThread (s : State) (tid : Nat) (f : Thread → Thread) : State :=
  s.modThr fun x => { x with threads := NMap.alter x.threads tid f }

/-- Integer register `r`; x0 reads zero. -/
def Thread.reg (t : Thread) (r : BitVec 5) : Word := if r = 0 then 0 else t.x.toList.getD r.toNat 0

/-- Writes integer register `r`; x0 discards. -/
def Thread.setReg (t : Thread) (r : BitVec 5) (w : Word) : Thread :=
  if r = 0 then t else { t with x := t.x.setIfInBounds r.toNat w }

/-- Retires the instruction in progress: the pc moves on by its length (4, or 2 for a compressed one) and instret counts. -/
def Thread.retire (t : Thread) (len : Nat) : Thread := { t with pc := t.pc + BitVec.ofNat 64 len, instret := t.instret + 1 }

/-- A new thread at a program address (R95): every other register zero, vtype with vill set. -/
def Thread.start (uid berth ctx seq ktid ktcnt : Nat) (harbour handler convoy : Bool) (pc a0 : Word) : Thread :=
  let t : Thread :=
    { uid := uid, berth := berth, ctx := ctx, seq := seq, harbour := harbour, handler := handler, convoy := convoy
      ktid := ktid, ktcnt := ktcnt, pc := pc, x := Vector.replicate 32 0, f := Vector.replicate 32 0
      v := Vector.replicate 32 0, vtype := 0x8000000000000000, vl := 0, vstart := 0, vcsr := 0, fcsr := 0, instret := 0, kticket := 0, kflt := 0
      wait := .none, frozen := false, bank := false, ilen := 4 }
  ((t.setReg 10 a0).setReg 11 (BitVec.ofNat 64 ktid)).setReg 12 (BitVec.ofNat 64 ktcnt)

/-- Counts an issued instruction of a thread (Table 18.2, Table 18.4). -/
def State.countIssue (s : State) (tid : Nat) (t : Thread) : State :=
  let s := ((s.cnt (dieOfThr tid) 8 1).pmc (dieOfThr tid) 0x10 1 (some t.berth))
  s.modCmd t.ctx t.seq fun c => { c with counts := { c.counts with issue := c.counts.issue + 1 } }

/-! ## Tickets (R101) -/

/-- A thread's tickets that have not completed. -/
def State.openTickets (s : State) (uid : Nat) : List Ticket := s.thr.tickets.filter fun k => k.uid == uid && !k.done

/-- Issues a thread's next ticket into `rd` and retires the instruction. -/
def State.issueTicket (s : State) (tid : Nat) (t : Thread) (rd : BitVec 5) : Nat × State :=
  let n := t.kticket + 1
  let s := s.modThr fun x => { x with
    tickets := x.tickets ++ [{ uid := t.uid, ctx := t.ctx, seq := t.seq, num := n, done := false, status := 0, flags := 0,
                               reported := false }] }
  (n, s.modThread tid fun t => ({ t with kticket := n }.setReg rd (BitVec.ofNat 64 n)).retire 4)

/-- Marks a ticket complete. -/
def State.endTicket (s : State) (uid num : Nat) (st : Status) (fl : BitVec 16) : State :=
  s.modThr fun x => { x with
    tickets := x.tickets.map fun k => if k.uid == uid && k.num == num then { k with done := true, status := st, flags := fl }
      else k }

/-! ## Stopping, failing and replaying commands (R122, R356) -/

/-- Stops a command's threads and cancels its tiles that have not started, with their tickets. -/
def State.stopWork (s : State) (ctx seq : Nat) : State :=
  let mine (q : Tile) : Bool := q.ctx == ctx && q.seq == seq
  let gone := (s.eng.tileq ++ s.eng.reruns).filter mine
  let s := s.modThr fun x => { x with
    threads := NMap.keep x.threads fun _ t => !(t.ctx == ctx && t.seq == seq && !t.handler)
    tickets := x.tickets.filter fun k => !(gone.any fun q => q.uid == k.uid && q.ticket == k.num) }
  let s := s.modLk fun l => { l with
    spills := l.spills.map fun p => if p.ctx == ctx && p.seq == seq then { p with threads := [] } else p }
  s.modEng fun e => { e with
    tileq := e.tileq.filter fun q => !mine q
    reruns := e.reruns.filter fun q => !mine q
    copies := e.copies.filter fun q => !mine q.tile
    xfers := e.xfers.map fun x => if x.ctx == ctx && x.seq == seq then { x with paused := false } else x }

/-- Fails a command with the status of its first failure: its threads are stopped, its unstarted tiles cancelled, and what
has started finishes before COMMAND_COMPLETE (R122). -/
def State.failCmd (s : State) (ctx seq : Nat) (st : Status) : State :=
  match s.cmd? ctx seq with
  | none => s
  | some c =>
    if c.failed then s
    else
      let s := s.stopWork ctx seq
      s.modCmd ctx seq fun c => { c with
        failed := true, status := st
        phase := match c.phase with | .roll => .roll | .preempted => .preempted | _ => .stopping }

/-- Stops a command for a replay, or fails it with the trigger's status where it is not REPLAYABLE or has been replayed three
times (R356). A replay that runs as a check replay ends with 0x3704 on a disagreement, which the caller decides. -/
def State.replayCmd (s : State) (ctx seq : Nat) (st : Status) (check : Bool) : State :=
  match s.cmd? ctx seq with
  | none => s
  | some c =>
    if c.failed ∨ c.trigger ≠ 0 then s
    else if !c.replayable ∨ c.replays ≥ 3 then s.failCmd ctx seq st
    else
      let s := s.stopWork ctx seq
      s.modCmd ctx seq fun c => { c with
        phase := match c.phase with | .preempting => .preempting | .preempted => .preempted | _ => .replayWait
        trigger := st, check := check, heldAt := s.clk.now }

/-- Whether poison at a thread's address comes from a guard-mode page, which a repair replay answers (R356, R360). -/
def State.guardAt (s : State) (tid : Nat) (t : Thread) (va : Nat) : Bool :=
  match (s.translate t.berth t.bank va .read false).1 with
  | .ok ga => (match s.dramAddr (dieOfThr tid) ga with
    | some pa => (s.pot (pa / 0x10000)).guard
    | none => false)
  | _ => false

/-! ## Faults (R121 to R124) -/

/-- The fault cause that a failed ticket's status maps to: the causes of Table 4.6 by their formula, else TICKET (R142). -/
def ticketCause (st : Status) : Nat :=
  if st = 0x2103 then 3 else if st = 0x4104 then 4 else if st = 0x410A then 10 else if st = 0x210B then 11 else 8

/-- The 64 bytes of a fault record (Table 4.7). -/
def FaultRec.bytes (f : FaultRec) : List Byte :=
  let core := coreOfThr f.tid % 32
  bytesOf 8 f.id ++ bytesOf 8 f.time ++ bytesOf 8 f.pc.toNat ++ bytesOf 8 f.va.toNat ++ bytesOf 2 f.cause ++
  bytesOf 2 f.status.toNat ++ bytesOf 2 f.ctx ++ bytesOf 1 (dieOfThr f.tid) ++
  bytesOf 1 ((core % 16) * 16 + f.tid % 16) ++ bytesOf 1 (core / 16) ++ bytesOf 7 0 ++ bytesOf 8 f.seq ++ bytesOf 8 f.tag.toNat

/-- Whether a berth's fault queue takes a record (R123, R340): a berth without a queue counts as full. -/
def State.faultRoom (s : State) (b : Nat) : Bool :=
  match s.berth? b with
  | some e => decide (e.faultq.length < e.faultqSize)
  | none => false

/-- Writes a record to a berth's fault queue and wakes the handler thread (R122). The record's place in memory is the ring
slot of its identifier (log entry 22). -/
def State.queueFault (s : State) (b : Nat) (mk : Nat → FaultRec) : State :=
  let id := s.fresh
  let s := s.drawn 1
  match s.berth? b with
  | none => s
  | some e =>
    let r := mk id
    let s := s.modBerth b fun e => { e with faultq := e.faultq ++ [r] }
    let s := if e.faultqVa = 0 ∨ e.faultqSize = 0 then s
      else (s.vaWrite b (e.faultqVa + 64 * (id % e.faultqSize)) r.bytes).2.2
    match e.handlerTid with
    | some h => s.modThread h fun t =>
        if t.wait = .handlerIdle then { t with wait := .none, kflt := BitVec.ofNat 64 id } else t
    | none => s

/-- A fault's trace record (Table 18.8). -/
def State.traceFault (s : State) (d unit ctx berth seq : Nat) (tag : BitVec 32) (st : Status) : State :=
  s.trace d { TraceRec.blank 7 with unit := unit, ctx := ctx, berth := berth, seq := seq, tag := tag, status := st }

/-- A fault of the handler thread itself (R123): every command with a fault in the queue fails with class 2, and the handler
restarts at its entry point. -/
def State.handlerFault (s : State) (b h cause : Nat) : State :=
  match s.berth? b with
  | none => s
  | some e =>
    let s := e.faultq.foldl (fun s r => s.failCmd r.ctx r.seq (BitVec.ofNat 16 (0x2100 + cause))) s
    let s := s.modBerth b fun e => { e with faultq := [] }
    s.modThread h fun t => { t with pc := e.handlerEntry.getD 0, wait := .handlerIdle, kflt := 0 }

/-- Takes a synchronous fault of a thread (R121, R122): the record and the handler where the command asks for them and the
queue has room, else the command fails. -/
def State.raise (s : State) (tid : Nat) (cause va : Nat) (st : Status) : State :=
  match s.thread? tid with
  | none => s
  | some t =>
    if t.handler then s.handlerFault t.berth tid cause
    else
      let s := s.traceFault (dieOfThr tid) (coreOfThr tid % 32) t.ctx t.berth t.seq 0 st
      let toH := match s.cmd? t.ctx t.seq with | some c => c.toHandler | none => false
      if toH && s.faultRoom t.berth then
        let s' := s.queueFault t.berth fun id =>
          { id := id, time := s.clk.now, pc := t.pc, va := BitVec.ofNat 64 va, cause := cause, status := st, ctx := t.ctx
            seq := t.seq, tid := tid, uid := t.uid, tag := 0, sync := true }
        s'.modThread tid fun t => { t with wait := .fault s.fresh }
      else s.failCmd t.ctx t.seq st

/-- A synchronous fault with the status of its cause (R142). -/
def State.raiseC (s : State) (tid cause va : Nat) : State := s.raise tid cause va (causeStatus cause)

/-- A failed access of a thread's own instruction: translation and ownership failures raise their fault, poison stops the
command whatever FAULT_TO_HANDLER says (R360, R366), a lost port replays a REPLAYABLE one (R328), other statuses raise
ACCESS with that status in the record (R297, R328). -/
def State.raiseSt (s : State) (tid va : Nat) (st : Status) : State :=
  match s.thread? tid with
  | none => s
  | some t =>
    let again : Bool := match s.cmd? t.ctx t.seq with | some c => c.replayable | none => false
    if st = 0x3707 ∨ (st = 0x3701 ∧ s.guardAt tid t va) ∨ (st = 0x3C01 ∧ again) then s.replayCmd t.ctx t.seq st false
    else if st = 0x3701 then s.failCmd t.ctx t.seq st
    else if st = 0x2103 then s.raise tid 3 va st
    else if st = 0x210B then (s.cnt (dieOfThr tid) 5 1).raise tid 11 va st
    else s.raise tid 4 va st

/-- An asynchronous failure of a command (R121, R122). A quarantined page holds it for a repair replay or fails it (R366); a
lost port or poison of a guard-mode page (`guard`) replays it where it is REPLAYABLE (R356). `num` is the ticket, or 0. -/
def State.asyncFault (s : State) (tid uid ctx seq num : Nat) (st : Status) (tag : BitVec 32) (guard : Bool) : State :=
  match s.cmd? ctx seq with
  | none => s
  | some c =>
    let s := s.traceFault (dieOfThr tid) 0xFF ctx c.berth seq tag st
    if st = 0x3707 ∨ (c.replayable ∧ (st = 0x3C01 ∨ (st = 0x3701 ∧ guard))) then s.replayCmd ctx seq st false
    else if c.toHandler && s.faultRoom c.berth then
      s.queueFault c.berth fun id =>
        { id := id, time := s.clk.now, pc := BitVec.ofNat 64 num, va := 0, cause := ticketCause st, status := st, ctx := ctx
          seq := seq, tid := tid, uid := uid, tag := tag, sync := false }
    else s.failCmd ctx seq st

/-- A ticket completes (R104). A failure is an asynchronous fault of its command. -/
def State.closeTicket (s : State) (tid uid ctx seq num : Nat) (st : Status) (fl : BitVec 16) (tag : BitVec 32)
    (guard : Bool) : State :=
  let s := s.endTicket uid num st fl
  if st.toNat / 0x1000 < 2 then s else s.asyncFault tid uid ctx seq num st tag guard

/-! ## Completion counters (R145, R146) -/

/-- A counter's value. -/
def Context.ctr (c : Context) (j : Nat) : Word := c.ctrs.toList.getD j 0

/-- Whether wait `k` of a command names counter (ctx, j) and its threshold is reached by `v` (R137). -/
def Cmd.waitMet (c : Cmd) (k ctx j : Nat) (v : Word) : Bool :=
  let id := Word.fld (c.word 7) (16 * k + 15) (16 * k)
  bitAt id 15 && fld id 13 4 == ctx && fld id 3 0 == j && decide ((c.word (8 + k)).toNat ≤ v.toNat)

/-- Marks the waits that a counter's value meets; a met wait stays met (R137, R146). -/
def State.evalWaits (s : State) (ctx j : Nat) (v : Word) : State :=
  s.modLk fun l => { l with
    cmds := l.cmds.map fun c =>
      if c.phase == .taken || c.phase == .roll then
        { c with met := c.met ||| BitVec.ofNat 4 (maskOf ((List.range 4).filter fun k => c.waitMet k ctx j v)) }
      else c }

/-- Adds to a counter modulo 2^64 and re-evaluates the waits on it. -/
def State.addCtr (s : State) (ctx j : Nat) (inc : Word) : State :=
  match s.ctx? ctx with
  | none => s
  | some c =>
    let v := c.ctr j + inc
    (s.modCtx ctx fun c => { c with ctrs := c.ctrs.setIfInBounds j v }).evalWaits ctx j v

/-! ## Accounts (R273) -/

/-- Changes a berth's account; berth 0's is the operator's. -/
def State.modAccount (s : State) (b : Nat) (f : Account → Account) : State :=
  if b = 0 then s.modBth fun x => { x with opAccount := f x.opAccount }
  else s.modBerth b fun e => { e with account := f e.account }

end Sys2Proof.Machine
end

