-- ==== Sys2Proof/Machine/Ops.lean ====
section
/-! DEFINITION. The shape that every meaning has, and the REFCLK edge that an idle step is. -/

namespace Sys2Proof.Machine

/-- What a command answers. -/
abbrev Out := Host.Outcome State Fault Refusal

/-- Goes on where a command can occur; else the named fault. -/
def need (b : Bool) (f : Fault) (k : Out) : Out := if b then k else .fault f

/-- Goes on with a value that is there; else the named fault. -/
def needSome {α : Type} (o : Option α) (f : Fault) (k : α → Out) : Out := match o with
  | some a => k a
  | none => .fault f

/-- Nanoseconds that a slew adds at its edge number `k` of 100,000, spaced evenly (R388). -/
def slewAt (slew : Int) (k : Nat) : Int :=
  let n := slew.natAbs
  if k * n / 100000 > (k - 1) * n / 100000 then (if slew < 0 then -1 else 1) else 0

/-- The time base at one REFCLK edge (R387, R388): 10 ns, a slew's nanosecond, nothing while a backward step holds. -/
def ClockSt.edgeTime (c : ClockSt) : ClockSt :=
  let k := c.slewEdge + 1
  let d : Nat := (10 + slewAt c.slew k).toNat
  { c with
    now := c.now + (d - c.hold)
    hold := c.hold - d
    slew := if k ≥ 100000 then 0 else c.slew
    slewEdge := if c.slew = 0 ∨ k ≥ 100000 then 0 else k }

/-- Adds to a 64-bit cycle counter, modulo 2^64. -/
def cycAdd (m : NMap Nat) (d n : Nat) : NMap Nat := NMap.put m d ((NMap.getD m d 0 + n) % 2 ^ 64)

/-- The cycle counters of a die at one REFCLK edge (R390): the effective ratio in pulses, 24 fabric cycles or 12 in economy,
24 edge cycles; none of an arithmetic region whose clock is stopped (R371). -/
def State.dieEdge (s : State) (d : Nat) : State :=
  let st := s.reg (dieBase d + 0x308)
  let ct := s.reg (dieBase d + 0x300)
  let w := if NMap.has s.eng.arithStopped (d * 2) then 0 else Word.fld st 41 36
  let e := if NMap.has s.eng.arithStopped (d * 2 + 1) then 0 else Word.fld st 47 42
  s.modClk fun c => { c with
    arithW := cycAdd c.arithW d w
    arithE := cycAdd c.arithE d e
    fabW := cycAdd c.fabW d (if Word.bit ct 49 then 12 else 24)
    fabE := cycAdd c.fabE d (if Word.bit ct 50 then 12 else 24)
    edge := cycAdd c.edge d 24 }

/-- Whether a forcing holds the regions of a die at ratio 12 (R379, R383); a module stop does too (R381). -/
def State.forced (s : State) (d : Nat) : Bool :=
  s.rbit (dieBase d + 0x308) 17 || s.rbit (dieBase d + 0x308) 18 || s.rbit (dieBase d + 0x308) 19 || s.pwr.stopping

/-- The ratio that a region runs at (Table 15.4): 12 while forced, else its ACTIVE_RATIO under the ceilings of the return from
forcing (R379) and of a droop (R376). -/
def State.effNow (s : State) (d : Nat) (east : Bool) : Nat :=
  let c := dieBase d + 0x300
  let act := if east then s.rfld c 35 30 else s.rfld c 29 24
  let ramp := match NMap.get? s.pwr.ramp d with | some (_, n) => n | none => 63
  let droop := NMap.getD s.pwr.droopCeil (d * 2 + (if east then 1 else 0)) 63
  if s.forced d then 12 else Nat.min act (Nat.min ramp droop)

/-- Recomputes the delivered ratios of a die. -/
def State.effSet (s : State) (d : Nat) : State :=
  (s.setRfld (dieBase d + 0x308) 41 36 (s.effNow d false)).setRfld (dieBase d + 0x308) 47 42 (s.effNow d true)

/-- The return from forcing at a REFCLK edge (R379): 2 steps when the die's millisecond is over, until it meets ACTIVE_RATIO. -/
def State.rampStep (s : State) (d : Nat) : State :=
  match NMap.get? s.pwr.ramp d with
  | none => s
  | some (t, n) =>
    if s.clk.now < t then s
    else
      let c := dieBase d + 0x300
      let done := n + 2 ≥ Nat.max (s.rfld c 35 30) (s.rfld c 29 24)
      let s := s.modPwr fun p => { p with
        ramp := if done then NMap.erase p.ramp d else NMap.put p.ramp d (t + 1000000, n + 2) }
      s.effSet d

/-- The return from a droop at a REFCLK edge (R376): 4 steps each 10 ns, until the region meets the ratio otherwise in effect. -/
def State.droopStep (s : State) (region : Nat) : State :=
  match NMap.get? s.pwr.droopCeil region with
  | none => s
  | some n =>
    if NMap.has s.pwr.droopSince region then s
    else
      let c := dieBase (region / 2) + 0x300
      let act := if region % 2 = 1 then s.rfld c 35 30 else s.rfld c 29 24
      let s := s.modPwr fun p => { p with
        droopCeil := if n + 4 ≥ act then NMap.erase p.droopCeil region else NMap.put p.droopCeil region (n + 4) }
      s.effSet (region / 2)

/-- One REFCLK edge with no command waiting (log entry 1): the time base and the cycle counters advance, regions return from
forcing and droop, and the oldest queued reduction update is applied (R197). Without standby power nothing happens (R438). -/
def State.tick (s : State) : State :=
  if !s.pwr.standbyGood then s
  else
    let s := s.modClk ClockSt.edgeTime
    let s := if s.pwr.boot = .stopped then s else s.diesIn.foldl State.dieEdge s
    let s := (NMap.keys s.pwr.ramp).foldl State.rampStep s
    let s := (NMap.keys s.pwr.droopCeil).foldl State.droopStep s
    match s.basin.updq with
    | [] => s
    | q :: _ => s.drainOne q.die q.slice

end Sys2Proof.Machine
end

