-- ==== Sys2Proof/Machine/Errors.lean ====
section
/-! DEFINITION. Detections on engines, cores and dies: their tallies and signatures (R362, R368, R452), and the retirements
that follow (R364, R372). -/

namespace Sys2Proof.Machine

/-- Whether a slot of a site is retired or failed test: kind 0 engine, 1 core (R20, R372, R412). -/
def State.slotBad (s : State) (kind site slot : Nat) : Bool :=
  s.rel.retired.contains (kind, site, slot) ||
  (kind == 0 && s.rfld (s.canon (siteBase site + 0x310)) (3 * slot + 2) (3 * slot) == 7)

/-- The spare position of a unit's row: one that runs no logical unit of the row, is sound, and is no other copy's target. -/
def State.spareOf (s : State) (d : Nat) (core : Bool) (lunit : Nat) : Option Nat :=
  let per := if core then 8 else 4
  let row := lunit / per
  let site := s.siteNum d
  (List.range (per + 1)).find? fun p =>
    (List.range per).all (fun i => (if core then s.corePos d (row * per + i) else s.engPos d (row * per + i)) != p) &&
    !s.slotBad (if core then 1 else 0) site (row * (per + 1) + p) &&
    s.rel.retiring.all fun q => !(q.1 == d && q.2.1 == core && q.2.2.1 / per == row && q.2.2.2 == p)

/-- Writes the map field of a logical unit (Tables 1.3 and 1.4). -/
def State.setUnitPos (s : State) (d : Nat) (core : Bool) (lunit pos : Nat) : State :=
  if core then s.setRfld (dieBase d + 0x108 + (lunit / 16) * 8) (4 * (lunit % 16) + 3) (4 * (lunit % 16)) pos
  else s.setRfld (dieBase d + 0x100) (3 * lunit + 2) (3 * lunit) pos

/-- The grade of a region: the lowest of the slots that run its logical engines (R372); 46 where it runs none. -/
def State.regionGrade (s : State) (d : Nat) (east : Bool) : Nat :=
  minNat ((((List.range 8).map fun j => j + (if east then 8 else 0)).filterMap (s.engSlot d)).map fun k =>
    40 + s.rfld (dieBase d + 0x310) (3 * k + 2) (3 * k)) 46

/-- Recomputes a region's grade and lowers its limit and ratios to it in the same cycle (R372). -/
def State.regrade (s : State) (d : Nat) (east : Bool) : State :=
  let g := s.regionGrade d east
  let c := dieBase d + 0x300
  let st := dieBase d + 0x308
  let (gl, ll, rl, el) := if east then (30, 42, 30, 42) else (24, 36, 24, 36)
  let cap (a lo : Nat) (s : State) : State := s.setRfld a (lo + 5) lo (Nat.min (s.rfld a (lo + 5) lo) g)
  cap st el (cap c rl (cap c ll (s.setRfld st (gl + 5) gl g)))

/-- Whether a logical unit's copy to its spare is under way, so that nothing is dispatched to it (R364). -/
def State.isRetiring (s : State) (d : Nat) (core : Bool) (lunit : Nat) : Bool :=
  s.rel.retiring.any fun q => q.1 == d && q.2.1 == core && q.2.2.1 == lunit

/-- Retires a logical engine or core (R364): the copy to its row's spare starts and a core's threads are suspended; with no
spare its map field becomes 7 or 0xF, running commands that claim it fail with 0x3002 and die repair is requested. -/
def State.retireUnit (s : State) (d : Nat) (core : Bool) (lunit : Nat) : State :=
  let slot := if core then s.coreSlot d lunit else s.engSlot d lunit
  match slot with
  | none => s
  | some k =>
    let s := s.modRel fun r => { r with
      retired := if r.retired.contains (if core then 1 else 0, s.siteNum d, k) then r.retired
        else r.retired ++ [(if core then 1 else 0, s.siteNum d, k)] }
    match s.spareOf d core lunit with
    | some p =>
      let s := s.modRel fun r => { r with retiring := r.retiring ++ [(d, core, lunit, p)] }
      if core then s.modThr fun x => { x with
        threads := NMap.mapV x.threads fun tid t => if coreOfThr tid == d * 32 + lunit then { t with frozen := true } else t }
      else s
    | none =>
      let s := s.setUnitPos d core lunit (if core then 15 else 7)
      let s := if core then s else s.regrade d (decide (lunit ≥ 8))
      let hit (c : Cmd) : Bool := if core then s.thr.threads.any fun e => coreOfThr e.1 == d * 32 + lunit && e.2.ctx == c.ctx &&
          e.2.seq == c.seq
        else bitAt c.claim lunit
      let s := ((s.cmdsOn d).filter hit).foldl (fun s c => s.failCmd c.ctx c.seq 0x3002) s
      s.askRepair d

/-- The logical unit that a slot of a die runs. -/
def State.unitAt (s : State) (d : Nat) (core : Bool) (slot : Nat) : Option Nat :=
  if core then (List.range 32).find? fun g => s.coreSlot d g == some slot
  else (List.range 16).find? fun j => s.engSlot d j == some slot

/-- A detection on a slot of a die's site: tally, signature, and the retirement that a full tally starts (R362 to R364,
R452). `sig` gives the status, action, severity and work of the detection. -/
def State.detectUnit (s : State) (d : Nat) (core : Bool) (slot mech : Nat) (sig : Sig) : State :=
  let k : UnitKey := (if core then 1 else 0, s.siteNum d, slot, 0)
  let (s, full) := s.tally k mech
  let lu := s.unitAt d core slot
  let east := match lu with | some j => decide (j ≥ (if core then 16 else 8)) | none => false
  let g : Sig := { sig.onDie s d east with
    mech := mech, unitKind := if core then 1 else 0, unitIndex := slot, logical := lu.getD 0xFF
    tally := s.tallyCount k, times := s.tallyTimes k }
  let s := s.sign g
  if full then
    let s := s.sign { g with status := 0, action := 5, severity := 1 }
    match lu with
    | some j => s.retireUnit d core j
    | none => s.modRel fun r => { r with retired := r.retired ++ [(if core then 1 else 0, s.siteNum d, slot)] }
  else s

/-- Counts a detection on an engine slot of a site (site x 20 + slot) whose signature stands already (R363); a full tally
retires it. -/
def State.tallySlot (s : State) (d key mech : Nat) (sig : Sig) : State :=
  let k : UnitKey := (0, key / 20, key % 20, 0)
  let (s, full) := s.tally k mech
  if full then
    let lu := if key / 20 = s.siteNum d then s.unitAt d false (key % 20) else none
    let s := s.sign { sig.onDie s d (decide (lu.getD 0 ≥ 8)) with
      site := key / 20, mech := mech, unitKind := 0, unitIndex := key % 20, logical := lu.getD 0xFF, tally := s.tallyCount k
      times := s.tallyTimes k, status := 0, action := 5, severity := 1 }
    match lu with
    | some j => s.retireUnit d false j
    | none => s.modRel fun r => { r with retired := r.retired ++ [(0, key / 20, key % 20)] }
  else s

/-- A signature of a detection on an engine slot that adds to no tally yet (R355, R363). -/
def State.signSlot (s : State) (d key mech : Nat) (sig : Sig) : State :=
  let k : UnitKey := (0, key / 20, key % 20, 0)
  let lu := s.unitAt d false (key % 20)
  s.sign { sig.onDie s d (decide (lu.getD 0 ≥ 8)) with
    site := key / 20, mech := mech, unitKind := 0, unitIndex := key % 20, logical := lu.getD 0xFF, tally := s.tallyCount k
    times := s.tallyTimes k }

/-- A detection on a die's shared structures (directory, lock-keeper and barge buffers): a full tally starts die repair. -/
def State.detectDie (s : State) (d mech : Nat) (sig : Sig) : State :=
  let k : UnitKey := (2, s.siteNum d, 0, 0)
  let (s, full) := s.tally k mech
  let g : Sig := { sig.onDie s d false with
    mech := mech, unitKind := 2, unitIndex := s.siteNum d, tally := s.tallyCount k, times := s.tallyTimes k }
  let s := s.sign g
  if full then (s.sign { g with status := 0, action := 5, severity := 1 }).askRepair d else s

/-- CMD_HASH of a command (Table 14.3): SHA-384 over its entry with SEQ zeroed and the anchor in effect. -/
def Cmd.hash (c : Cmd) : BitVec 128 :=
  let bytes := ((List.range 16).map fun i => bytesOf 8 (if i = 0 then (c.word 0).toNat % 2 ^ 32 else (c.word i).toNat)).flatten ++
    bytesOf 2 (ofSigned 16 (c.anchor.getD 0))
  BitVec.ofNat 128 ((Config.sha384 bytes).toNat / 2 ^ 256)

/-- The fields of a signature about a command. -/
def Sig.onCmd (g : Sig) (c : Cmd) : Sig :=
  { g with ctx := c.ctx, berth := c.berth, cmdSeq := c.seq, cmdHash := c.hash }

/-- The fields of a signature about a tile (Table 14.3, Table 3.3). -/
def Sig.onTile (g : Sig) (s : State) (q : Tile) : Sig :=
  let w (i : Nat) : Word := q.desc.toList.getD i 0
  let g := match s.cmd? q.ctx q.seq with | some c => g.onCmd c | none => { g with ctx := q.ctx, cmdSeq := q.seq }
  { g with
    tileTag := BitVec.ofNat 32 (Word.fld (w 7) 31 0), mOff := BitVec.ofNat 32 (Word.fld (w 2) 31 0)
    nOff := BitVec.ofNat 32 (Word.fld (w 2) 63 32), kOff := BitVec.ofNat 32 (Word.fld (w 1) 63 32) }

end Sys2Proof.Machine
end

