-- ==== Sys2Proof/Machine/Dir.lean ====
section
/-! DEFINITION. The directory protocol of tracked and leased lines (R184 to R195): requests at the home, answers of holders,
installs at requesters, and near atomics. -/

namespace Sys2Proof.Machine

/-! ## At the home -/

/-- The current 128 bytes of a line at its home, as (offset, byte), with its poisoned sectors. -/
def State.homeLine (s : State) (line : Nat) (alloc : Bool) (u : Upset) : List (Nat × Byte) × List Nat × State :=
  (List.range 4).foldl (fun (acc : List (Nat × Byte) × List Nat × State) k =>
    let sa := line + 32 * k
    let (rd, s) := acc.2.2.homeSector sa (List.range 32) alloc u
    (acc.1 ++ ((List.range 32).map fun i => (32 * k + i, byteAt rd.bytes i)),
     if rd.st = 0 then acc.2.1 else acc.2.1 ++ [k], s)) ([], [], s)

/-- Sends a line's data from its home to a die. -/
def State.sendData (s : State) (kind : MsgKind) (line dst : Nat) (u : Upset) : State :=
  let (bs, pz, s) := (s.drainLine line).homeLine line true u
  s.send { Msg.bare kind dst (homeOf line) line with
    bytes := bs, poison := pz, status := if pz = [] then 0 else 0x3701 }

/-- Refuses a request for now (R187). -/
def State.nackTo (s : State) (line node : Nat) : State := s.send (Msg.bare .nack node (homeOf line) line)

/-- Refuses a request with a status (R186). -/
def State.errTo (s : State) (line node : Nat) (st : Status) : State :=
  s.send { Msg.bare .err node (homeOf line) line with status := st }

/-- An entry with no holder. -/
def DirEnt.empty : DirEnt :=
  { state := .shared, sharers := [], hs0 := false, hs1 := false, watch := false, pin := false, lease := false, leasedAt := 0,
    lru := 0, txn := none }

/-- Writes a directory entry and makes it the most recently used. -/
def State.putDir (s : State) (line : Nat) (e : DirEnt) : State :=
  s.modBasin fun b => { b with stamp := b.stamp + 1, dir := NMap.put b.dir line { e with lru := b.stamp } }

/-- The directory entries in the set of a line (R185). -/
def State.dirSet (s : State) (line : Nat) : NMap DirEnt :=
  NMap.keep s.basin.dir fun l _ => homeOf l == homeOf line && chanOf l == chanOf line && dirSetOf l == dirSetOf line

/-- The lines of a slice that are in B (R187). -/
def State.busyLines (s : State) (line : Nat) : Nat :=
  (s.basin.dir.filter fun e => homeOf e.1 == homeOf line && chanOf e.1 == chanOf line && e.2.state == .busy).length

/-- The nodes that hold a line by an entry. -/
def DirEnt.holders (e : DirEnt) : List Nat :=
  (match e.state with | .owned n => [n] | _ => e.sharers) ++ (if e.hs0 then [72] else []) ++ (if e.hs1 then [73] else [])

/-- Puts a line in B while holders answer: Inv or a back-invalidate snoop to each. -/
def State.startInv (s : State) (line : Nat) (e : DirEnt) (r : Req) (kind : Nat) (targets : List Nat) : State :=
  let s := targets.foldl (fun s n =>
    s.send { Msg.bare (if n < 72 then .inv else .biSnpInv) n (homeOf line) line with fwdTo := r.node }) s
  s.putDir line { e with state := .busy, txn := some { req := r, kind := kind, await := targets, absorbed := false } }

/-- Puts a line in B while its owner answers a forward. -/
def State.startFwd (s : State) (line : Nat) (e : DirEnt) (r : Req) (kind owner : Nat) (msg : MsgKind) (fwdTo : Nat) : State :=
  let m := if owner < 72 then msg else if msg = .fwdS ∨ msg = .snpCur then .biSnpShared else .biSnpInv
  let s := s.send { Msg.bare m owner (homeOf line) line with fwdTo := fwdTo }
  s.putDir line { e with state := .busy, txn := some { req := r, kind := kind, await := [owner], absorbed := false } }

/-- A directory entry with a parity error (R191): S with every die and both host bits, SnpCur and Inv to all holders. -/
def State.dirRebuild (s : State) (line : Nat) : State :=
  let e := NMap.getD s.basin.dir line DirEnt.empty
  let all := (List.range 72).filter s.present
  let s := s.cnt (homeOf line) 17 1
  let s := match e.txn with
    | some t => if t.kind ≤ 2 then s.nackTo line t.req.node else s
    | none => s
  let s := all.foldl (fun s n => s.send { Msg.bare .snpCur n (homeOf line) line with fwdTo := 100 }) s
  s.startInv line { e with sharers := all, hs0 := true, hs1 := true } (reqOf 76 .firmware) 4 (all ++ [72, 73])

/-- Removes a request from its slice's starvation queue once it is granted. -/
def State.unstarve (s : State) (line node : Nat) : State :=
  let k := homeOf line * 64 + chanOf line
  s.modBasin fun b => { b with
    starve := NMap.put b.starve k ((NMap.getD b.starve k []).filter fun q => q != (line, node)) }

/-- Whether a request must yield to a starving one for its line (R188). -/
def State.yields (s : State) (line node : Nat) : Bool :=
  match (NMap.getD s.basin.starve (homeOf line * 64 + chanOf line) []).find? (·.1 == line) with
  | some q => q.2 != node
  | none => false

/-- Queues a STARVE request in its slice, up to 8 (R188). -/
def State.queueStarve (s : State) (line node : Nat) : State :=
  let k := homeOf line * 64 + chanOf line
  let q := NMap.getD s.basin.starve k []
  if q.contains (line, node) ∨ q.length ≥ 8 then s
  else s.modBasin fun b => { b with starve := NMap.put b.starve k (q ++ [(line, node)]) }

/-- Grants ownership to a node: O(r), a lease where the line is untracked (R186, R194); reservations on it end. -/
def State.grantX (s : State) (line : Nat) (e : DirEnt) (node : Nat) : State :=
  let lease := !s.trackedAt line
  ((s.breakResv line).putDir line
    { e with
      state := .owned node, sharers := [], hs0 := false, hs1 := false, txn := none
      lease := lease, leasedAt := if lease then s.clk.now else e.leasedAt }).unstarve line node

/-- Adds a sharer. -/
def State.grantS (s : State) (line : Nat) (e : DirEnt) (nodes : List Nat) (node : Nat) : State :=
  (s.putDir line { e with state := .shared, sharers := sortNat (nodes ++ e.sharers), txn := none }).unstarve line node

/-- Room for a new entry (R191): true where the set has a free way; else the eviction of its least recently used entry that is
neither pinned nor in B starts, and the new request is NACKed. -/
def State.dirRoom (s : State) (line : Nat) : Bool × State :=
  let set := s.dirSet line
  if set.length < 16 then (true, s)
  else
    let cand := set.filter fun e => !e.2.pin && e.2.state != .busy
    match (sortBy (fun e => e.2.lru) cand).head? with
    | none => (false, s)
    | some (l, e) => match e.state with
      | .owned n => (false, s.startFwd l e (reqOf 76 .firmware) 3 n .fwdX 100)
      | _ => (false, s.startInv l e (reqOf 76 .firmware) 3 e.holders)

/-- The checks that every coherent request meets at the home before its state is looked at: ownership, B, starvation and the
limits of R187. `none` goes on. -/
def State.gate (s : State) (r : Req) (line : Nat) (write starve : Bool) : Option State :=
  let pg := s.pot (line / 0x10000)
  match s.ownCheck r pg write with
  | .refuse => some (s.errTo line r.node 0x4104)
  | .poison => some (s.errTo line r.node (if pg.owner = 255 then 0x3707 else 0x3701))
  | .allow =>
    let s' := if starve then s.queueStarve line r.node else s
    let busy := match NMap.get? s.basin.dir line with | some e => e.state == .busy | none => false
    if busy || s'.yields line r.node || decide (s.busyLines line ≥ 64) then some (s'.nackTo line r.node) else none

/-- RdS at the home (Table 7.5). -/
def State.homeRdS (s : State) (r : Req) (line : Nat) (starve : Bool) (u : Upset) : State :=
  match s.gate r line false starve with
  | some s => s
  | none =>
    let s := s.attrCheck r line
    match NMap.get? s.basin.dir line with
    | none =>
      let (room, s) := s.dirRoom line
      if room then (s.sendData .dataS line r.node u).grantS line DirEnt.empty [r.node] r.node else s.nackTo line r.node
    | some e => match e.state with
      | .owned n =>
        if n = r.node then s.sendData .dataS line r.node u
        else s.startFwd line e r 0 n .fwdS r.node
      | _ => (s.sendData .dataS line r.node u).grantS line e [r.node] r.node

/-- RdX, or an Upg by `upg`, at the home (Table 7.5). -/
def State.homeRdX (s : State) (r : Req) (line : Nat) (upg starve : Bool) (u : Upset) : State :=
  match s.gate r line true starve with
  | some s => s
  | none =>
    let s := s.attrCheck r line
    match NMap.get? s.basin.dir line with
    | none =>
      let (room, s) := s.dirRoom line
      if room then (s.sendData .dataX line r.node u).grantX line DirEnt.empty r.node else s.nackTo line r.node
    | some e => match e.state with
      | .owned n =>
        if n = r.node then s.sendData .dataX line r.node u
        else
          let s := if e.lease && decide (s.clk.now < e.leasedAt + 2000) then s.predMove line true else s
          s.startFwd line e r 1 n .fwdX r.node
      | _ =>
        let others := e.holders.filter (· != r.node)
        let kept := upg && e.sharers.contains r.node
        if others = [] then
          let s := if kept then s.send (Msg.bare .gntX r.node (homeOf line) line) else s.sendData .dataX line r.node u
          s.grantX line e r.node
        else s.startInv line e r (if kept then 2 else 1) others

/-- Ends a transaction once every holder has answered (Table 7.5, Table 7.7). `sent` says that an owner has already sent the
data to the requester. -/
def State.endTxn (s : State) (line : Nat) (e : DirEnt) (t : Txn) (owner : Option Nat) (sent : Bool) : State :=
  let r := t.req.node
  match t.kind with
  | 0 =>
    let s := if sent then s else s.sendData .dataS line r {}
    s.grantS line { e with sharers := [] } ((match owner with | some n => if n < 72 then [n] else [] | none => []) ++ [r]) r
  | 1 => (if sent then s else s.sendData .dataX line r {}).grantX line e r
  | 2 => (s.send (Msg.bare .gntX r (homeOf line) line)).grantX line e r
  | _ =>
    if e.watch ∨ e.pin then
      s.putDir line { e with state := .shared, sharers := [], hs0 := false, hs1 := false, txn := none }
    else s.modBasin fun b => { b with dir := NMap.erase b.dir line }

/-- Merges bytes of a line at its home, by sector. -/
def State.mergeLine (s : State) (line : Nat) (bytes : List (Nat × Byte)) (poison : List Nat) : State :=
  (List.range 4).foldl (fun s k =>
    let bs := (bytes.filter fun p => p.1 / 32 == k).map fun p => (p.1 % 32, p.2)
    if bs = [] then s else s.homeMerge (line + 32 * k) bs (poison.contains k)) s

/-- A holder's answer at the home: InvAck, FwdAck or BIRsp, with the bytes it returns. `noData` is an owner whose write-back
was under way (Table 7.7). -/
def State.answer (s : State) (line src : Nat) (bytes : List (Nat × Byte)) (poison : List Nat) (noData sent : Bool) : State :=
  let s := s.mergeLine line bytes poison
  match NMap.get? s.basin.dir line with
  | none => s
  | some e => match e.state, e.txn with
    | .busy, some t =>
      if !t.await.contains src then s
      else
        let t := { t with await := t.await.filter (· != src) }
        if t.await = [] ∧ !(noData ∧ !t.absorbed) then s.endTxn line e t (some src) (sent && !noData)
        else s.putDir line { e with txn := some t }
    | _, _ => s

/-- An owner's write-back at the home (Table 7.5): merged; `keep` keeps ownership; in B it is absorbed. WbAck answers. -/
def State.homeWb (s : State) (die line : Nat) (bytes : List (Nat × Byte)) (poison : List Nat) (keep : Bool) : State :=
  let s := s.mergeLine line bytes poison
  let s := s.send (Msg.bare .wbAck die (homeOf line) line)
  match NMap.get? s.basin.dir line with
  | none => s
  | some e => match e.state, e.txn with
    | .owned n, _ => if n = die ∧ !keep then s.dirRemove line die else s
    | .busy, some t =>
      let t := { t with absorbed := true }
      if t.await = [] then s.endTxn line e t none false else s.putDir line { e with txn := some t }
    | _, _ => s

/-! ## At a die -/

/-- The bytes of a line in a die's far part, as (offset, byte), and the offsets that are dirty. -/
def State.farLine (s : State) (d line : Nat) : List (Nat × Byte) × List Nat :=
  let bs := (List.range 128).map fun i => (i, NMap.get? s.basin.far (heldKey d (line + i)))
  (bs.filterMap fun p => p.2.map fun c => (p.1, c.val),
   bs.filterMap fun p => match p.2 with | some c => if c.dirty then some p.1 else none | none => none)

/-- Poisoned sectors of a line in a far part. -/
def State.farPz (s : State) (d line : Nat) : List Nat :=
  (List.range 4).filter fun k => NMap.has s.basin.farPoison (heldKey d (line + 32 * k))

/-- Marks a line's far bytes clean. -/
def State.farMarkClean (s : State) (d line : Nat) : State :=
  s.modBasin fun b => { b with
    far := (List.range 128).foldl (fun h i => NMap.alter h (heldKey d (line + i)) fun c => { c with dirty := false }) b.far }

/-- Places a message's data in a die's far part (R186). False where no way takes it: the die then drops the line once its
access is performed (R182). -/
def State.install (s : State) (d : Nat) (m : Msg) (own : Bool) : Bool × State :=
  let (al, s) := s.farAlloc d m.line
  let k := heldKey d m.line
  (al, s.modBasin fun b => { b with
    far := m.bytes.foldl (fun h p =>
      match NMap.get? h (heldKey d (m.line + p.1)) with
      | some c => if c.dirty then h else NMap.put h (heldKey d (m.line + p.1)) { val := p.2, dirty := m.dirty.contains p.1 }
      | none => NMap.put h (heldKey d (m.line + p.1)) { val := p.2, dirty := m.dirty.contains p.1 }) b.far
    farPoison := m.poison.foldl (fun h k => NMap.put h (heldKey d (m.line + 32 * k)) ()) b.farPoison
    farLines := NMap.put b.farLines k
      { NMap.getD b.farLines k { age := 0, win := 16, cls := 0, owned := false, since := 0 } with
        owned := own, since := s.clk.now } })

/-- Sets whether a die owns a line that it holds. -/
def State.setOwned (s : State) (d line : Nat) (own : Bool) : State :=
  s.modBasin fun b => { b with farLines := NMap.alter b.farLines (heldKey d line) fun l => { l with owned := own } }

/-- Whether a die owns a line: O in a tracked window, or a lease (R186, R194). -/
def State.farOwned (s : State) (d line : Nat) : Bool := match NMap.get? s.basin.farLines (heldKey d line) with
  | some l => l.owned
  | none => false

/-- The first message of a kind to a node for a line. -/
def State.msg? (s : State) (kind : MsgKind) (dst line : Nat) : Option Msg :=
  s.basin.net.find? fun m => m.kind == kind && m.dst == dst && m.line == line

/-- The first message of a kind from a node for a line. -/
def State.msgFrom? (s : State) (kind : MsgKind) (src line : Nat) : Option Msg :=
  s.basin.net.find? fun m => m.kind == kind && m.src == src && m.line == line

/-- Takes a message off the network. -/
def State.dropMsg (s : State) (m : Msg) : State := s.modBasin fun b => { b with net := removeFirst (· == m) b.net }

/-- A die's outstanding request for a line. -/
def State.pend? (s : State) (d line : Nat) : Option Pend := s.basin.pend.find? fun p => p.die == d && p.line == line

/-- Changes a die's outstanding request. -/
def State.modPend (s : State) (d line : Nat) (f : Pend → Pend) : State :=
  s.modBasin fun b => { b with pend := replaceFirst (fun p => p.die == d && p.line == line) f b.pend }

/-- Ends a die's outstanding request; one that waited more than 4 µs is counted at the home (R188). -/
def State.dropPend (s : State) (d line : Nat) : State :=
  let s := match s.pend? d line with
    | some p => if s.clk.now > p.since + 4000 ∧ p.line < 2 ^ 43 then s.cnt (homeOf line) 15 1 else s
    | none => s
  s.modBasin fun b => { b with pend := removeFirst (fun p => p.die == d && p.line == line) b.pend }

/-- Serves an invalidation at a die (R190): its copy is dropped and InvAck answers. -/
def State.serveInv (s : State) (d line : Nat) : State :=
  let s := s.farDrop d line
  s.send (Msg.bare .invAck (homeOf line) d line)

/-- Serves a forward or a snoop at an owner (R189, Table 7.7). -/
def State.serveFwd (s : State) (d : Nat) (m : Msg) : State :=
  let line := m.line
  let (bs, dirty) := s.farLine d line
  let pz := s.farPz d line
  let ack : Msg := { Msg.bare .fwdAck (homeOf line) d line with
    bytes := bs.filter fun p => dirty.contains p.1, poison := pz }
  if bs = [] then s.send { ack with fwdTo := 1 }
  else match m.kind with
    | .fwdS =>
      let s := s.send { Msg.bare .dataS m.fwdTo d line with bytes := bs, poison := pz, status := if pz = [] then 0 else 0x3701 }
      ((s.farMarkClean d line).setOwned d line false).send ack
    | .fwdX =>
      if m.fwdTo = 100 then (s.farDrop d line).send ack
      else
        let s := s.send { Msg.bare .dataX m.fwdTo d line with
          bytes := bs, dirty := dirty, poison := pz, status := if pz = [] then 0 else 0x3701 }
        (s.farDrop d line).send { ack with bytes := [], poison := [] }
    | _ => (s.farMarkClean d line).send ack

/-- Serves what a die held back until its own access was performed (Table 7.7). -/
def State.serveHeld (s : State) (d : Nat) (held : List Msg) : State :=
  held.foldl (fun s m => if m.kind = .inv then s.serveInv d m.line else s.serveFwd d m) s

/-! ## Atomics (R115, R193, R195) -/

/-- Bytes of an atomic's operand. -/
def amoBytes : AmoWidth → Nat
  | .w => 4
  | .d => 8
  | .q => 16

/-- The value an atomic stores. -/
def amoNew (op : AmoOp) (wd : AmoWidth) (old operand comparand : Nat) : Nat :=
  let bits := 8 * (amoBytes wd)
  let a := old % 2 ^ bits
  let b := operand % 2 ^ bits
  match op with
  | .add => (a + b) % 2 ^ bits
  | .swap => b
  | .and => a &&& b
  | .or => a ||| b
  | .xor => a ^^^ b
  | .min => if toSigned bits a ≤ toSigned bits b then a else b
  | .max => if toSigned bits a ≥ toSigned bits b then a else b
  | .minu => Nat.min a b
  | .maxu => Nat.max a b
  | .cas => if a = comparand % 2 ^ bits then b else a
  | .fadd => (fp32Add a b).1

/-- Moves the predictor for a near atomic and remembers its die (R195). -/
def State.nearSeen (s : State) (pa die : Nat) : State :=
  let k := homeOf pa * 64 + chanOf pa
  let line := lineOf pa
  let h := NMap.getD s.basin.nearHist k []
  let s := match h.find? (·.1 == line) with
    | some q => s.predMove pa (q.2 != die)
    | none => s
  s.modBasin fun b => { b with
    nearHist := NMap.put b.nearHist k (((line, die) :: h.filter (·.1 != line)).take 64) }

/-- Whether the home performs a die's atomic near (R194, R195). -/
def State.goesNear (s : State) (die pa : Nat) : Bool :=
  homeOf pa == die || s.rbit (dieBase (homeOf pa) + 0x3000) 0 || decide (NMap.getD s.basin.predictor (predIdx pa) 2 ≥ 2)

/-- An atomic at its home part (R193): the ownership check, current data taken from any owner, the operation. Answers the
status, whether a host holder must answer first, and the old value. -/
def State.nearAtomic (s : State) (r : Req) (pa : Nat) (op : AmoOp) (wd : AmoWidth) (operand comparand : Nat) (u : Upset) :
    Status × Bool × Nat × State :=
  let sa := secOf pa
  let n := (amoBytes wd)
  if !s.present (homeOf pa) then (0x2201, false, 0, s)
  else match s.ownCheck r (s.pot (pa / 0x10000)) true with
  | .refuse => (0x4104, false, 0, s)
  | .poison => (0x3701, false, 0, s)
  | .allow =>
    let s := s.drainLine (lineOf pa)
    let (wt, s) := if s.trackedAt pa then s.recall (lineOf pa) r else s.snoopCur (lineOf pa) r
    if wt then (0, true, 0, s)
    else
      let s := (s.remoteBytes r.node (homeOf pa) n).breakResv (lineOf pa)
      let s := if r.node < 72 then s.nearSeen pa r.node else s
      let (rd, s) := s.homeSector sa ((List.range n).map fun i => pa % 32 + i) true u
      if rd.wait then (0x3301, true, 0, s)
      else if rd.st ≠ 0 then (rd.st, false, 0, s)
      else
        let old := rdLE rd.bytes (pa % 32) n
        let v := amoNew op wd old operand comparand
        let s := (s.homeMerge sa ((List.range n).map fun i => (pa % 32 + i, byteAt (bytesOf n v) i)) false).pmc
          (homeOf pa) 0x26 1 none
        (0, false, old, s)

end Sys2Proof.Machine
end

