-- ==== Sys2Proof/Machine/CutOps.lean ====
section
/-! DEFINITION. Cuts (chapter 9): the panel's topology, transmission under credits, route lookup, retrains, and cuts that go
down. A router is a die 0 to 71, 72 plus a gatehouse, or 80 plus a site that runs no die; a port index is its port code less
1. -/

namespace Sys2Proof.Machine

/-- CUT_STAT of a port. -/
def cutStatA (r p : Nat) : Nat := routerBase r + 0x7000 + p * 0x20
/-- CUT_CTL of a port. -/
def cutCtlA (r p : Nat) : Nat := cutStatA r p + 8

/-- STATE of a cut port: 0 down, 1 training, 2 active, 3 frozen for peer. -/
def State.cutState (s : State) (r p : Nat) : Nat := s.rfld (cutStatA r p) 63 60

/-- A cut port's buffers. -/
def State.cutPort (s : State) (r p : Nat) : CutPort := NMap.getD s.cut.ports (r * 16 + p) CutPort.init

/-- Changes a cut port. -/
def State.modCutPort (s : State) (r p : Nat) (f : CutPort → CutPort) : State :=
  s.modCut fun c => { c with ports := NMap.put c.ports (r * 16 + p) (f (s.cutPort r p)) }

/-- The site of a router that is no gatehouse. -/
def State.routerSite (s : State) (r : Nat) : Option Nat := if r < 72 then s.siteOf r else if r ≥ 80 then some (r - 80) else none

/-- The router of a site (R25). -/
def State.siteRouter (s : State) (t : Nat) : Nat := match s.site t with
  | .inService d => d
  | _ => 80 + t

/-- SITE of an event or signature for a router. -/
def State.routerSiteNum (s : State) (r : Nat) : Nat := if 72 ≤ r ∧ r < 76 then 80 + (r - 72) else (s.routerSite r).getD 0

/-- Where a port's cut leads (R11, R17, R236): the peer's router and port index. -/
def State.cutPeer (s : State) (r p : Nat) : Option (Nat × Nat) :=
  if 72 ≤ r ∧ r < 76 then
    let g := r - 72
    let site (col row : Nat) : Nat := (2 * g + row) * 10 + col
    match p with
    | 0 => if g = 0 then none else some (r - 1, 1)
    | 1 => if g = 3 then none else some (r + 1, 0)
    | 2 => some (s.siteRouter (site 4 0), 2)
    | 3 => some (s.siteRouter (site 5 0), 3)
    | 4 => some (s.siteRouter (site 4 1), 2)
    | 5 => some (s.siteRouter (site 5 1), 3)
    | 6 => some (s.siteRouter (site 3 0), 4)
    | 7 => some (s.siteRouter (site 6 0), 5)
    | 8 => some (s.siteRouter (site 3 1), 4)
    | 9 => some (s.siteRouter (site 6 1), 5)
    | _ => none
  else match s.routerSite r with
    | none => none
    | some t =>
      let row := t / 10
      let col := t % 10
      let g := 72 + row / 2
      let k := row % 2 * 2
      match p with
      | 0 => if row = 0 then none else some (s.siteRouter (t - 10), 1)
      | 1 => if row = 7 then none else some (s.siteRouter (t + 10), 0)
      | 2 => if col = 4 then some (g, 2 + k) else if col = 9 then none else some (s.siteRouter (t + 1), 3)
      | 3 => if col = 5 then some (g, 3 + k) else if col = 0 then none else some (s.siteRouter (t - 1), 2)
      | 4 => if col = 3 then some (g, 6 + k) else if col = 4 ∨ col ≥ 8 then none else some (s.siteRouter (t + 2), 5)
      | 5 => if col = 6 then some (g, 7 + k) else if col = 5 ∨ col ≤ 1 then none else some (s.siteRouter (t - 2), 4)
      | _ => none

/-- Whether a router has a port that a cut is attached to. -/
def State.hasCut (s : State) (r p : Nat) : Bool := (s.cutPeer r p).isSome

/-- Flits of a cut packet: its header and data flits, and an extra flit for the masks in version 1 (R228). -/
def cutFlits (k : CutPkt) (version : Nat) : Nat := 1 + k.len.toNat + (if version = 1 then 1 else 0)

/-- The credit share that a packet uses (R237). -/
def cutShare (k : CutPkt) : Nat := k.vc.toNat + (if k.detour then 4 else 0)

/-- Transmission order among virtual channels: express, then response, request, bulk (R232). -/
def vcOrder (vc : Nat) : Nat := if vc = 0 then 0 else if vc = 2 then 1 else if vc = 1 then 2 else 3

/-- Sends one queued packet that has credits, if the cut is active and its replay buffer has room (R226, R232). -/
def State.cutTx1 (s : State) (r p : Nat) : State :=
  let k := s.cutPort r p
  let ver := s.rfld (cutStatA r p) 59 56
  let ready (q : CutPkt) : Bool := decide (cutFlits q ver ≤ k.credits.toList.getD (cutShare q) 0)
  if s.cutState r p ≠ 2 ∨ k.replay.length ≥ 16 then s
  else match (sortBy (fun q => vcOrder q.vc.toNat) k.queue).find? ready with
    | none => s
    | some q =>
      s.modCutPort r p fun k => { k with
        queue := removeFirst (· == q) k.queue
        txSeq := k.txSeq + 1
        replay := k.replay ++ [(k.txSeq + 1, [q])]
        credits := k.credits.setIfInBounds (cutShare q) (k.credits.toList.getD (cutShare q) 0 - cutFlits q ver) }

/-- Sends queued packets while credits last. -/
def State.cutTx (s : State) (r p : Nat) : State :=
  (List.range (s.cutPort r p).queue.length).foldl (fun s _ => s.cutTx1 r p) s

/-- A route-table entry: primary and alternate port codes (R236). -/
def State.cutRoute (s : State) (r : Nat) (bank : Bool) (dst : Nat) : Nat × Nat :=
  let a := routerBase r + 0x7400 + (if bank then 0x100 else 0) + dst * 2
  let w := (s.reg (a - a % 8)).toNat / 2 ^ (8 * (a % 8)) % 2 ^ 16
  (fld w 7 4, fld w 11 8)

/-- Queues a packet at a port, with its hop record in version 2 (R234). -/
def State.cutSend (s : State) (r p : Nat) (k : CutPkt) : State :=
  let v2 := s.rfld (cutStatA r p) 59 56 == 2
  let h := k.hopCount.toNat
  let rec' : BitVec 16 := BitVec.ofNat 16 (s.routerSiteNum r * 256 + (p + 1))
  let at' := if h < 4 then h else 4 + (h - 4) % 8
  let pad := k.hops ++ List.replicate (12 - k.hops.length) (0 : BitVec 16)
  let k := if v2 then { k with
      hopCount := BitVec.ofNat 8 (Nat.min 255 (h + 1)), hops := pad.take at' ++ [rec'] ++ pad.drop (at' + 1) }
    else { k with hopCount := 0, hops := [], masks := k.masks }
  (s.modCutPort r p fun q => { q with queue := q.queue ++ [k] }).cutTx r p

/-- The next port index of a packet that goes to a site by its aperture address (R239): row first, then column, stepping over
nothing; none where the site is this one or no cut leads on. -/
def State.siteNext (s : State) (r t : Nat) : Option Nat :=
  match s.routerSite r with
  | none =>
    let g := r - 72
    let row := t / 10
    if row / 2 < g then some 0 else if row / 2 > g then some 1
    else some ((if t % 10 ≤ 4 then 2 else 3) + row % 2 * 2)
  | some h =>
    if h = t then none
    else if h % 10 < t % 10 then some 2
    else if h % 10 > t % 10 then some 3
    else if h / 10 > t / 10 then some 0 else some 1

/-- Class 6 with the rest of the code open: the spec names no code for a malformed cut packet (log entry 6). -/
def State.class6 (s : State) : Status × State :=
  (BitVec.ofNat 16 (0x6000 + (Config.freeWord s.fresh).toNat % 0x1000), s.drawn 1)

/-- Whether the site at an end of a cut has failed, or its gatehouse is fenced (R413), so that the cut is down for routing
(R239). -/
def State.cutFailedEnd (s : State) (r p : Nat) : Bool :=
  let bad (q : Nat) : Bool := match s.routerSite q with
    | some t => s.site t == .failed
    | none => decide (72 ≤ q) && decide (q < 76) && s.panel.fencedGh.contains (q - 72)
  bad r || (match s.cutPeer r p with | some (q, _) => bad q | none => true)

/-- The port index that a packet leaves router `r` by: the primary port, or the alternate where the primary is down (R239), and
the primary again, where it waits, if both are; `none` where it is delivered here. -/
def State.cutNext (s : State) (r : Nat) (k : CutPkt) : Option Nat :=
  if k.dst.toNat = 127 then s.siteNext r ((k.addr.toNat - 0x79000000000) / 0x100000000)
  else
    let (a, b) := s.cutRoute r k.epoch k.dst.toNat
    let code (c : Nat) : Bool := decide (1 ≤ c) && decide (c ≤ 10)
    let ok (c : Nat) : Bool := code c && s.cutState r (c - 1) != 0 && !s.cutFailedEnd r (c - 1)
    if a = 0 ∨ k.dst.toNat = r then none
    else if ok a then some (a - 1) else if ok b then some (b - 1) else if code a then some (a - 1) else none

/-! ## Cuts that go down (R239, R240) -/

/-- An uncertain packet's effects (R240): its requester's command, its line's directory entry, and the count. -/
def State.uncertain (s : State) (r : Nat) (k : CutPkt) : State :=
  let s := if r < 72 then s.cnt r 19 (1 + k.len.toNat) else s
  let line := lineOf k.addr.toNat
  let ty := k.typ.toNat
  let cmdOf : Option (Nat × Nat) :=
    if 1 ≤ ty ∧ ty ≤ 0x18 then
      ((s.basin.pend.find? fun p => p.line == line && (p.die == k.src.toNat || p.die == k.dst.toNat)).bind fun p =>
        s.thread? p.tid).map fun t => (t.ctx, t.seq)
    else if ty = 0x30 then
      (s.eng.xfers.find? fun x => x.die == k.src.toNat && x.berth == k.tag.toNat).map fun x => (x.ctx, x.seq)
    else none
  let s : State := match cmdOf with | some (c, q) => s.replayCmd c q 0x3501 false | none => s
  if decide (1 ≤ ty) && decide (ty ≤ 0x18) && isDram line && s.present (homeOf line) then s.dirRebuild line else s

/-- Takes a port out of use: STATE 0, queued flits to alternate ports in order, uncertain ones discarded, re-injected ones
sent on; `peer` is the peer's last-forwarded sequence, where it arrived (R240). -/
def State.cutSideDown (s : State) (r p : Nat) (peer : Option (BitVec 32)) : State :=
  let k := s.cutPort r p
  let s := s.setReg (cutStatA r p) (Word.setFld (Word.setFld (s.reg (cutStatA r p)) 63 60 0) 55 44 0)
  let s := s.modCutPort r p fun k => { k with queue := [], replay := [], training := none, trained := false, nakReq := none }
  let again : List CutPkt := match peer with
    | some q => ((k.replay.filter fun e => seqAfter e.1 q).map fun e => e.2).flatten
    | none => []
  let lost : List CutPkt := match peer with
    | some _ => []
    | none => (k.replay.map fun e => e.2).flatten
  let s := (again ++ k.queue).foldl (fun s q => match s.cutNext r q with
    | some n => s.cutSend r n q
    | none => s) s
  let s := lost.foldl (fun s q => s.uncertain r q) s
  let s := s.event 10 (s.routerSiteNum r) p 0 0
  if lost.isEmpty then s
  else s.sign { Sig.blank with
    mech := 0x12, status := 0x3501, action := 8, severity := 2, unitKind := 4, site := s.routerSiteNum r
    ldie := if r < 72 then r else 0xFF, unitIndex := p, hops := (lost.head?.map (·.hops)).getD [] }

/-- A cut goes down: both routers stop using it (R239). -/
def State.cutDown (s : State) (r p : Nat) (peer : Option (BitVec 32)) : State :=
  let peer := match peer with
    | some q => some q
    | none => (s.cutPort r p).peerSeq
  let s := s.cutSideDown r p peer
  match s.cutPeer r p with
  | some (r', p') => if s.cutState r' p' = 0 then s else s.cutSideDown r' p' none
  | none => s

/-! ## Retrains -/

/-- Starts a training of a port (R227): STATE 1, the bundle mask of the next retrain in effect, the peer frozen (R230). -/
def State.cutStart (s : State) (r p : Nat) : State :=
  let st := s.reg (cutStatA r p)
  let n := Nat.min 255 (Word.fld st 23 16 + 1)
  let s := s.setReg (cutStatA r p) (Word.setFld (Word.setFld (Word.setFld st 63 60 1) 25 24 0) 23 16 n)
  let off := s.rfld (cutCtlA r p) 8 0
  let s := s.modCutPort r p fun k => { k with
    training := none, trained := false, crcTimes := [], activeOff := BitVec.ofNat 9 off, peerSeq := none }
  match s.cutPeer r p with
  | some (r', p') => if s.cutState r' p' = 2 then s.setRfld (cutStatA r' p') 63 60 3 else s
  | none => s

/-- A write of RETRAIN (R227): a port that is down stays down until RESTORE. -/
def State.cutRetrainW (s : State) (r p : Nat) : State := if s.cutState r p = 0 then s else s.cutStart r p

/-- A write of FORCE_DOWN (R239). -/
def State.cutForceW (s : State) (r p : Nat) (on : Bool) : State :=
  let s := s.setRbit (cutCtlA r p) 62 on
  if on && s.cutState r p != 0 then s.cutDown r p none else s

/-- A write of RESTORE (R239): a down cut trains again unless it is forced down or ends at a failed site. -/
def State.cutRestoreW (s : State) (r p : Nat) : State :=
  if s.cutState r p = 0 ∧ !s.rbit (cutCtlA r p) 62 ∧ !s.cutFailedEnd r p then s.cutStart r p else s

end Sys2Proof.Machine
end

