-- ==== Sys2Proof/Machine/ErhOps.lean ====
section
/-! DEFINITION. The Erhar link (chapter 11): ports, transmission under credits, routing, injection of this device's own
requests, and failures of them. -/

namespace Sys2Proof.Machine

/-- ERH_PSTAT of port p (Table 11.6). -/
def erhStatA (p : Nat) : Nat := ghBase (p / 9) + 0x20100 + (p % 9) * 0x20
/-- ERH_PCTL of port p. -/
def erhCtlA (p : Nat) : Nat := erhStatA p + 8
/-- ERH_RCTL. -/
def erhRctlA : Nat := ghBase 0 + 0x20008

/-- STATE of a port: 0 down, 1 training, 2 active, 3 frozen for peer, 4 retired. -/
def State.erhState (s : State) (p : Nat) : Nat := s.rfld (erhStatA p) 63 60

/-- A port's buffers. -/
def State.erhPort (s : State) (p : Nat) : ErhPort := NMap.getD s.erh.ports p ErhPort.init

/-- Changes a port. -/
def State.modErhPort (s : State) (p : Nat) (f : ErhPort → ErhPort) : State :=
  s.modErh fun e => { e with ports := NMap.put e.ports p (f (s.erhPort p)) }

/-- Virtual channel of a packet's TYPE (Table 11.3, Table 11.5); none for an unknown TYPE. Collective data is bulk; barriers and
TYPE 0x12 are collective control. -/
def erhVc (k : ErhPkt) : Option Nat :=
  let ty := k.typ.toNat
  if ty = 0x10 ∨ ty = 0x11 then some (if k.cop.toNat % 16 = 0 then 0 else 3)
  else if ty = 0x01 ∨ ty = 0x04 then some 3
  else if ty = 0x03 ∨ ty = 0x05 then some 1
  else if ty = 0x02 ∨ ty = 0x06 ∨ ty = 0x07 then some 2
  else if ty = 0x12 ∨ ty = 0x20 ∨ ty = 0x21 ∨ ty = 0x30 ∨ ty = 0x31 then some 0
  else none

/-- A packet with nothing but zeros and all-ones masks (Table 11.4). -/
def erhBlank : ErhPkt :=
  { dst := 0, src := 0, ttl := 63, epoch := false, hc := false, vc := 0, len := 0, typ := 0, txn := 0, addr := 0, span := 0,
    masks := BitVec.allOnes 128, status := 0, anchor := 0, group := 0, cop := 0, cfmt := 0, gen := 0, chunk := 0, count := 0,
    aux := 0, resv := false, data := [] }

/-- Flits of a packet. -/
def erhFlits (k : ErhPkt) : Nat := 1 + k.len.toNat

/-- The credit share that a packet uses: its virtual channel and hop class (R288). -/
def erhShare (k : ErhPkt) : Nat := k.vc.toNat + (if k.hc then 4 else 0)

/-- Sends one queued packet that has credits (R276, R282). -/
def State.erhTx1 (s : State) (p : Nat) : State :=
  let k := s.erhPort p
  let ready (q : ErhPkt) : Bool := decide (erhFlits q ≤ k.credits.toList.getD (erhShare q) 0)
  if s.erhState p ≠ 2 ∨ k.replay.length ≥ 32 then s
  else match (sortBy (fun q => vcOrder q.vc.toNat) k.queue).find? ready with
    | none => s
    | some q =>
      let s := s.gcnt (p / 9) 7 (64 * erhFlits q)
      s.modErhPort p fun k => { k with
        queue := removeFirst (· == q) k.queue
        txSeq := k.txSeq + 1
        replay := k.replay ++ [(k.txSeq + 1, [q])]
        credits := k.credits.setIfInBounds (erhShare q) (k.credits.toList.getD (erhShare q) 0 - erhFlits q) }

/-- Sends queued packets while credits last. -/
def State.erhTx (s : State) (p : Nat) : State :=
  (List.range (s.erhPort p).queue.length).foldl (fun s _ => s.erhTx1 p) s

/-- Flits queued at a port on a virtual channel. -/
def State.erhQueued (s : State) (p vc : Nat) : Nat :=
  sumNat (((s.erhPort p).queue.filter fun q => q.vc.toNat == vc).map erhFlits)

/-- The 4-byte route entry for a destination in a bank (R286): the member part inside the own group, else the group part. -/
def State.erhEntry (s : State) (bank : Bool) (dst : Nat) : Nat :=
  let own := (s.ownDev.getD 0) / 512
  let off := if dst / 512 = own then 0x800 + (dst % 512) * 4 else (dst / 512) * 4
  let a := ghBase 0 + 0x22000 + (if bank then 0x1000 else 0) + off
  (s.reg (a - a % 8)).toNat / 2 ^ (8 * (a % 8)) % 2 ^ 32

/-- Whether a port may carry a packet: active, and with both DEV_IDs valid unless it is link management (R279). -/
def State.erhCarries (s : State) (p : Nat) (k : ErhPkt) : Bool :=
  s.erhState p == 2 && (k.typ == 0x30 || (s.ownDev.isSome && (s.erhPort p).peerValid))

/-- The port a packet leaves by (R287): of its entry's ports that are up, the one with the fewest flits queued on its virtual
channel, the lowest number when two tie. -/
def State.erhChoose (s : State) (k : ErhPkt) : Option Nat :=
  let w := s.erhEntry k.epoch k.dst.toNat
  let ps := (((List.range (Nat.min 4 (fld w 26 24))).map fun i => fld w (6 * i + 5) (6 * i)).filter fun p =>
    decide (p < 36) && s.erhCarries p k)
  (sortBy (fun p => s.erhQueued p k.vc.toNat * 64 + p) ps).head?

/-- Queues a packet at a port; a GLOBAL port sets HC (R288), and a flit of the old epoch is held (R289). -/
def State.erhSend (s : State) (p : Nat) (k : ErhPkt) : State :=
  let s := if k.epoch = s.rbit erhRctlA 32 then s else s.modErh fun e => { e with oldHeldAt := s.clk.now }
  (s.modErhPort p fun q => { q with queue := q.queue ++ [{ k with hc := k.hc || q.global }] }).erhTx p

/-- Injects a packet of this device (R283, R289): source, TTL, epoch and virtual channel are set. Answers the port; none where no
port of its entry is up (R287). -/
def State.erhInject (s : State) (k : ErhPkt) : Option Nat × State :=
  let k := { k with
    src := BitVec.ofNat 18 (s.ownDev.getD 0)
    ttl := 63
    epoch := s.rbit erhRctlA 32
    hc := false
    vc := BitVec.ofNat 2 ((erhVc k).getD 0)
    len := BitVec.ofNat 7 (if k.data = [] then k.len.toNat else (k.data.length + 63) / 64) }
  match s.erhChoose k with
  | some p => (some p, s.erhSend p k)
  | none => (none, s)

/-- Where GET data for a thread's own access (ticket 0) or one of its transfers is kept. -/
def gotUnit (uid ticket : Nat) : Nat := uid * 2 ^ 64 + ticket

/-- A byte that a GET has brought. -/
def State.gotByte (s : State) (uid ticket ga : Nat) : Option Byte := NMap.get? s.erh.got (heldKey (gotUnit uid ticket) ga)

/-- Keeps GET data. -/
def State.gotPut (s : State) (uid ticket ga : Nat) (bytes : List Byte) : State :=
  s.modErh fun e => { e with
    got := (List.range bytes.length).foldl (fun g i => NMap.put g (heldKey (gotUnit uid ticket) (ga + i)) (byteAt bytes i)) e.got }

/-- Drops the GET data of an access that has ended. -/
def State.gotClear (s : State) (uid ticket : Nat) : State :=
  s.modErh fun e => { e with got := NMap.keep e.got fun k _ => keyUnit k != gotUnit uid ticket }

/-- The next transaction identifier that no open operation uses (Table 11.4). -/
def State.freeTxn (s : State) : Nat :=
  ((List.range 0x10000).map fun i => (s.erh.nextTxn + i) % 0x10000).find? (fun t => s.erh.opens.all (·.txn != t)) |>.getD 0

/-! ## Failures of this device's remote operations (R297, R308) -/

/-- A thread whose access waits goes on with the fault of a failed status. -/
def State.failAccess (s : State) (tid uid va : Nat) (st : Status) : State :=
  match s.thread? tid with
  | some t =>
    if t.uid = uid then (s.modThread tid fun t => { t with wait := .none }).raiseSt tid va st else s
  | none => s

/-- An open remote operation fails: a waiting load or atomic faults, a transfer notes its status, and a PUT ends a waiting
release with the fault, or is an asynchronous failure of its command (R297). -/
def State.openFail (s : State) (o : ErhOpen) (st : Status) : State :=
  let s := s.modErh fun e => { e with opens := removeFirst (· == o) e.opens }
  match o.kind, o.ticket with
  | 0, _ =>
    match s.thread? o.tid with
    | some t =>
      match t.wait with
      | .puts => if t.uid = o.uid then s.failAccess o.tid o.uid o.addr st else s.asyncFault o.tid o.uid o.ctx o.seq 0 st 0 false
      | _ => s.asyncFault o.tid o.uid o.ctx o.seq 0 st 0 false
    | none => s.asyncFault o.tid o.uid o.ctx o.seq 0 st 0 false
  | _, some n => s.modEng fun e => { e with
      xfers := e.xfers.map fun x => if x.uid == o.uid && x.ticket == n then { x with st := if x.st == 0 then st else x.st, dead := true } else x }
  | _, none => s.failAccess o.tid o.uid o.addr st

/-- Opens a remote operation and injects its packet; a packet with no route fails it with 0x3803 (R287). -/
def State.erhOpenOp (s : State) (o : ErhOpen) (k : ErhPkt) : State :=
  let o := { o with txn := s.freeTxn, since := s.clk.now }
  let s := s.modErh fun e => { e with opens := e.opens ++ [o], nextTxn := (o.txn + 1) % 0x10000 }
  let s := s.modCmd o.ctx o.seq fun c => { c with
    counts := { c.counts with remoteBytes := c.counts.remoteBytes + Nat.max k.data.length (64 * k.len.toNat) } }
  match s.erhInject { k with txn := BitVec.ofNat 16 o.txn } with
  | (some p, s) => s.modErh fun e => { e with opens := e.opens.map fun q => if q == o then { q with gate := p / 9 } else q }
  | (none, s) => s.openFail o 0x3803

/-- SPAN_ID of a berth, if it has one; the operator's is 0 (R290). -/
def State.spanOf (s : State) (b : Nat) : Option Nat := if b = 0 then some 0 else (NMap.get? s.erh.spans b).map (·.id)

/-- The remote device and address of a global address (log entry 5). -/
def remoteDev (ga : Nat) : Nat := (ga - 3 * 2 ^ 70) / 2 ^ 43
/-- Address at the remote device. -/
def remotePa (ga : Nat) : Nat := (ga - 3 * 2 ^ 70) % 2 ^ 43

/-- A PUT of bytes of one line, with its byte masks (Table 11.4); the die's far copy of the line is dropped first (R183). -/
def State.erhPut (s : State) (die tid uid ctx seq berth ga : Nat) (ticket : Option Nat) (bytes : List (Nat × Byte)) : State :=
  let line := lineOf ga
  let s := s.farDrop die line
  let mask := maskOf (bytes.map fun p => p.1 - line)
  let data := (List.range 128).map fun i => ((bytes.find? fun p => p.1 == line + i).map (·.2)).getD 0
  s.erhOpenOp
    { txn := 0, kind := 0, uid := uid, tid := tid, ticket := ticket, ctx := ctx, seq := seq, dst := BitVec.ofNat 18 (remoteDev ga)
      addr := ga, access := .fetch, waiting := false, since := 0, gate := 0 }
    { erhBlank with
      dst := BitVec.ofNat 18 (remoteDev ga), typ := 0x01, addr := BitVec.ofNat 43 (remotePa line)
      span := BitVec.ofNat 24 ((s.spanOf berth).getD 0), masks := BitVec.ofNat 128 mask, data := data }

/-- A GET of `flits` flits from a 64-byte aligned address; its LEN says how many (log entry 23). -/
def State.erhGet (s : State) (tid uid ctx seq berth ga flits : Nat) (ticket : Option Nat) (acc : Access) : State :=
  s.erhOpenOp
    { txn := 0, kind := 1, uid := uid, tid := tid, ticket := ticket, ctx := ctx, seq := seq, dst := BitVec.ofNat 18 (remoteDev ga)
      addr := ga, access := acc, waiting := true, since := 0, gate := 0 }
    { erhBlank with
      dst := BitVec.ofNat 18 (remoteDev ga), typ := 0x03, addr := BitVec.ofNat 43 (remotePa ga), len := BitVec.ofNat 7 flits
      span := BitVec.ofNat 24 ((s.spanOf berth).getD 0) }

/-- Operation byte of an ATOMIC packet (R284). -/
def amoCode : AmoOp → Nat
  | .add => 0
  | .and => 1
  | .or => 2
  | .xor => 3
  | .min => 4
  | .max => 5
  | .minu => 6
  | .maxu => 7
  | .swap => 8
  | .cas => 9
  | .fadd => 10

/-- A remote atomic (R284, R293). -/
def State.erhAtomic (s : State) (die tid uid ctx seq berth ga : Nat) (op : AmoOp) (wd : AmoWidth) (operand comparand : Nat)
    (acc : Access) : State :=
  let s := s.farDrop die (lineOf ga)
  s.erhOpenOp
    { txn := 0, kind := 2, uid := uid, tid := tid, ticket := none, ctx := ctx, seq := seq, dst := BitVec.ofNat 18 (remoteDev ga)
      addr := ga, access := acc, waiting := true, since := 0, gate := 0 }
    { erhBlank with
      dst := BitVec.ofNat 18 (remoteDev ga), typ := 0x05, addr := BitVec.ofNat 43 (remotePa ga)
      span := BitVec.ofNat 24 ((s.spanOf berth).getD 0)
      data := [BitVec.ofNat 8 (amoCode op), BitVec.ofNat 8 (amoBytes wd)] ++ List.replicate 14 0 ++ bytesOf 16 operand ++
        bytesOf 16 comparand ++ List.replicate 16 0 }

/-! ## Generations of a group (R298, R299, R303) -/

/-- The context and counter of a counter identifier (R133); none where it is unused. -/
def counterId (w : BitVec 16) : Option (Nat × Nat) :=
  if bitAt w.toNat 15 then some (fld w.toNat 13 4, fld w.toNat 3 0) else none

/-- A valid group entry. -/
def State.group? (s : State) (n : Nat) : Option Group := (NMap.get? s.erh.groups n).filter fun g => bitAt g.flags.toNat 0

/-- Whether this device is the root of a group. -/
def Group.root (g : Group) : Bool := bitAt g.flags.toNat 1

/-- The neighbours of this device in a group's tree. -/
def Group.near (g : Group) : List Nat := (if g.root then [] else [g.parent]) ++ g.child.take g.nchild

/-- Ends generation GEN + 1 of a group here: its status is logged, and RELEASE advances (R299, R303). `late` says that this device
arrived last (R304). -/
def State.collDone (s : State) (n : Nat) (g : Group) (st : Status) (fl : BitVec 16) (info : Word) (late : Bool) : State :=
  let s := s.modErh fun e => { e with
    groups := NMap.put e.groups n { g with
      gen := g.gen + 1, lastStatus := st, drainFlags := fl, lastInfo := info, lastCount := g.lastCount + (if late then 1 else 0) }
    runs := NMap.erase e.runs n
    early := e.early.filter fun k => k.group.toNat != n || decide (k.gen.toNat > g.gen + 1) }
  match counterId g.release with
  | some (c, j) => s.addCtr c j 1
  | none => s

/-- Fails generation GEN + 1 of a group for every device: COLL_FAIL goes to every neighbour but the one that it came from. -/
def State.collFail (s : State) (n : Nat) (g : Group) (st : Status) (source : Option Nat) : State :=
  let s := (g.near.filter fun d => source != some d).foldl (fun (s : State) d => (s.erhInject { erhBlank with
    dst := BitVec.ofNat 18 d, typ := 0x12, status := st, group := BitVec.ofNat 12 n, gen := BitVec.ofNat 64 (g.gen + 1) }).2) s
  s.collDone n g st 0 g.lastInfo false

/-! ## Ports -/

/-- An event of a port as a CXL record (R309, R327). -/
def State.erhPortEvent (s : State) (p : Nat) (act : Nat) (lost : Bool) : State :=
  let g : Sig := { Sig.blank with
    mech := if lost then 0x12 else 0x11, status := if lost then 0x3801 else 0, action := act
    severity := if act = 5 then 1 else 2, unitKind := 5, site := 80 + p / 9, unitIndex := p, tally := s.tallyCount (5, p, 0, 0)
    times := s.tallyTimes (5, p, 0, 0) }
  if lost then s.sign g else (s.event 10 (80 + p / 9) p 0 0).cxlEvent 1 false (g.bytes.take 80)

/-- A port goes down or is retired (R308): lookups avoid it, queued packets are routed again, and the packets of its replay
buffer are re-injected after the peer's last-forwarded sequence, or fail with 0x3801. -/
def State.erhPortOff (s : State) (p : Nat) (peer : Option (BitVec 32)) (state : Nat) : State :=
  let k : ErhPort := s.erhPort p
  let peer : Option (BitVec 32) := match peer with
    | some q => some q
    | none => k.training.map fun t => t.peerSeq
  let s := s.setReg (erhStatA p) (Word.setFld (Word.setFld (s.reg (erhStatA p)) 63 60 state) 59 48 0)
  let s := s.modErhPort p fun k => { k with queue := [], replay := [], training := none }
  let again : List ErhPkt := match peer with
    | some q => ((k.replay.filter fun e => seqAfter e.1 q).map fun e => e.2).flatten
    | none => []
  let lost : List ErhPkt := match peer with
    | some _ => []
    | none => (k.replay.map fun e => e.2).flatten
  let s := (again ++ k.queue).foldl (fun (s : State) (q : ErhPkt) => match s.erhChoose q with
    | some n => s.erhSend n q
    | none => s) s
  let own := s.ownDev.getD 0
  let s := lost.foldl (fun (s : State) (q : ErhPkt) =>
    let s := s.gcnt (p / 9) 6 1
    if q.src.toNat = own ∧ (q.typ = 0x10 ∨ q.typ = 0x11) then
      match s.group? q.group.toNat with
      | some g => if q.gen.toNat = g.gen + 1 then s.collFail q.group.toNat g 0x3801 none else s
      | none => s
    else if q.src.toNat = own then
      match s.erh.opens.find? fun o => o.txn == q.txn.toNat && (q.typ.toNat == 1 || q.typ.toNat == 3 || q.typ.toNat == 5) with
      | some o => (s.replayCmd o.ctx o.seq 0x3801 false).openFail o 0x3801
      | none => s
    else s) s
  let s := s.erhPortEvent p 8 false
  if lost.isEmpty then s else s.erhPortEvent p 8 true

/-- Starts a training of a port (R278): GLOBAL of the control register takes effect. -/
def State.erhStart (s : State) (p : Nat) : State :=
  let st := s.reg (erhStatA p)
  let n := Nat.min 4095 (Word.fld st 27 16 + 1)
  let s := s.setReg (erhStatA p) (Word.setFld (Word.setFld (Word.setFld st 63 60 1) 47 46 0) 27 16 n)
  let gl := s.rbit (erhCtlA p) 60
  s.modErhPort p fun k => { k with training := none, crcTimes := [], global := gl }

/-- A write of RETRAIN: a port that is down or retired waits for RESTORE. -/
def State.erhRetrainW (s : State) (p : Nat) : State := if s.erhState p = 0 ∨ s.erhState p = 4 then s else s.erhStart p

/-- A write of FORCE_DOWN (R308). -/
def State.erhForceW (s : State) (p : Nat) (on : Bool) : State :=
  let s := s.setRbit (erhCtlA p) 62 on
  if on && s.erhState p != 0 && s.erhState p != 4 then s.erhPortOff p none 0 else s

/-- A write of RESTORE (R309): a down or retired port trains again, and its tally is cleared. -/
def State.erhRestoreW (s : State) (p : Nat) : State :=
  if (s.erhState p = 0 ∨ s.erhState p = 4) ∧ !s.rbit (erhCtlA p) 62 then
    (s.modRel fun r => { r with tallies := r.tallies.filter (·.1 != (5, p, 0, 0)) }).erhStart p
  else s

end Sys2Proof.Machine
end

