-- ==== Sys2Proof/Machine/Hold.lean ====
section
/-! DEFINITION. The holds of the engines (R57, R79, R84, R85): bytes and sidecars by physical slot, and the writes and reads
that keep tags, spent marks and poison. -/

namespace Sys2Proof.Machine

/-- Bytes of one hold: 8 MiB (R57). -/
def holdSize : Nat := 0x800000

/-- Key of a hold byte: module slot (site x 20 + slot) and offset. -/
def holdKey (slot off : Nat) : Nat := slot * holdSize + off

/-- The sidecar of a sector that nothing has written (log entry 4). -/
def Side.zero : Side := { tag := 0, spent := false, poison := false }

/-- The sidecar of the sector that holds an offset. -/
def State.side (s : State) (slot off : Nat) : Side :=
  NMap.getD s.eng.side (holdKey slot (off - off % 32)) { Side.zero with tag := NMap.getD s.eng.holdTag slot 0 }

/-- Sets a sector's sidecar. -/
def State.setSide (s : State) (slot off : Nat) (x : Side) : State :=
  s.modEng fun e => { e with side := NMap.put e.side (holdKey slot (off - off % 32)) x }

/-- Bytes of a hold; a byte that nothing has written reads 0 (log entry 4). -/
def State.holdRead (s : State) (slot off n : Nat) : List Byte :=
  (List.range n).map fun i => NMap.getD s.eng.hold (holdKey slot (off + i)) 0

/-- Whether a write of `n` bytes at a hold offset meets a region (R65). -/
def TileReg.hit (g : TileReg) (slot off n : Nat) : Bool :=
  g.slot == slot && (List.range g.rows).any fun r =>
    decide (g.start + r * g.pitch < off + n) && decide (off < g.start + r * g.pitch + g.bytes)

/-- Writes bytes within one hold sector with a tag (R79, R84): any write clears the spent mark, a whole one also POISON,
unless the data is poison. A running tile whose regions it meets has unpredictable results (R65). -/
def State.holdPut (s : State) (slot off : Nat) (bytes : List Byte) (tag : Nat) (poison : Bool) : State :=
  let old := s.side slot off
  let whole := bytes.length = 32
  let s := s.modEng fun e => { e with
    hold := (List.range bytes.length).foldl (fun h i => NMap.set 0 h (holdKey slot (off + i)) (byteAt bytes i)) e.hold
    eng := NMap.mapV e.eng fun _ r =>
      if r.regions.any fun g => g.hit slot off bytes.length then { r with upset := true } else r }
  s.setSide slot off { tag := tag, spent := false, poison := poison || (old.poison && !whole) }

/-- Writes a run of bytes, sector by sector, with one tag. -/
def State.holdWrite (s : State) (slot off : Nat) (bytes : List Byte) (tag : Nat) : State :=
  ((List.range ((off % 32 + bytes.length + 31) / 32)).foldl (fun (s : State) k =>
    let a := if k = 0 then off else off - off % 32 + 32 * k
    let e := Nat.min (off - off % 32 + 32 * (k + 1)) (off + bytes.length)
    s.holdPut slot a ((bytes.drop (a - off)).take (e - a)) tag false) s)

/-- Zeroes a whole hold with one tag and every mark clear (R156, R242, R271, R417). -/
def State.holdZero (s : State) (slot tag : Nat) : State :=
  s.modEng fun e => { e with
    holdTag := NMap.set 0 e.holdTag slot tag
    hold := NMap.keep e.hold fun k _ => k / holdSize != slot
    side := NMap.keep e.side fun k _ => k / holdSize != slot }

/-- Marks a sector spent (R84); with SPENT_POISON also poison (R85). -/
def State.holdSpent (s : State) (slot off : Nat) (poison : Bool) : State :=
  let x := s.side slot off
  s.setSide slot off { x with spent := true, poison := x.poison || poison }

/-- The logical engine whose slot serves logical engine `te` of a command on a die (R357). -/
def Cmd.served (c : Cmd) (d te : Nat) : Nat := NMap.getD c.serve (d * 16 + te) te

/-- The engines that a command holds on a die: those that serve its claim. -/
def Cmd.held (c : Cmd) (d : Nat) : List Nat := sortNat ((bitsOf 16 c.claim).map (c.served d))

/-- The module slot behind logical engine `te` as a command sees it (R105, R357). -/
def State.cmdSlot (s : State) (d ctx seq te : Nat) : Option Nat :=
  s.slotKey d (match s.cmd? ctx seq with | some c => c.served d te | none => te)

/-- A parity error of a hold sector (R78): mechanism 5, tally of the engine slot. -/
def State.holdParity (s : State) (d slot : Nat) (sig : Sig) : State := s.detectUnit d false (slot % 20) 5 sig

end Sys2Proof.Machine
end

