-- ==== Sys2Proof/Machine/Regs.lean ====
section
/-! DEFINITION. Register space (0x700_0000_0000 to 0x7FF_FFFF_FFFF): who reaches what, reads, and writes under the access
codes and change classes of R5 to R10. Offsets that no table lists behave as reserved fields (R4, log entry 24). -/

namespace Sys2Proof.Machine

/-! ## What an address names -/

/-- A place in register space. `die` is a router number (a logical die, or 80 plus a site that runs none) with its offset;
`debug` a hold byte of a module slot, or none where no working engine is behind it (R86). -/
inductive Place where
  | die (r off : Nat)
  | gate (g off : Nat)
  | window (b off : Nat)
  | debug (d : Option Nat) (slot : Option Nat) (off : Nat)
  | none
deriving DecidableEq, Repr

/-- The place an address names (R24, R25, R86). -/
def State.place (s : State) (a : Nat) : Place :=
  if 0x70000000000 ≤ a ∧ a < 0x74000000000 then .gate ((a - 0x70000000000) / 0x1000000000) (a % 0x1000000000)
  else if 0x74000000000 ≤ a ∧ a < 0x78800000000 then
    let d := (a - 0x74000000000) / 0x100000000
    let off := a % 0x100000000
    if 0x80000000 ≤ off ∧ off < 0x80000000 + 16 * holdSize then
      .debug (some d) (s.slotKey d ((off - 0x80000000) / holdSize)) (off % holdSize)
    else .die d off
  else if 0x79000000000 ≤ a ∧ a < 0x7E000000000 then
    let t := (a - 0x79000000000) / 0x100000000
    let off := a % 0x100000000
    let k := (off - 0x80000000) / holdSize
    if 0x80000000 ≤ off ∧ off < 0x80000000 + 20 * holdSize then
      match s.site t with
      | .inService d => .debug (some d) (if s.slotBad 0 t k then Option.none else some (t * 20 + k)) (off % holdSize)
      | _ => .debug Option.none Option.none (off % holdSize)
    else .die (s.siteRouter t) off
  else if 0x7F000000000 ≤ a ∧ a < 0x7F000FF0000 then .window ((a - 0x7F000000000) / 0x10000) (a % 0x10000)
  else .none

/-- Base address of a die router's registers. -/
def baseOf (r : Nat) : Nat := routerBase r

/-- Whether a place has the debug policy's leave (R405). Kiltor firmware needs none. -/
def State.debugOpen (s : State) (src : Accessor) : Bool := match src with
  | .firmware => true
  | .operator => match s.sec.fuses.debugPolicy.toNat with
    | 0 => true
    | 1 => (match s.sec.debugUntil with | some t => decide (s.clk.now < t) | none => false) && bitAt s.sec.debugScope.toNat 0
    | _ => false
  | _ => false

/-- HDM_EXT registers: offset in G0's space of C0's and C1's component registers (log entry 25). -/
def hdmExtOff (port n : Nat) : Nat := 0x100000 + port * 0x20000 + 0x10000 + n * 0x10

/-- Whether an offset of G0's space is an HDM_EXT register, as (port, n). -/
def hdmExtAt (off : Nat) : Option (Nat × Nat) :=
  if 0x110000 ≤ off ∧ off < 0x110200 then some (0, (off - 0x110000) / 0x10)
  else if 0x130000 ≤ off ∧ off < 0x130200 then some (1, (off - 0x130000) / 0x10)
  else none

/-- Whether an accessor reaches a place at all (R16, R25, R87, R222, R314, R324, R329, R424). -/
def State.reaches (s : State) (src : Accessor) (p : Place) : Bool := match p, src with
  | .debug .., src => s.debugOpen src
  | .window b _, .berth c => b == c
  | .window .., _ => true
  | .gate .., .operator => true
  | .gate .., .firmware => true
  | .gate g off, .host port =>
    port == 0 && g == 0 && ((decide (0x30000 ≤ off) && decide (off < 0x31000)) || (hdmExtAt off).isSome)
  | .die .., .operator => true
  | .die .., .firmware => true
  | _, _ => false

/-! ## Small helpers -/

/-- A register after a write of the bits of `mask`: only its RW bits take the value. -/
def mergeRw (old val mask rw : Word) : Word := (old &&& ~~~(mask &&& rw)) ||| (val &&& mask &&& rw)

/-- A register after a write to its W1C bits. -/
def clearW1c (old val mask w1c : Word) : Word := old &&& ~~~(val &&& mask &&& w1c)

/-- SITE of an event for a router or die number. -/
def State.siteFor (s : State) (r : Nat) : Nat := s.routerSiteNum r

/-- Logs an ignored class S write (kind 1) or commit (kind 2) of router `r` with its sticky flag (R7). -/
def State.ignore (s : State) (kind r flagOff flagBit off : Nat) (v : Word) : State :=
  s.ignored kind (baseOf r + flagOff) flagBit (s.siteFor r) (baseOf r + off) v

/-- Logs an ignored write of G0 with its sticky flag. -/
def State.ignoreG (s : State) (kind flagOff flagBit off : Nat) (v : Word) : State :=
  s.ignored kind (ghBase 0 + flagOff) flagBit 80 (ghBase 0 + off) v

/-- A die number below 72 is a logical die in service; class B boundaries exist only there. -/
def State.busyR (s : State) (r : Nat) : Bool := decide (r < 72) && s.dieBusy r

/-! ## Finishing banks (R68) -/

/-- Key of a finishing-window byte: router number and offset in the two banks. -/
def finKey (r off : Nat) : Nat := r * 0x10000 + off

/-- A byte of a finishing bank; 0 where nothing has been written (log entry 4). -/
def State.finByte (s : State) (r off : Nat) : Byte := NMap.getD s.eng.fin (finKey r off) 0

/-- The bank that commands starting now use. -/
def State.finBank (s : State) (r : Nat) : Nat := s.rfld (baseOf r + 0x200) 16 16

/-- The image identifier of a bank: its first halfword. -/
def State.finId (s : State) (r bank : Nat) : Nat :=
  (s.finByte r (bank * 0x8000)).toNat + 256 * (s.finByte r (bank * 0x8000 + 1)).toNat

/-- Puts a committed finishing bank into effect; measurement block 7 changes (R402). -/
def State.finApply (s : State) (r : Nat) (bank : Bool) : State :=
  let b := if bank then 1 else 0
  let s := s.modEng fun e => { e with finPending := NMap.erase e.finPending r }
  let s := s.modSec fun x => { x with measGen := x.measGen + 1 }
  s.setReg (baseOf r + 0x200)
    (Word.setFld (Word.setFld (Word.setFld (s.reg (baseOf r + 0x200)) 48 48 0) 16 16 b) 47 32 (s.finId r b))

/-- A COMMIT of FIN_CTL (R68): captured; in effect at the command boundary, at once where no command runs. -/
def State.finCommit (s : State) (r : Nat) : State :=
  let bank := s.rbit (baseOf r + 0x200) 0
  if s.busyR r then
    (s.modEng fun e => { e with finPending := NMap.put e.finPending r bank }).setRbit (baseOf r + 0x200) 48 true
  else s.finApply r bank

/-- A write of bytes through the finishing window; the active bank counts as busy. -/
def State.finWrite (s : State) (r off : Nat) (bytes : List Byte) : State :=
  if off / 0x8000 = s.finBank r then s.ignore 1 r 0x210 16 (0x10000 + off) (BitVec.ofNat 64 (ofBytes bytes))
  else s.modEng fun e => { e with
    fin := (List.range bytes.length).foldl (fun h i => NMap.set 0 h (finKey r (off + i)) (byteAt bytes i)) e.fin }

/-- Class B fields with the command boundary: applied where no command runs on the die, else held (R6, R87, Table 7.9). -/
def State.spentPoisonWrite (s : State) (r off idx : Nat) (v : Bool) : State :=
  if s.busyR r then s.modEng fun e => { e with spentPending := NMap.put e.spentPending (r * 2 + idx) v }
  else (s.modEng fun e => { e with spentPending := NMap.erase e.spentPending (r * 2 + idx) }).setRbit (baseOf r + off) 1 v

/-- What waits for the command boundary of a die takes effect once no command runs on it (R6, R68, R87). -/
def State.commandBoundary (s : State) (d : Nat) : State :=
  if s.dieBusy d then s
  else
    let s := match NMap.get? s.eng.finPending d with | some b => s.finApply d b | none => s
    let s := match NMap.get? s.eng.spentPending (d * 2) with | some v => s.spentPoisonWrite d 0x210 0 v | none => s
    match NMap.get? s.eng.spentPending (d * 2 + 1) with | some v => s.spentPoisonWrite d 0x3000 1 v | none => s

/-! ## HOLD_CTL (R87) -/

/-- A write of INJECT: a non-zero kind arms one fault, in place of one already armed. -/
def State.injectWrite (s : State) (r kind te : Nat) : State :=
  if kind = 0 then s else s.setRfld (baseOf r + 0x210) 13 8 (kind * 16 + te)

/-- The fault armed for an engine: its kind, 0 for none. -/
def State.injectArmed (s : State) (d te : Nat) : Nat :=
  if s.rfld (dieBase d + 0x210) 11 8 = te then s.rfld (dieBase d + 0x210) 13 12 else 0

/-- Takes the armed fault of an engine as its next tile starts. -/
def State.injectTake (s : State) (d te : Nat) : State :=
  if s.injectArmed d te = 0 then s else s.setRfld (dieBase d + 0x210) 13 8 0

/-! ## Basin registers -/

/-- The far lines of a slice, by set. -/
def State.farOver (s : State) (d slice q : Nat) : Bool :=
  s.basin.farLines.any fun e => keyUnit e.1 == d && chanOf (keyAddr e.1) == slice &&
    decide ((s.farSet d (keyAddr e.1)).length > q)

/-- Whether a slice's home part holds more lines of some set than `16 - q` ways. -/
def State.homeOver (s : State) (d slice q : Nat) : Bool :=
  s.basin.homeLines.any fun e => homeOf e.1 == d && chanOf e.1 == slice && decide ((s.homeSet e.1).length > 16 - q)

/-- Puts a far quota into effect (R178). -/
def State.quotaApply (s : State) (r slice q : Nat) : State :=
  let s := s.modBasin fun b => { b with quotaNew := NMap.erase b.quotaNew (r * 64 + slice) }
  s.setRfld (baseOf r + 0x3100 + slice * 8) 19 16 q

/-- A write of FAR_QUOTA (R178): 13 to 15 are ignored; a change with nothing to clear applies at once. -/
def State.farQuotaW (s : State) (r slice : Nat) (v : Word) : State :=
  let q := Word.fld v 3 0
  let a := baseOf r + 0x3100 + slice * 8
  if q ≥ 13 then s.ignore 1 r 0x3000 16 (0x3100 + slice * 8) v
  else
    let s := s.setRfld a 3 0 q
    if r < 72 ∧ (s.farOver r slice q ∨ s.homeOver r slice q) then
      s.modBasin fun b => { b with quotaNew := NMap.put b.quotaNew (r * 64 + slice) q }
    else s.quotaApply r slice q

/-- The address of window `w` of router `r`. -/
def winBase (r w : Nat) : Nat := baseOf r + 0x4000 + w * 0x40

/-- Puts a committed window into effect. -/
def State.winApply (s : State) (r w : Nat) (set : Word × Word × Word) : State :=
  let b := winBase r w
  let s := s.modBasin fun x => { x with winPending := NMap.erase x.winPending (r * 16 + w) }
  (((s.setReg (b + 0x20) set.1).setReg (b + 0x28) set.2.1).setReg (b + 0x30) set.2.2).setRbit (b + 0x18) 48 false

/-- Whether a committed set changes VALID, REMOTE, DEV_ID, RED_OP or TRACKED (R180). -/
def winStatic (old new : Word) : Bool := Word.fld old 63 39 != Word.fld new 63 39

/-- A COMMIT of a window (R180): ignored where it carries PCLASS 3 or an unlisted RED_OP, or changes a static field while a
command of the window's berth runs; else applied at the next tile completion, at once where no tile runs. -/
def State.winCommit (s : State) (r w : Nat) : State :=
  let b := winBase r w
  let at' := s.reg (b + 0x10)
  let old := s.reg (b + 0x30)
  let v := Word.setBit 0 63 true
  let named (x : Word) (c : Cmd) : Bool := Word.fld x 7 0 == 0xFF || Word.fld x 7 0 == c.berth
  let busy := decide (r < 72) && (s.cmdsOn r).any fun c => named old c || named at' c
  if Word.fld at' 38 37 = 3 ∨ Word.fld at' 43 40 ≥ 14 then s.ignore 2 r 0x3000 16 (0x4000 + w * 0x40 + 0x18) v
  else if winStatic old at' ∧ busy then
    let s := s.modBasin fun x => { x with winPending := NMap.erase x.winPending (r * 16 + w) }
    (s.setRbit (b + 0x18) 48 false).ignore 2 r 0x3000 16 (0x4000 + w * 0x40 + 0x18) v
  else
    let set := (s.reg b, s.reg (b + 8), at')
    if r < 72 ∧ s.tileBusy r then
      (s.modBasin fun x => { x with winPending := NMap.put x.winPending (r * 16 + w) set }).setRbit (b + 0x18) 48 true
    else s.winApply r w set

/-- The first tile completion on a die puts its committed windows into effect (R180). -/
def State.tileBoundary (s : State) (d : Nat) : State :=
  (List.range 16).foldl (fun s w => match NMap.get? s.basin.winPending (d * 16 + w) with
    | some set => s.winApply d w set
    | none => s) s

/-- Applies the queued updates of a die's slices (R197). -/
def State.drainSlices (s : State) (d : Nat) (slice : Option Nat) : State :=
  (s.basin.updq.filter fun q => q.die == d && (match slice with | some n => q.slice == n | none => true)).foldl
    (fun s q => s.drainLine (lineOf q.line)) s

/-- A write of BASIN_MAINT's OP (R199): ignored while BUSY; other values than 1 to 3 do nothing. -/
def State.maintWrite (s : State) (r op : Nat) (slice : Option Nat) (v : Word) : State :=
  let a := baseOf r + 0x3008
  if op = 0 ∨ op > 3 then s
  else if s.rbit a 0 then s.ignore 1 r 0x3000 16 0x3008 v
  else if r ≥ 72 then s
  else
    let s := if op = 2 ∨ op = 3 then s.cleanFar r slice else s
    let s := if op = 1 ∨ op = 3 then (s.drainSlices r slice).flushHome r slice else s
    (s.modBasin fun b => { b with maint := NMap.put b.maint r (op, slice) }).setRbit a 0 true

/-! ## Spread sets (R207, R208) -/

/-- Grains of an aperture. -/
def sprGrains (aper : Word) : Nat := (Word.fld aper 25 16 + 1) * 0x40000

/-- Whether a set may be committed (R207): in the aperture, apart from other valid sets, with members and backing. -/
def State.sprOk (s : State) (r k : Nat) (aper lo hi back : Word) : Bool :=
  let start := Word.fld aper 9 0
  let size := Word.fld aper 25 16 + 1
  let n := (bitsOf 72 (lo.toNat + Word.fld hi 7 0 * 2 ^ 64)).length
  let pages := ((sprGrains aper + n - 1) / n + 15) / 16
  decide (start + size ≤ 1024) && decide (n > 0) && decide (Word.fld back 35 16 + pages ≤ 0xC0000) &&
  (List.range 8).all fun j => j == k ||
    (let o := s.reg (baseOf r + 0x5000 + j * 0x80 + 0x40)
     !Word.bit o 63 || decide (start + size ≤ Word.fld o 9 0) || decide (Word.fld o 9 0 + Word.fld o 25 16 + 1 ≤ start))

/-- A COMMIT of a spread set (R207). -/
def State.spreadCommitW (s : State) (r k : Nat) : State :=
  let b := baseOf r + 0x5000 + k * 0x80
  let aper := s.reg b
  let ok := !s.busyR r && (!Word.bit aper 63 || s.sprOk r k aper (s.reg (b + 8)) (s.reg (b + 0x10)) (s.reg (b + 0x18)))
  if ok then
    (((s.setReg (b + 0x40) aper).setReg (b + 0x48) (s.reg (b + 8))).setReg (b + 0x50) (s.reg (b + 0x10))).setReg (b + 0x58)
      (s.reg (b + 0x18))
  else s.ignore 2 r 0x3000 16 (0x5000 + k * 0x80 + 0x20) (Word.setBit 0 63 true)

/-! ## DRAM margining (R222) -/

/-- A write of 1 to START: ignored while the die is in service or BUSY is set. -/
def State.mgnStart (s : State) (r : Nat) (v : Word) : State :=
  let a := baseOf r + 0x6000
  if r < 72 ∨ s.rbit a 62 then s.ignore 1 r 0x6000 61 0x6000 v
  else (s.setRbit a 62 true).modMem fun m => { m with margining := insertNat (r - 80) m.margining }

/-! ## Clocks (R373, R374) -/

/-- Whether a ratio and limit may be committed for a region (R373). -/
def State.ratioOk (s : State) (d ratio limit : Nat) (east : Bool) : Bool :=
  let g := if east then s.rfld (dieBase d + 0x308) 35 30 else s.rfld (dieBase d + 0x308) 29 24
  decide (12 ≤ ratio) && decide (ratio ≤ limit) && decide (limit ≤ g) &&
  decide (ratio ≤ Config.curveRatio d (NMap.getD s.pwr.railSet d 0))

/-- A COMMIT of CLK_CTL (R373): at once, or ignored. The time of the last commit is noted for R378. -/
def State.clkCommit (s : State) (d : Nat) : State :=
  let a := dieBase d + 0x300
  let w := s.reg a
  let ok := s.ratioOk d (Word.fld w 5 0) (Word.fld w 17 12) false && s.ratioOk d (Word.fld w 11 6) (Word.fld w 23 18) true
  if ok then
    let w := Word.setFld (Word.setFld (Word.setFld (Word.setFld w 29 24 (Word.fld w 5 0)) 35 30 (Word.fld w 11 6)) 41 36
      (Word.fld w 17 12)) 47 42 (Word.fld w 23 18)
    let s := s.modPwr fun p => { p with lastCommit := NMap.put p.lastCommit d s.clk.now }
    (s.setReg a w).effSet d
  else s.ignore 2 d 0x300 51 0x300 (Word.setBit 0 63 true)

/-- A write of the two economy bits (R374): the segment's divider changes and its ports reopen. -/
def State.ecoWrite (s : State) (r : Nat) (v mask : Word) : State :=
  s.setReg (baseOf r + 0x300) (mergeRw (s.reg (baseOf r + 0x300)) v mask 0x0006000000000000)

/-! ## Routers (R236) -/

/-- Whether a router holds flits of the old epoch (OLD_BUSY). -/
def State.routerOld (s : State) (r : Nat) : Bool :=
  let ep := s.rbit (baseOf r + 0x7600) 16
  (List.range 10).any fun p => (s.cutPort r p).queue.any fun q => q.epoch != ep

/-- An ignored write of a router register or route bank: CFG_IGNORED of its ports (Table 9.4). -/
def State.ignoreRouter (s : State) (kind r off : Nat) (v : Word) : State :=
  let s := (List.range 10).foldl (fun s p => if s.hasCut r p then s.setRbit (cutCtlA r p) 60 true else s) s
  s.event kind (s.siteFor r) 0xFFFF (baseOf r + off) v

/-- A write into a route bank: the active bank, and the old one while OLD_BUSY, are ignored (R236). -/
def State.routeBankWrite (s : State) (r off : Nat) (v mask : Word) : State :=
  let bank := decide (off ≥ 0x7500)
  if bank == s.rbit (baseOf r + 0x7600) 16 || s.routerOld r then s.ignoreRouter 1 r off v
  else s.setReg (baseOf r + off) (mergeRw (s.reg (baseOf r + off)) v mask 0x0FF00FF00FF00FF0)

/-- A COMMIT of ROUTE_CTL: captured until G0's broadcast (R236). -/
def State.routeCommitW (s : State) (r : Nat) : State :=
  let a := baseOf r + 0x7600
  (s.modCut fun c => { c with pendingEpoch := NMap.put c.pendingEpoch r (s.rbit a 0) }).setRbit a 48 true

/-- G0's express broadcast: every router applies its committed epoch (R236). -/
def State.epochApply (s : State) : State :=
  let s' := s.cut.pendingEpoch.foldl (fun (s : State) e =>
    (s.setRbit (baseOf e.1 + 0x7600) 16 e.2).setRbit (baseOf e.1 + 0x7600) 48 false) s
  s'.modCut fun c => { c with pendingEpoch := [] }

/-- A write of CUT_CTLp. -/
def State.cutCtlWrite (s : State) (r p : Nat) (v mask : Word) : State :=
  let a := cutCtlA r p
  let s := s.setReg a (clearW1c (mergeRw (s.reg a) v mask 0x1FF) v mask 0x1000000000000000)
  let on := v &&& mask
  let s := if Word.bit mask 62 ∧ Word.bit v 62 ≠ s.rbit a 62 then s.cutForceW r p (Word.bit v 62) else s
  let s := if Word.bit on 61 then s.cutRestoreW r p else s
  if Word.bit on 63 then s.cutRetrainW r p else s

/-! ## Berth maps (R251, R252) -/

/-- Whether a berth's old bank still has tickets or walks outstanding: transfers, and threads whose access in progress
latched it (R251). -/
def State.bmapOld (s : State) (b : Nat) : Bool :=
  let act := s.activeBank b
  (s.eng.xfers.any fun x => x.berth == b && x.bank != act) ||
  s.thr.threads.any fun e => e.2.berth == b && e.2.bank != act && e.2.wait == .memory

/-- A write of a ROOT register (R251, R252): ignored for the active bank, and the old one while OLD_BUSY; else every TLB entry
of that berth and bank goes. -/
def State.bmapRootW (s : State) (b bank : Nat) (v mask : Word) : State :=
  let off := 0x10000 + b * 0x40 + bank * 8
  let act := s.activeBank b
  if (bank == 1) == act || s.bmapOld b then s.ignoreG 1 (0x10000 + b * 0x40 + 0x10) 16 off v
  else (s.setReg (ghBase 0 + off) (mergeRw (s.reg (ghBase 0 + off)) v mask 0x7FFFFFFF800)).tlbDrop b (bank == 1)

/-- A COMMIT of BANK_SEL: broadcast from G0 and applied on every die (R252). -/
def State.bmapCommitW (s : State) (b : Nat) : State :=
  let a := bmapBase b + 0x10
  s.setRbit a 32 (s.rbit a 0)

/-! ## Erhar registers (Table 11.6) -/

/-- Whether any Erhar port is active, which keeps ERH_DEV busy. -/
def State.erhBusy (s : State) : Bool := (List.range 36).any fun p => s.erhState p == 2

/-- A write of ERH_DEV. -/
def State.erhDevWrite (s : State) (v mask : Word) : State :=
  if s.erhBusy then s.ignoreG 1 0x20008 20 0x20000 v
  else s.setReg (ghBase 0 + 0x20000) (mergeRw (s.reg (ghBase 0 + 0x20000)) v mask 0x800000000003FFFF)

/-- A COMMIT of ERH_RCTL (R289): applied; flits of the old epoch may be held from now. -/
def State.erhCommit (s : State) : State :=
  let sel := s.rbit erhRctlA 0
  if sel = s.rbit erhRctlA 32 then s
  else
    let s := (s.setRbit erhRctlA 32 sel).setRbit erhRctlA 40 true
    s.modErh fun e => { e with oldHeldAt := s.clk.now }

/-- A write of ERH_RCTL: TMO_US outside 10 to 65,535 is ignored. -/
def State.erhRctlWrite (s : State) (v mask : Word) : State :=
  let old := s.reg erhRctlA
  let new := mergeRw old v mask 0x1FFFF
  let bad := Word.fld new 16 1 < 10
  let new := if bad then Word.setFld new 16 1 (Word.fld old 16 1) else new
  let s := s.setReg erhRctlA (clearW1c new v mask 0x100000)
  let s := if bad then s.ignoreG 1 0x20008 20 0x20008 v else s
  if Word.bit (v &&& mask) 63 then s.erhCommit else s

/-- A write of ERH_PCTL of a port. -/
def State.erhPctlWrite (s : State) (p : Nat) (v mask : Word) : State :=
  let a := erhCtlA p
  let s := s.setReg a (mergeRw (s.reg a) v mask 0x1000000000000000)
  let on := v &&& mask
  let s := if Word.bit mask 62 ∧ Word.bit v 62 ≠ s.rbit a 62 then s.erhForceW p (Word.bit v 62) else s
  let s := if Word.bit on 61 then s.erhRestoreW p else s
  if Word.bit on 63 then s.erhRetrainW p else s

/-- A write into an Erhar route bank (R289). -/
def State.erhBankWrite (s : State) (off : Nat) (v mask : Word) : State :=
  let bank := decide (off ≥ 0x23000)
  if bank == s.rbit erhRctlA 32 || s.rbit erhRctlA 40 then s.ignoreG 1 0x20008 20 off v
  else s.setReg (ghBase 0 + off) (mergeRw (s.reg (ghBase 0 + off)) v mask (BitVec.allOnes 64))

/-! ## HDM_EXT (R314, R323) -/

/-- Whether decoder n of a port is busy: from its commit until its uncommit completes. -/
def State.decBusy (s : State) (port n : Nat) : Bool := match NMap.get? (s.cport port).decoders n with
  | some d => d.committed || d.uncommitting
  | none => false

/-- The berth whose identity decoder n carries; 255 is treated as 0. -/
def State.decBerth (s : State) (port n : Nat) : Nat :=
  let b := s.rfld (ghBase 0 + hdmExtOff port n) 62 55
  if b = 255 then 0 else b

/-- A write of HDM_EXTn: ignored while the decoder is busy, or while its trusted berth's interface is locked (R323). -/
def State.hdmExtWrite (s : State) (port n : Nat) (v mask : Word) : State :=
  let a := ghBase 0 + hdmExtOff port n
  let locked : Bool := match s.berth? (s.decBerth port n) with
    | some e => e.trusted && e.locked
    | none => false
  let s := s.setReg a (clearW1c (s.reg a) v mask 1)
  let rw : Word := 0xFF8007FFF0000000
  if mask &&& rw = 0 then s
  else if s.decBusy port n ∨ locked then s.ignored 1 a 0 80 a v
  else s.setReg a (mergeRw (s.reg a) v mask rw)

/-! ## Mailbox pages (R329 to R331) -/

/-- Key of a mailbox page: 0 the operator's, else its berth. -/
def mbKey : Mbox → Nat
  | .op => 0
  | .berth b => b

/-- A mailbox page. -/
def State.mbPage (s : State) (k : Nat) : MbPage := NMap.getD s.mbx.pages k { bytes := [], req := none, stage := false, work := [] }

/-- Changes a mailbox page. -/
def State.modPage (s : State) (k : Nat) (f : MbPage → MbPage) : State :=
  s.modMbx fun m => { m with pages := NMap.put m.pages k (f (s.mbPage k)) }

/-- Bytes of a mailbox page. -/
def MbPage.get (p : MbPage) (off n : Nat) : List Byte := (List.range n).map fun i => NMap.getD p.bytes (off + i) 0

/-- A field of a mailbox page. -/
def MbPage.num (p : MbPage) (off n : Nat) : Nat := ofBytes (p.get off n)

/-- Writes bytes of a mailbox page. -/
def MbPage.set (p : MbPage) (off : Nat) (bytes : List Byte) : MbPage :=
  { p with bytes := (List.range bytes.length).foldl (fun m i => NMap.set 0 m (off + i) (byteAt bytes i)) p.bytes }

/-- Whether firmware holds the page. -/
def MbPage.owned (p : MbPage) : Bool := p.num 0 1 % 2 == 1

/-- Whether a caller may write an offset of the page (Table 13.1). -/
def callerByte (off : Nat) : Bool :=
  decide (off < 0x0A) || off == 0x0C || off == 0x0D || (decide (0x10 ≤ off) && decide (off < 0x18)) ||
  (decide (0x100 ≤ off) && decide (off < 0x1000))

/-- A caller's write to a page (R330, R331): discarded and counted while firmware holds it; OWNER keeps bit 0 alone. -/
def State.mbWrite (s : State) (k off : Nat) (bytes : List Byte) : State :=
  s.modPage k fun p =>
    if p.owned then p.set 0x2C (bytesOf 4 (satAdd 32 (p.num 0x2C 4) 1))
    else (List.range bytes.length).foldl (fun p i =>
      let o := off + i
      if o = 0 then p.set 0 [byteAt bytes i &&& 1]
      else if 0 < o ∧ o < 4 then p
      else if callerByte o then p.set o [byteAt bytes i] else p) p

/-! ## Berth windows (R324, R325) -/

/-- Counts an access to a window that was refused or discarded. -/
def State.winRefused (s : State) (b : Nat) : State :=
  s.modBth fun x => { x with refused := NMap.put x.refused b (satAdd 64 (NMap.getD x.refused b 0) 1) }

/-- State number of a berth in BW_ID (Table 12.4). -/
def BerthState.code : BerthState → Nat
  | .free => 0
  | .active => 1
  | .resetting => 2
  | .destroying => 3

/-- The context of a berth's slot. -/
def State.slotCtx (s : State) (b k : Nat) : Option Nat := (s.berth? b).bind fun e => e.slots.toList.getD k none

/-- Whether a berth is ACTIVE; the operator's always is. -/
def State.berthActive (s : State) (b : Nat) : Bool := match s.berth? b with
  | some e => e.state == .active
  | none => b == 0

/-- An 8-byte word of a window outside its mailbox page; the Bool says that the read is refused (R325). -/
def State.winWord (s : State) (b off n : Nat) : Word × Bool :=
  let num (v : Nat) : Word := BitVec.ofNat 64 v
  if off = 0 then
    match s.berth? b with
    | some e => (num (((NMap.get? s.erh.spans b).map fun x => x.id).getD 0 * 2 ^ 40 + e.state.code * 2 ^ 32 +
        (if e.trusted then 2 ^ 24 else 0) + e.kind * 2 ^ 16 + b), false)
    | none => (num b, false)
  else if off = 8 then (num s.clk.now, false)
  else if off = 0x10 then (num (NMap.getD s.bth.refused b 0), false)
  else if 0x40 ≤ off ∧ off < 0xC0 then
    (num (sumNat ((List.range 4).map fun i => match s.slotCtx b ((off - 0x40) / 2 + i) with
      | some c => (0x8000 + c) * 2 ^ (16 * i)
      | none => 0)), false)
  else if 0x1000 ≤ off ∧ off < 0x3000 then
    if !s.berthActive b then (0, false)
    else match (s.slotCtx b ((off - 0x1000) / 0x80)).bind s.ctx? with
      | some c => if n = 8 then (c.ctr ((off - 0x1000) % 0x80 / 8), false) else (0, true)
      | none => (0, true)
  else if 0x4000 ≤ off ∧ off < 0xC000 then
    if !s.berthActive b then (0, false)
    else match NMap.get? s.erh.groups ((off - 0x4000) / 8) with
      | some g => if g.berth = b ∧ off ≠ 0x4000 then (num (g.gen % 2 ^ 48 * 2 ^ 16 + g.lastStatus.toNat), false) else (0, false)
      | none => (0, false)
  else (0, false)

/-- A read of part of one aligned 8-byte word of a window. -/
def State.winRead1 (s : State) (b off n : Nat) : List Byte × State :=
  if 0x3000 ≤ off ∧ off < 0x4000 then ((s.mbPage b).get (off - 0x3000) n, s)
  else
    let (w, refused) := s.winWord b (off - off % 8) n
    ((bytesOf 8 w.toNat).drop (off % 8) |>.take n, if refused then s.winRefused b else s)

/-- A plain write of part of one aligned 8-byte word of a window (R324, R325). -/
def State.winWrite1 (s : State) (b off : Nat) (bytes : List Byte) : State :=
  if 0x3000 ≤ off ∧ off < 0x4000 then
    if b ≠ 0 ∧ (s.berth? b).all (·.state == .free) then s.winRefused b
    else if b = 0 then s.winRefused b
    else s.mbWrite b (off - 0x3000) bytes
  else if off < 0x1000 ∨ (0x4000 ≤ off ∧ off < 0xC000) then s
  else s.winRefused b

/-- An increment of a window's counter word (R325): the old value, or none where it is refused. -/
def State.winAdd (s : State) (b off : Nat) (inc : Word) : Option Word × State :=
  let c := if s.berthActive b ∧ 0x1000 ≤ off ∧ off < 0x3000 ∧ off % 8 = 0 then s.slotCtx b ((off - 0x1000) / 0x80) else none
  match c.bind fun n => (s.ctx? n).map fun x => (n, x) with
  | some (n, x) => (some (x.ctr ((off - 0x1000) % 0x80 / 8)), s.addCtr n ((off - 0x1000) % 0x80 / 8) inc)
  | none => (none, s.winRefused b)

/-! ## Reads -/

/-- FUSE_POLICY (Table 16.2): the fuses as published at bring-up, and the alarm and debug states. -/
def State.fusePolicy (s : State) : Word :=
  let w := s.sec.published
  let w := Word.setBit w 62 s.sec.alarmLock
  let w := Word.setFld w 23 16 s.sec.alarmCause
  Word.setBit w 0 (match s.sec.debugUntil with | some t => decide (s.clk.now < t) | none => false)

/-- The fuse values that a bring-up publishes (R393). A fused DEBUG_POLICY of 2 reads as 3, an
ALARM_POLICY of 0 as 1. -/
def Fuses.publish (f : Fuses) : Word :=
  BitVec.ofNat 64 ((if f.kill then 2 ^ 63 else 0) + f.svn % 256 * 2 ^ 44 + f.revokeSlh.toNat * 2 ^ 40 +
    f.revokeRsa.toNat * 2 ^ 36 + Nat.max 1 (254 - f.berthReduce.toNat) * 2 ^ 28 +
    (if f.debugPolicy = 2 then 3 else f.debugPolicy.toNat) * 2 ^ 26 + Nat.max 1 f.alarmPolicy.toNat * 2 ^ 24)

/-- TRAY_STAT (Table 19.5): the sampled and filtered signals; VIN and IIN are measurements (log entry 26). -/
def State.trayStat (s : State) : Word :=
  let free := (Config.freeWord s.fresh).toNat % 2 ^ 32
  let b (x : Bool) (i : Nat) : Nat := if x then 2 ^ i else 0
  let seen := match s.pwr.standbyGood, s.erh.ppsLast with
    | true, some t => decide (s.clk.now < t + 2000000000)
    | _, _ => false
  BitVec.ofNat 64 (free * 2 ^ 32 + s.pwr.modId.toNat * 2 ^ 24 + Nat.min 255 s.erh.ppsIgnored * 2 ^ 16 + 2 ^ 6 +
    b s.pwr.alarmN 5 + b s.pwr.thermTrip 4 + b seen 3 + b s.pwr.pwrGood 2 + b s.pwr.vr 1 + b s.pwr.flow 0)

/-- The aligned 8-byte register word of a die's space. -/
def State.dieWord (s : State) (r off : Nat) : Word :=
  let w := s.reg (baseOf r + off)
  if off = 0x210 then Word.setFld w 13 8 0
  else if off = 0x308 ∧ r < 72 then
    Word.setFld w 15 0 (Nat.min 0xFFFF (s.droops (r * 2) 1000000 + s.droops (r * 2 + 1) 1000000))
  else if off = 0x7600 then Word.setBit w 32 (s.routerOld r)
  else if 0x10000 ≤ off ∧ off < 0x20000 then
    BitVec.ofNat 64 (ofBytes ((List.range 8).map fun i => s.finByte r (off - 0x10000 + i)))
  else w

/-- Number of a time synchronisation state. -/
def SyncState.code : SyncState → Nat
  | .free => 0
  | .locking => 1
  | .locked => 2
  | .holdover => 3

/-- The aligned 8-byte register word of a gatehouse's space. -/
def State.gateWord (s : State) (g off : Nat) : Word :=
  let w := s.reg (ghBase g + off)
  if g = 0 ∧ off = 0x8000 then s.fusePolicy
  else if g = 0 ∧ off = 0x8100 then s.trayStat
  else if g = 0 ∧ off = 0x20010 then Config.tsyncWord false s.erh.role s.erh.upstream
  else if g = 0 ∧ off = 0x20018 then Config.tsyncWord true s.erh.sync.code s.erh.offset
  else if g = 0 ∧ 0x10000 ≤ off ∧ off < 0x14000 ∧ off % 0x40 = 0x10 then
    Word.setBit w 40 (s.bmapOld ((off - 0x10000) / 0x40))
  else if g = 0 ∧ 0x30000 ≤ off ∧ off < 0x31000 then BitVec.ofNat 64 ((s.mbPage 0).num (off - 0x30000) 8)
  else if off = 0x7600 then Word.setBit w 32 (s.routerOld (72 + g))
  else w

/-- A read of the debug hold aperture within one sector (R86). -/
def State.debugRead (s : State) (d slot : Option Nat) (off n : Nat) : List Byte × State :=
  match slot with
  | none => (List.replicate n 0, s)
  | some k =>
    let tag := (s.side k off).tag
    if 1 ≤ tag ∧ tag ≤ 254 then
      (List.replicate n 0, s.event 3 (k / 20) (k % 20) ((d.map dieBase).getD (siteBase (k / 20)) + 0x80000000 + off) 0)
    else (s.holdRead k off n, s)

/-- A read of part of one aligned 8-byte word of register space. None where the accessor may not reach it. -/
def State.regRead1 (s : State) (src : Accessor) (a n : Nat) : Option (List Byte) × State :=
  let p := s.place a
  let cut (w : Word) : List Byte := ((bytesOf 8 w.toNat).drop (a % 8)).take n
  if !s.reaches src p then (none, s)
  else match p with
    | .die r off => (some (cut (s.dieWord r (off - off % 8))), s)
    | .gate g off =>
      (some (cut (s.gateWord g (off - off % 8))), if g = 0 ∧ off / 8 = 0x8100 / 8 then s.drawn 1 else s)
    | .window b off => let (bs, s) := s.winRead1 b off n; (some bs, s)
    | .debug d k off => let (bs, s) := s.debugRead d k off n; (some bs, s)
    | .none => (none, s)

/-- The pieces of [a, a + n) within aligned 8-byte words. -/
def wordPieces : Nat → Nat → Nat → List (Nat × Nat)
  | 0, _, _ => []
  | fuel + 1, a, n =>
    if n = 0 then []
    else
      let k := Nat.min n (8 - a % 8)
      (a, k) :: wordPieces fuel (a + k) (n - k)

/-- A register-space read of `n` bytes; none where it is refused. -/
def State.regRead (s : State) (src : Accessor) (a n : Nat) : Option (List Byte) × State :=
  (wordPieces (n + 1) a n).foldl (fun (acc : Option (List Byte) × State) p =>
    let (b, s) := acc.2.regRead1 src p.1 p.2
    (match acc.1, b with | some x, some y => some (x ++ y) | _, _ => none, s)) (some [], s)

/-! ## Writes -/

/-- A write of the bits `mask` of an aligned 8-byte word of a die's space. -/
def State.dieWrite (s : State) (src : Accessor) (r off : Nat) (v mask : Word) : State :=
  let a := baseOf r + off
  let on := v &&& mask
  let rw (s : State) (m : Word) : State := s.setReg a (mergeRw (s.reg a) v mask m)
  let w1c (s : State) (m : Word) : State := s.setReg a (clearW1c (s.reg a) v mask m)
  if off = 0x200 then
    let s := rw s 1
    if Word.bit on 63 then s.finCommit r else s
  else if off = 0x210 then
    let s := w1c s 0x10000
    let s := if Word.bit mask 1 then s.spentPoisonWrite r 0x210 0 (Word.bit v 1) else s
    s.injectWrite r (Word.fld on 13 12) (Word.fld on 11 8)
  else if off = 0x300 then
    if src = .firmware then
      let s := s.ecoWrite r v mask
      let s := rw (w1c s 0x8000000000000) 0xFFFFFF
      if Word.bit on 63 ∧ r < 72 then s.clkCommit r else s
    else s
  else if off = 0x3000 then
    let s := rw (w1c s 0x10000) 1
    if Word.bit mask 1 then s.spentPoisonWrite r 0x3000 1 (Word.bit v 1) else s
  else if off = 0x3008 then
    s.maintWrite r (Word.fld on 63 60) (if Word.bit on 59 then none else some (Word.fld on 58 53)) v
  else if 0x3100 ≤ off ∧ off < 0x3300 then
    if Word.bit mask 0 then s.farQuotaW r ((off - 0x3100) / 8) v else s
  else if 0x4000 ≤ off ∧ off < 0x4400 then
    let w := (off - 0x4000) / 0x40
    match off % 0x40 with
    | 0x00 => rw s 0x7FFFFFF
    | 0x08 => rw s 0x7FFFFFF
    | 0x10 => rw s 0xFFFFFFFF000000FF
    | 0x18 => if Word.bit on 63 then s.winCommit r w else s
    | _ => s
  else if 0x5000 ≤ off ∧ off < 0x5400 then
    match off % 0x80 with
    | 0x00 => rw s 0x8000000003FF03FF
    | 0x08 => rw s (BitVec.allOnes 64)
    | 0x10 => rw s 0xFF
    | 0x18 => rw s 0xFFFFF0000
    | 0x20 => if Word.bit on 63 then s.spreadCommitW r ((off - 0x5000) / 0x80) else s
    | _ => s
  else if off = 0x6000 then
    let s := w1c s 0x2000000000000000
    let s := if mask &&& 0xFF303F = 0 then s
      else if s.rbit a 62 then s.ignore 1 r 0x6000 61 0x6000 v else rw s 0xFF303F
    if Word.bit on 63 then s.mgnStart r v else s
  else if 0x7000 ≤ off ∧ off < 0x7000 + 6 * 0x20 ∧ off % 0x20 = 8 then s.cutCtlWrite r ((off - 0x7000) / 0x20) v mask
  else if 0x7400 ≤ off ∧ off < 0x7600 then s.routeBankWrite r off v mask
  else if off = 0x7600 then
    let s := rw s 1
    if Word.bit on 63 then s.routeCommitW r else s
  else s

/-- A write of the bits `mask` of an aligned 8-byte word of a gatehouse's space. -/
def State.gateWrite (s : State) (g off : Nat) (v mask : Word) : State :=
  let a := ghBase g + off
  let on := v &&& mask
  if 0x7000 ≤ off ∧ off < 0x7000 + 10 * 0x20 ∧ off % 0x20 = 8 then s.cutCtlWrite (72 + g) ((off - 0x7000) / 0x20) v mask
  else if 0x7400 ≤ off ∧ off < 0x7600 then s.routeBankWrite (72 + g) off v mask
  else if off = 0x7600 then
    let s := s.setReg a (mergeRw (s.reg a) v mask 1)
    if Word.bit on 63 then s.routeCommitW (72 + g) else s
  else if 0x20100 ≤ off ∧ off < 0x20100 + 9 * 0x20 ∧ off % 0x20 = 8 then
    s.erhPctlWrite (g * 9 + (off - 0x20100) / 0x20) v mask
  else if g ≠ 0 then s
  else if 0x10000 ≤ off ∧ off < 0x10000 + 255 * 0x40 then
    let b := (off - 0x10000) / 0x40
    match off % 0x40 with
    | 0x00 => s.bmapRootW b 0 v mask
    | 0x08 => s.bmapRootW b 1 v mask
    | 0x10 =>
      let s := s.setReg a (clearW1c (mergeRw (s.reg a) v mask 1) v mask 0x10000)
      if Word.bit on 63 then s.bmapCommitW b else s
    | _ => s
  else if off = 0x20000 then s.erhDevWrite v mask
  else if off = 0x20008 then s.erhRctlWrite v mask
  else if 0x22000 ≤ off ∧ off < 0x24000 then s.erhBankWrite off v mask
  else match hdmExtAt off with
    | some (port, n) => if off % 0x10 = 0 then s.hdmExtWrite port n v mask else s
    | none => s

/-- A write to the debug hold aperture within one sector (R86): tag 0; the rest of a tenant's sector becomes zeros. -/
def State.debugWrite (s : State) (slot : Option Nat) (off : Nat) (bytes : List Byte) : State :=
  match slot with
  | none => s
  | some k =>
    let tag := (s.side k off).tag
    let base := off - off % 32
    if 1 ≤ tag ∧ tag ≤ 254 ∧ bytes.length < 32 then
      s.holdPut k base ((List.range 32).map fun i =>
        if off - base ≤ i ∧ i < off - base + bytes.length then byteAt bytes (i - (off - base)) else 0) 0 false
    else s.holdPut k off bytes 0 false

/-- The bit mask of bytes [lo, lo + n) of a word. -/
def byteMask (lo n : Nat) : Word := BitVec.ofNat 64 ((2 ^ (8 * n) - 1) * 2 ^ (8 * lo))

/-- A write of part of one aligned 8-byte word of register space; false where it is refused. -/
def State.regWrite1 (s : State) (src : Accessor) (a : Nat) (bytes : List Byte) : Bool × State :=
  let p := s.place a
  let v := BitVec.ofNat 64 (ofBytes bytes * 2 ^ (8 * (a % 8)))
  let m := byteMask (a % 8) bytes.length
  if !s.reaches src p then (false, s)
  else match p with
    | .die r off =>
      (true, if 0x10000 ≤ off ∧ off < 0x20000 then s.finWrite r (off - 0x10000) bytes else s.dieWrite src r (off - off % 8) v m)
    | .gate g off =>
      (true, if g = 0 ∧ 0x30000 ≤ off ∧ off < 0x31000 then s.mbWrite 0 (off - 0x30000) bytes
        else s.gateWrite g (off - off % 8) v m)
    | .window b off => (true, s.winWrite1 b off bytes)
    | .debug _ k off => (true, s.debugWrite k off bytes)
    | .none => (false, s)

/-- A register-space write of bytes; false where some part is refused. -/
def State.regWrite (s : State) (src : Accessor) (a : Nat) (bytes : List Byte) : Bool × State :=
  (wordPieces (bytes.length + 1) a bytes.length).foldl (fun (acc : Bool × State) p =>
    let (ok, s) := acc.2.regWrite1 src p.1 ((bytes.drop (p.1 - a)).take p.2)
    (acc.1 && ok, s)) (true, s)

end Sys2Proof.Machine
end

