-- ==== Sys2Proof/Machine/ThreadMem.lean ====
section
/-! DEFINITION. Memory as a general core sees it (chapters 4 and 6): the L1, loads, stores and atomics by virtual address,
and what a thread waits for when an answer is not at hand. -/

namespace Sys2Proof.Machine

/-- How an access stands: done with its bytes, a fault of Table 4.6, a failed status, a message to send before it can go on
(`ask` kind and line, the kinds of Pend), a GET to send, a stack in STOP (R219), or a copy that must be recalled first. -/
inductive Ld where
  | ok (bytes : List Byte)
  | fault (cause : Nat)
  | bad (st : Status)
  | ask (kind line : Nat)
  | get (ga : Nat)
  | stop (sector : Nat)
  | again
deriving DecidableEq, Repr

/-- Whether an access is done. -/
def Ld.done : Ld → Bool
  | .ok _ => true
  | _ => false

/-- The accessor that a thread's register accesses act as (R25, R87, R324). -/
def Thread.src (t : Thread) : Accessor := if t.berth = 0 && t.harbour then .operator else .berth t.berth

/-- The request of a thread for a DRAM address, with the tracking attributes of its own die (R181). -/
def State.threadReq (s : State) (tid : Nat) (t : Thread) (pa : Nat) : Req :=
  let w := s.winOf (dieOfThr tid) none pa
  { node := dieOfThr tid, agent := agentOf t.berth, tracked := attrTracked w, redOp := attrRed w, ctx := t.ctx }

/-- Translates a thread's address with the bank that its instruction latched; register space is not translated (log entry 24). -/
def State.xl (s : State) (t : Thread) (va : Nat) (want : Want) : Xl × State :=
  if isReg va then (if want = .exec then .fault 4 else .ok va, s) else s.translate t.berth t.bank va want false

/-- The translation request that a host-region access waits for: its port and I/O page. -/
def State.atsKey (s : State) (t : Thread) (va : Nat) : Nat := match s.regionOf t.berth t.bank va with
  | some r => (1 + r.dest) * 2 ^ 70 + (r.target + (va - r.base)) / 4096
  | none => 0

/-! ## The L1 data cache (R88, R96 to R100) -/

/-- The lines of a core's L1 in the set of a line: 64 sets of 8 ways (Table 4.1). -/
def State.l1Set (s : State) (core line : Nat) : List Nat :=
  sortNat ((s.basin.l1.filter fun e => keyUnit e.1 == core && lineOf (keyAddr e.1) / 128 % 64 == line / 128 % 64).map
    fun e => lineOf (keyAddr e.1))

/-- Drops a sector of a core's L1. -/
def State.l1DropSec (s : State) (core sa : Nat) : State :=
  s.modBasin fun b => { b with
    l1 := NMap.keep b.l1 fun k _ => !(keyUnit k == core && secOf (keyAddr k) == sa)
    l1Poison := NMap.erase b.l1Poison (heldKey core sa) }

/-- Makes room for a line in a core's L1: a full set evicts a line that the spec leaves open (log entry 12). False where its
write-back must wait for a host copy. -/
def State.l1Room (s : State) (core line : Nat) : Bool × State :=
  let set := s.l1Set core line
  if set.contains line ∨ set.length < 8 then (true, s)
  else
    let v := set.getD ((Config.freeWord s.fresh).toNat % set.length) 0
    let (ok, s) := (secsOfLine v).foldl (fun (a : Bool × State) sa =>
      let (ok, s) := a.2.l1WriteBack core sa
      (a.1 && ok, s)) (true, s.drawn 1)
    if ok then (true, (secsOfLine v).foldl (fun s sa => s.l1DropSec core sa) s) else (false, s)

/-- Puts fetched bytes of a sector beneath the dirty ones (R96). -/
def State.l1Fill (s : State) (core sa : Nat) (bytes : List Byte) : State :=
  s.modBasin fun b => { b with
    l1 := (List.range bytes.length).foldl (fun h i =>
      match NMap.get? h (heldKey core (sa + i)) with
      | some c => if c.dirty then h else NMap.put h (heldKey core (sa + i)) { val := byteAt bytes i, dirty := false }
      | none => NMap.put h (heldKey core (sa + i)) { val := byteAt bytes i, dirty := false }) b.l1 }

/-- Writes stored bytes into an L1 sector. -/
def State.l1Store (s : State) (core a : Nat) (bytes : List Byte) (dirty : Bool) : State :=
  let sa := secOf a
  s.modBasin fun b => { b with
    l1 := (List.range bytes.length).foldl (fun h i =>
      NMap.put h (heldKey core (a + i)) { val := byteAt bytes i, dirty := dirty }) b.l1
    l1Poison := if bytes.length = 32 then NMap.erase b.l1Poison (heldKey core sa) else b.l1Poison }

/-- Gives bytes that a copy holds their new value, clean, where a store went past it to the home. -/
def patchBytes (m : NMap CByte) (unit a : Nat) (bytes : List Byte) : NMap CByte :=
  (List.range bytes.length).foldl (fun h i => NMap.alter h (heldKey unit (a + i)) fun _ => { val := byteAt bytes i, dirty := false }) m

/-- After a store at the home: the core's and the die's own copies take the new bytes (R162). -/
def State.patch (s : State) (core a : Nat) (bytes : List Byte) : State :=
  s.modBasin fun b => { b with
    l1 := patchBytes b.l1 core a bytes
    far := patchBytes b.far (dieOfCore core) a bytes }

/-- An ECC error in an L1 sector (Table 14.1): corrected; uncorrectable in a clean sector, which is dropped; or in a dirty one,
which becomes poison (R360). -/
def State.l1Ecc (s : State) (core sa : Nat) (u : Upset) : State :=
  let held := s.basin.l1.any fun e => keyUnit e.1 == core && secOf (keyAddr e.1) == sa
  match held, u.cache.find? (·.1 == sa), s.coreSlot (dieOfCore core) (core % 32) with
  | true, some (_, bad), some slot =>
    let dirty := !(s.l1Dirty core sa).isEmpty
    let sig : Sig := if bad ∧ dirty then { Sig.blank with status := 0x3701, action := 9, severity := 2 } else Sig.blank
    let s := s.detectUnit (dieOfCore core) true slot (if bad then 0x0F else 0x0E) { sig with addr := sa }
    if !bad then s
    else if dirty then s.modBasin fun b => { b with l1Poison := NMap.put b.l1Poison (heldKey core sa) () }
    else s.l1DropSec core sa
  | _, _, _ => s

/-! ## Loads -/

/-- The value that a basin read gives a thread. -/
def Rd.toLd (r : Rd) (sa lo n : Nat) : Ld :=
  if r.wait then (if r.st = 0x3301 then .stop sa else .again)
  else if r.st ≠ 0 then .bad r.st
  else .ok ((r.bytes.drop lo).take n)

/-- A read of DRAM bytes within one sector by a thread (Table 6.2). `home` is LDAQ's read past the L1 and the far part (R162). -/
def State.loadDram (s : State) (tid : Nat) (t : Thread) (pa n : Nat) (home : Bool) (u : Upset) : Ld × State :=
  let core := coreOfThr tid
  let d := dieOfThr tid
  let sa := secOf pa
  let need := (List.range n).map fun i => pa % 32 + i
  let r := s.threadReq tid t pa
  if s.redOpAt pa ≠ 0 then
    let (rd, s) := s.homeRead r sa need true u
    (rd.toLd sa (pa % 32) n, s)
  else if s.trackedAt pa then
    if homeOf pa = d then
      let (rd, s) := s.homeRead r sa need true u
      (rd.toLd sa (pa % 32) n, s)
    else
      let s := s.farParity d sa u
      let bs := s.farBytes d sa
      if need.all fun i => (bs.getD i none).isSome then
        if NMap.has s.basin.farPoison (heldKey d sa) then (.bad 0x3701, s)
        else (.ok (need.map fun i => match bs.getD i none with | some c => c.val | none => 0), s.pmc d 0x23 1 (some t.berth))
      else (.ask 0 (lineOf pa), s)
  else
    let s := if home then s else s.l1Ecc core sa u
    let held := need.map fun i => NMap.get? s.basin.l1 (heldKey core (sa + i))
    if !home && held.all Option.isSome then
      if NMap.has s.basin.l1Poison (heldKey core sa) then (.bad 0x3701, s)
      else (.ok (held.map fun b => match b with | some c => c.val | none => 0), s)
    else
      let s := if home then s else s.pmc d 0x12 1 (some t.berth)
      let (rd, s) := s.basinRead d r sa need home u
      if rd.wait ∨ rd.st ≠ 0 then (rd.toLd sa (pa % 32) n, s)
      else
        let merged := (List.range 32).map fun i => match NMap.get? s.basin.l1 (heldKey core (sa + i)) with
          | some c => if c.dirty then c.val else byteAt rd.bytes i
          | none => byteAt rd.bytes i
        let s := if home then s
          else
            let (ok, s) := s.l1Room core (lineOf sa)
            if ok then s.l1Fill core sa rd.bytes else s
        (.ok ((merged.drop (pa % 32)).take n), s)

/-- A read of bytes within one sector by a thread, by global address. -/
def State.loadSec (s : State) (tid : Nat) (t : Thread) (ga n : Nat) (home : Bool) (u : Upset) : Ld × State :=
  let core := coreOfThr tid
  let d := dieOfThr tid
  if isReg ga then
    match s.regRead t.src ga n with
    | (some bs, s) => (.ok bs, s)
    | (none, s) => (.bad 0x4104, s)
  else if isRemote ga then
    if (s.spanOf t.berth).isNone then (.fault 4, s)
    else
      let far := (List.range n).map fun i => NMap.get? s.basin.far (heldKey d (ga + i))
      let got := (List.range n).map fun i => s.gotByte t.uid 0 (ga + i)
      let rw := match s.winOf d (some (remoteDev ga)) (remotePa ga) with | some (_, a) => Word.bit a 62 | none => false
      if rw && far.all Option.isSome then (.ok (far.map fun b => match b with | some c => c.val | none => 0), s)
      else if got.all Option.isSome then
        let bs := got.map fun b => b.getD 0
        let sa := secOf ga
        let whole := (List.range 32).map fun i => s.gotByte t.uid 0 (sa + i)
        let s := if rw ∧ whole.all Option.isSome then
            let (al, s) := s.farAlloc d (lineOf ga)
            if al then s.farFill d sa (whole.map fun b => b.getD 0) false else s
          else s
        (.ok bs, s)
      else (.get (ga - ga % 64), s)
  else if isHost ga then
    let sa := secOf ga
    let held := (List.range n).map fun i => NMap.get? s.basin.l1 (heldKey core (ga + i))
    if !home && held.all Option.isSome then (.ok (held.map fun b => match b with | some c => c.val | none => 0), s)
    else
      let (rd, s) := s.hostRead sa 32
      if rd.wait then (.ask 3 (ga - ga % 64), s)
      else if rd.st ≠ 0 then (.bad rd.st, s)
      else
        let merged := (List.range 32).map fun i => match NMap.get? s.basin.l1 (heldKey core (sa + i)) with
          | some c => if c.dirty then c.val else byteAt rd.bytes i
          | none => byteAt rd.bytes i
        let s := if home then s
          else
            let (ok, s) := s.l1Room core (lineOf sa)
            if ok then s.l1Fill core sa rd.bytes else s
        (.ok ((merged.drop (ga % 32)).take n), s)
  else match s.dramAddr d ga with
    | none => (.bad 0x2201, s)
    | some pa => s.loadDram tid t pa n home u

/-- Pieces of an access, one sector each, until one is not done. -/
def accPieces (f : State → Nat → Nat → Ld × State) : List (Nat × Nat) → State → Ld × State
  | [], s => (.ok [], s)
  | (a, n) :: rest, s =>
    match f s a n with
    | (.ok bs, s) => (match accPieces f rest s with
      | (.ok cs, s) => (.ok (bs ++ cs), s)
      | x => x)
    | x => x

/-- A load of `n` bytes at a virtual address, within one line (R92). -/
def State.loadBytes (s : State) (tid : Nat) (t : Thread) (va n : Nat) (home : Bool) (u : Upset) : Ld × State :=
  if va % 128 + n > 128 then (.fault 2, s)
  else match s.xl t va .read with
    | (.fault c, s) => (.fault c, s)
    | (.wait, s) => (.ask 5 (s.atsKey t va), s)
    | (.ok ga, s) => accPieces (fun s a k => s.loadSec tid t a k home u) (sectorPieces (n + 1) ga n) s

/-! ## Stores -/

/-- A store of DRAM bytes within one sector (Table 6.1). `home` is SDRL's store, which is performed at once (R162). -/
def State.storeDram (s : State) (tid : Nat) (t : Thread) (pa : Nat) (bytes : List Byte) (home : Bool) : Ld × State :=
  let core := coreOfThr tid
  let d := dieOfThr tid
  let sa := secOf pa
  let line := lineOf pa
  let bs := (List.range bytes.length).map fun i => (pa % 32 + i, byteAt bytes i)
  let r := s.threadReq tid t pa
  let atHome (s : State) : Ld × State :=
    let (st, w, s) := s.homeWrite r t.ctx t.seq sa bs false
    if st ≠ 0 then (.bad st, s) else if w then (.again, s) else (.ok [], s)
  if !s.present (homeOf pa) then (.bad 0x2201, s)
  else if s.ownCheck r (s.pot (pa / 0x10000)) true ≠ .allow then (.bad 0x4104, s)
  else if s.redOpAt pa ≠ 0 then
    if redWhole (s.redOpAt pa) bs then atHome s else (.fault 2, s)
  else if s.trackedAt pa then
    if homeOf pa = d then atHome s
    else if s.farOwned d line then
      (.ok [], s.modBasin fun b => { b with
        far := (List.range bytes.length).foldl (fun h i =>
          NMap.put h (heldKey d (pa + i)) { val := byteAt bytes i, dirty := true }) b.far
        farPoison := if bytes.length = 32 then NMap.erase b.farPoison (heldKey d sa) else b.farPoison })
    else (.ask (if NMap.has s.basin.farLines (heldKey d line) then 2 else 1) line, s)
  else if t.harbour ∨ home then
    let (l, s) := atHome s
    if !l.done then (l, s)
    else
      let s := s.patch core pa bytes
      if home then (l, s)
      else
        let (ok, s) := s.l1Room core line
        (l, if ok then s.l1Store core pa bytes false else s)
  else
    let (ok, s) := s.l1Room core line
    if ok then (.ok [], s.l1Store core pa bytes true) else (.again, s)

/-- A store of bytes within one sector by a thread, by global address. -/
def State.storeSec (s : State) (tid : Nat) (t : Thread) (ga : Nat) (bytes : List Byte) (home : Bool) : Ld × State :=
  let core := coreOfThr tid
  if isReg ga then
    let (ok, s) := s.regWrite t.src ga bytes
    (if ok then .ok [] else .bad 0x4104, s)
  else if isRemote ga then
    if (s.spanOf t.berth).isNone then (.fault 4, s)
    else (.ok [], s.erhPut (dieOfThr tid) tid t.uid t.ctx t.seq t.berth ga none
      ((List.range bytes.length).map fun i => (ga + i, byteAt bytes i)))
  else if isHost ga then
    let port := ga / 2 ^ 70 - 1
    let line := ga % 2 ^ 70 - ga % 2 ^ 70 % 64
    let own := match NMap.get? (s.cport port).hcache line with | some l => l.own | none => false
    if (s.cport port).lost ∨ !(s.cport port).up then (.bad 0x3C01, s)
    else if home ∧ !own then (.ask 4 (ga - ga % 64), s.hostAsk port line true)
    else if home ∨ t.harbour then
      let (_, s) := s.hostWrite port ((List.range bytes.length).map fun i => ((ga + i) % 2 ^ 70, byteAt bytes i))
      (.ok [], s.patch core ga bytes)
    else
      let (ok, s) := s.l1Room core (lineOf ga)
      if ok then (.ok [], s.l1Store core ga bytes true) else (.again, s)
  else match s.dramAddr (dieOfThr tid) ga with
    | none => (.bad 0x2201, s)
    | some pa => s.storeDram tid t pa bytes home

/-- A store at a virtual address, within one line (R92). -/
def State.storeBytes (s : State) (tid : Nat) (t : Thread) (va : Nat) (bytes : List Byte) (home : Bool) : Ld × State :=
  let n := bytes.length
  if va % 128 + n > 128 then (.fault 2, s)
  else match s.xl t va .write with
    | (.fault c, s) => (.fault c, s)
    | (.wait, s) => (.ask 5 (s.atsKey t va), s)
    | (.ok ga, s) =>
      accPieces (fun s a k => s.storeSec tid t a ((bytes.drop (a - ga)).take k) home) (sectorPieces (n + 1) ga n) s

/-! ## What follows an access -/

/-- Counts an instruction that ends, and moves its thread past it. -/
def State.retire (s : State) (tid len : Nat) (f : Thread → Thread) : State :=
  match s.thread? tid with
  | none => s
  | some t => (s.countIssue tid t).modThread tid fun t => (f t).retire len

/-- A synchronous fault of the instruction in progress (R121). -/
def State.trap (s : State) (tid cause va : Nat) : State :=
  match s.thread? tid with
  | none => s
  | some t => (s.countIssue tid t).raiseC tid cause va

/-- A failed status of the instruction in progress. -/
def State.trapSt (s : State) (tid va : Nat) (st : Status) : State :=
  match s.thread? tid with
  | none => s
  | some t => (s.countIssue tid t).raiseSt tid va st

/-- Makes a thread wait for its access. -/
def State.park (s : State) (tid : Nat) : State := s.modThread tid fun t => { t with wait := .memory }

/-- What a thread does about an access that is not done: a fault is taken, a request is sent and the thread waits, or the
instruction is issued again later. A die sends no second request for a line whose first, or whose write-back, is
unanswered (Table 7.7). -/
def State.stall (s : State) (tid : Nat) (t : Thread) (va : Nat) (l : Ld) (acc : Access) : State :=
  match l with
  | .ok _ => s
  | .again => s
  | .fault c => s.trap tid c va
  | .bad st => s.trapSt tid va st
  | .stop sa =>
    (s.modMem fun m => { m with
      stopReads := m.stopReads ++ [{ die := homeOf sa, node := 0, tid := tid, uid := t.uid, ticket := 0, sector := sa, since := s.clk.now }] }).park tid
  | .get ga => (s.park tid).erhGet tid t.uid t.ctx t.seq t.berth ga 1 none .fetch
  | .ask kind line =>
    let d := dieOfThr tid
    if kind ≤ 2 ∧ ((s.pend? d line).isSome ∨ (s.msg? .wbAck d line).isSome) then s
    else
      (s.modBasin fun b => { b with
        pend := b.pend ++ [{ die := d, line := line, tid := tid, uid := t.uid, kind := kind
                             access := if kind ≤ 2 then acc else .fetch, va := va, tries := 0, nacked := false
                             retryAt := 0, since := s.clk.now, held := [] }] }).park tid

/-! ## Scalar and vector forms -/

/-- One element of an access: its element number, address and bytes, and for a vector its register and offset. -/
structure Elem where
  idx : Nat
  va : Nat
  n : Nat
  reg : Nat
  off : Nat
deriving DecidableEq, Repr

/-- Eight times LMUL; 0 is reserved. -/
def lmul8 (vtype : Word) : Nat := match Word.fld vtype 2 0 with
  | 0 => 8
  | 1 => 16
  | 2 => 32
  | 3 => 64
  | 5 => 1
  | 6 => 2
  | 7 => 4
  | _ => 0

/-- SEW in bits; 0 is reserved. -/
def sewOf (vtype : Word) : Nat := if Word.fld vtype 5 3 ≤ 3 then 8 * 2 ^ Word.fld vtype 5 3 else 0

/-- Registers of a group for an element width; none where EMUL is outside 1/8 to 8 (V 1.0, log entry 14). -/
def groupRegs (vtype : Word) (eew : Nat) : Option Nat :=
  let sew := sewOf vtype
  let l := lmul8 vtype
  if Word.bit vtype 63 ∨ sew = 0 ∨ l = 0 ∨ eew * l % sew ≠ 0 then none
  else
    let e := eew * l / sew
    if e < 1 ∨ e > 64 then none else some (Nat.max 1 (e / 8))

/-- `n` bytes of a vector register from an offset. -/
def Thread.vbytes (t : Thread) (reg off n : Nat) : List Byte :=
  bytesOf n ((t.v.toList.getD reg 0).toNat / 2 ^ (8 * off))

/-- Whether element `i` is active: unmasked, or its bit of v0 is set. -/
def Thread.active (t : Thread) (vm : Bool) (i : Nat) : Bool := vm || bitAt (t.v.toList.getD 0 0).toNat i

/-- Element width in bytes of a vector form: SEW for the data of an indexed one. -/
def vwidth (v : VForm) (vtype : Word) : Nat := match v.mode with
  | .indexed _ _ => sewOf vtype / 8
  | _ => v.eew / 8

/-- The elements of a vector access that remain, from vstart; none where the form is reserved (V 1.0, log entry 14). -/
def Thread.velems (t : Thread) (v : VForm) (base : Nat) (load : Bool) : Option (List Elem) :=
  let w := vwidth v t.vtype
  match groupRegs t.vtype (8 * w) with
  | none => none
  | some regs =>
    let vd := v.vd.toNat
    let okIdx := match v.mode with
      | .indexed vs2 ieew => (match groupRegs t.vtype ieew with
        | some k => vs2.toNat % k == 0 && [8, 16, 32, 64].contains ieew
        | none => false)
      | _ => true
    if !([8, 16, 32, 64].contains (8 * w)) ∨ v.nf = 0 ∨ v.nf > 8 ∨ vd % regs ≠ 0 ∨ v.nf * regs > 8 ∨ vd + v.nf * regs > 32 ∨
       !okIdx ∨ (load ∧ !v.vm ∧ vd = 0) then none
    else
      let addr (i f : Nat) : Nat := (match v.mode with
        | .unit => base + (i * v.nf + f) * w
        | .strided rs2 => base + i * (t.reg rs2).toNat + f * w
        | .indexed vs2 ieew =>
          let b := ieew / 8
          base + ofBytes (t.vbytes (vs2.toNat + i * b / 64) (i * b % 64) b) + f * w) % 2 ^ 64
      some (((List.range t.vl).filter fun i => decide (t.vstart ≤ i) && t.active v.vm i).flatMap fun i =>
        (List.range v.nf).map fun f =>
          { idx := i, va := addr i f, n := w, reg := vd + f * regs + i * w / 64, off := i * w % 64 })

/-- Writes bytes into a vector register. -/
def Thread.setV (t : Thread) (reg off : Nat) (bytes : List Byte) : Thread :=
  let old := (t.v.toList.getD reg 0).toNat
  { t with v := t.v.setIfInBounds reg (BitVec.ofNat 512 (setFld old (8 * (off + bytes.length) - 1) (8 * off) (ofBytes bytes))) }

/-- Tail and masked-off elements of a load's destination after it ends: undisturbed, or under an agnostic policy kept or set
to ones, which the spec leaves open (log entry 14). -/
def Thread.vtail (t : Thread) (v : VForm) (fresh : Nat) : Thread :=
  let w := vwidth v t.vtype
  let regs := (groupRegs t.vtype (8 * w)).getD 1
  let per := regs * 64 / w
  if t.vstart ≥ t.vl then t
  else
    (List.range (per * v.nf)).foldl (fun t k =>
      let i := k % per
      let open' := (decide (i ≥ t.vl) && Word.bit t.vtype 6) ||
        (decide (t.vstart ≤ i) && decide (i < t.vl) && !t.active v.vm i && Word.bit t.vtype 7)
      if open' && Word.bit (Config.freeWord (fresh + k)) 0 then
        t.setV (v.vd.toNat + k / per * regs + i * w / 64) (i * w % 64) (List.replicate w 0xFF)
      else t) t

/-- Sign-extends from `bits` to 64. -/
def sext (bits v : Nat) : Word := BitVec.ofInt 64 (toSigned bits v)

/-- Writes a loaded element to its register (R91; FP32 values are NaN-boxed). -/
def Thread.putElem (t : Thread) (form : LoadForm) (e : Elem) (bytes : List Byte) : Thread :=
  match form with
  | .int rd log2 sg => t.setReg rd (if sg then sext (8 * 2 ^ log2) (ofBytes bytes) else BitVec.ofNat 64 (ofBytes bytes))
  | .fp fd double =>
    { t with
      f := t.f.setIfInBounds fd.toNat (BitVec.ofNat 64 (ofBytes bytes + (if double then 0 else 0xFFFFFFFF00000000))) }
  | .vec _ => t.setV e.reg e.off bytes

/-- The elements of a load; none where its form is illegal. -/
def Thread.loadElems (t : Thread) (form : LoadForm) (va : Nat) : Option (List Elem) := match form with
  | .int _ log2 sg => if log2 > 3 ∨ (log2 = 3 ∧ !sg) then none else some [{ idx := 0, va := va, n := 2 ^ log2, reg := 0, off := 0 }]
  | .fp _ d => some [{ idx := 0, va := va, n := if d then 8 else 4, reg := 0, off := 0 }]
  | .vec v => t.velems v va true

/-- The elements of a store and their bytes; none where its form is illegal. -/
def Thread.storeElems (t : Thread) (form : StoreForm) (va : Nat) : Option (List (Elem × List Byte)) := match form with
  | .int rs2 log2 =>
    if log2 > 3 then none
    else some [({ idx := 0, va := va, n := 2 ^ log2, reg := 0, off := 0 }, bytesOf (2 ^ log2) (t.reg rs2).toNat)]
  | .fp fs2 d =>
    let n := if d then 8 else 4
    some [({ idx := 0, va := va, n := n, reg := 0, off := 0 }, bytesOf n (t.f.toList.getD fs2.toNat 0).toNat)]
  | .vec v => (t.velems v va false).map fun es => es.map fun e => (e, t.vbytes e.reg e.off e.n)

/-- Loads elements in order: what has come, and how the first that is not done stands. -/
def State.loadElems (tid : Nat) (t : Thread) (home : Bool) (u : Upset) :
    List Elem → State → List (Elem × List Byte) × Option Elem × Ld × State
  | [], s => ([], none, .ok [], s)
  | e :: rest, s =>
    match s.loadBytes tid t e.va e.n home u with
    | (.ok bs, s) =>
      let (done, at', l, s) := State.loadElems tid t home u rest s
      ((e, bs) :: done, at', l, s)
    | (l, s) => ([], some e, l, s)

/-- Stores elements in order, up to the first that is not done. -/
def State.storeElems (tid : Nat) (t : Thread) (home : Bool) : List (Elem × List Byte) → State → Option Elem × Ld × State
  | [], s => (none, .ok [], s)
  | (e, bs) :: rest, s =>
    match s.storeBytes tid t e.va bs home with
    | (.ok _, s) => State.storeElems tid t home rest s
    | (l, s) => (some e, l, s)

/-- Whether a form is a vector's, which keeps its progress in vstart. -/
def loadIsVec : LoadForm → Bool
  | .vec _ => true
  | _ => false

/-- Whether a form is a vector's. -/
def storeIsVec : StoreForm → Bool
  | .vec _ => true
  | _ => false

/-- FENCE.ACQ over all memory for a thread's core (R109). -/
def State.acqAll (s : State) (tid : Nat) : State := s.acquire (coreOfThr tid) 0 allMem

/-- A load of any form at a base address, retired by `len` (R91, R96). `home` is LDAQ's, which ends with FENCE.ACQ (R114). -/
def State.runLoad (s : State) (tid : Nat) (t : Thread) (form : LoadForm) (va len : Nat) (home : Bool) (u : Upset) : State :=
  match t.loadElems form va with
  | none => s.trap tid 1 va
  | some es =>
    let (done, at', l, s) := State.loadElems tid t home u es s
    let put (t : Thread) : Thread := done.foldl (fun t e => t.putElem form e.1 e.2) t
    match at' with
    | none =>
      let k := match form with | .vec v => v.nf * 512 | _ => 0
      let fr := s.fresh
      let s := s.retire tid len fun t => match form with
        | .vec v =>
          let t' := (put t).vtail v fr
          { t' with vstart := 0 }
        | _ => put t
      let s := (s.drawn k).gotClear t.uid 0
      if home then s.acqAll tid else s
    | some e =>
      let part : List (Elem × List Byte) := done.filter fun x => decide (x.1.idx < e.idx)
      let s := if loadIsVec form then
          s.modThread tid fun t =>
            let t := part.foldl (fun (t : Thread) x => t.putElem form x.1 x.2) t
            { t with
              vstart := e.idx }
        else s
      s.stall tid t e.va l (.load form va len home)

/-- A store of any form at a base address, retired by `len`. `home` is SDRL's. -/
def State.runStore (s : State) (tid : Nat) (t : Thread) (form : StoreForm) (va len : Nat) (home : Bool) : State :=
  match t.storeElems form va with
  | none => s.trap tid 1 va
  | some es =>
    match State.storeElems tid t home es s with
    | (none, _, s) => s.retire tid len fun t => if storeIsVec form then { t with vstart := 0 } else t
    | (some e, l, s) =>
      let s := if storeIsVec form then s.modThread tid fun t => { t with vstart := e.idx } else s
      s.stall tid t e.va l (.store form va len)

/-! ## Atomics (R115, R116, R193 to R195) -/

/-- Drops a die's clean untracked copy of a line, writing dirty bytes home first, so that an atomic at the home and later
loads of its thread see one order (R162). False where a host copy must be recalled first. -/
def State.farYield (s : State) (d line : Nat) : Bool × State :=
  if s.farOwned d line then (true, s)
  else
    let (ok, s) := s.farWbU d line
    if ok then (true, s.farDrop d line) else (false, s)

/-- Writes back and drops the sector of an atomic in the thread's own L1 (R115). -/
def State.l1Yield (s : State) (core sa : Nat) : Bool × State :=
  let (ok, s) := s.l1WriteBack core sa
  if ok then (true, s.l1DropSec core sa) else (false, s)

/-- Writes an atomic's old value to its destination: sign-extended from 32 bits, or a register pair for 128. -/
def Thread.putOld (t : Thread) (rd : BitVec 5) (wd : AmoWidth) (old : Nat) : Thread :=
  match wd with
  | .w => t.setReg rd (sext 32 old)
  | .d => t.setReg rd (BitVec.ofNat 64 old)
  | .q => if rd = 0 then t else (t.setReg rd (BitVec.ofNat 64 old)).setReg (rd + 1) (BitVec.ofNat 64 (old / 2 ^ 64))

/-- The atomic's old value and the state after it, or how it stands. -/
def State.amoDram (s : State) (tid : Nat) (t : Thread) (pa : Nat) (op : AmoOp) (wd : AmoWidth) (operand comparand : Nat)
    (u : Upset) : Ld × State :=
  let d := dieOfThr tid
  let n := amoBytes wd
  let line := lineOf pa
  let (ok, s) := s.l1Yield (coreOfThr tid) (secOf pa)
  if !ok then (.again, s)
  else if s.farOwned d line then
    let bs := (List.range n).map fun i => NMap.get? s.basin.far (heldKey d (pa + i))
    if NMap.has s.basin.farPoison (heldKey d (secOf pa)) then (.bad 0x3701, s)
    else
      let old := ofBytes (bs.map fun b => match b with | some c => c.val | none => 0)
      let v := bytesOf n (amoNew op wd old operand comparand)
      (.ok (bytesOf n old), (s.modBasin fun b => { b with
        far := (List.range n).foldl (fun h i => NMap.put h (heldKey d (pa + i)) { val := byteAt v i, dirty := true }) b.far }).pmc
        d 0x27 1 (some t.berth))
  else if s.redOpAt pa ≠ 0 ∨ s.goesNear d pa then
    let (ok, s) := s.farYield d line
    if !ok then (.again, s)
    else
      let (st, w, old, s) := s.nearAtomic (s.threadReq tid t pa) pa op wd operand comparand u
      if w then (if st = 0x3301 then .stop (secOf pa) else .again, s)
      else if st ≠ 0 then (.bad st, s)
      else (.ok (bytesOf n old), s)
  else if !s.present (homeOf pa) then (.bad 0x2201, s)
  else (.ask (if s.trackedAt pa ∧ NMap.has s.basin.farLines (heldKey d line) then 2 else 1) line, s)

/-- An atomic on a host line that the gatehouse must own (R169). -/
def State.amoHost (s : State) (ga : Nat) (op : AmoOp) (wd : AmoWidth) (operand comparand : Nat) : Ld × State :=
  let port := ga / 2 ^ 70 - 1
  let a := ga % 2 ^ 70
  let n := amoBytes wd
  if (s.cport port).lost ∨ !(s.cport port).up then (.bad 0x3C01, s)
  else match NMap.get? (s.cport port).hcache (a - a % 64) with
    | some l =>
      if l.own ∧ (List.range n).all fun i => (NMap.get? l.bytes (a % 64 + i)).isSome then
        if l.poison then (.bad 0x3C02, s)
        else
          let old := ofBytes ((List.range n).map fun i => match NMap.get? l.bytes (a % 64 + i) with | some c => c.val | none => 0)
          let v := bytesOf n (amoNew op wd old operand comparand)
          (.ok (bytesOf n old), (s.hostWrite port ((List.range n).map fun i => (a + i, byteAt v i))).2)
      else (.ask 4 (ga - ga % 64), s.hostAsk port (a - a % 64) true)
    | none => (.ask 4 (ga - ga % 64), s.hostAsk port (a - a % 64) true)

/-- An atomic at a virtual address (R115). A remote one is sent as an ATOMIC, whose response ends it (R293). -/
def State.runAmo (s : State) (tid : Nat) (t : Thread) (op : AmoOp) (wd : AmoWidth) (rd : BitVec 5) (va : Nat)
    (operand comparand : BitVec 128) (aq : Bool) (u : Upset) : State :=
  let n := amoBytes wd
  let acc : Access := .amo op wd rd va operand comparand aq
  if va % n ≠ 0 then s.trap tid 2 va
  else match s.xl t va .write with
    | (.fault c, s) => s.trap tid c va
    | (.wait, s) => s.stall tid t va (.ask 5 (s.atsKey t va)) acc
    | (.ok ga, s) =>
      if isRemote ga then
        if (s.spanOf t.berth).isNone then s.trap tid 4 va
        else (s.park tid).erhAtomic (dieOfThr tid) tid t.uid t.ctx t.seq t.berth ga op wd operand.toNat comparand.toNat acc
      else
        let (l, s) : Ld × State :=
          if isReg ga then
            match s.place ga with
            | .window b off =>
              if s.reaches t.src (.window b off) && op == .add && wd == .d then
                match s.winAdd b off (BitVec.ofNat 64 operand.toNat) with
                | (some v, s) => (.ok (bytesOf 8 v.toNat), s)
                | (none, s) => (.bad 0x4104, s)
              else (.bad 0x4104, s)
            | _ => (.bad 0x4104, s)
          else if isHost ga then
            let (ok, s) := s.l1Yield (coreOfThr tid) (secOf ga)
            if ok then s.amoHost ga op wd operand.toNat comparand.toNat else (.again, s)
          else match s.dramAddr (dieOfThr tid) ga with
            | none => (.bad 0x2201, s)
            | some pa => s.amoDram tid t pa op wd operand.toNat comparand.toNat u
        match l with
        | .ok bs =>
          let s := s.retire tid 4 fun t => t.putOld rd wd (ofBytes bs)
          if aq then s.acqAll tid else s
        | l => s.stall tid t va l acc

/-! ## After an answer -/

/-- Performs the access that a thread waited with, if the thread is still there (R186, R189). -/
def State.performAccess (s : State) (tid uid : Nat) (acc : Access) : State :=
  match s.thread? tid with
  | none => s
  | some t =>
    if t.uid ≠ uid ∨ t.wait ≠ .memory then s
    else
      let s := s.modThread tid fun t => { t with wait := .none }
      match acc with
      | .load form va len aq => s.runLoad tid t form va len aq {}
      | .store form va len => s.runStore tid t form va len false
      | .amo op wd rd va a c aq => s.runAmo tid t op wd rd va a c aq {}
      | .fetch => s

/-! ## Instruction fetch (R88, R93) -/

/-- Brings one 64-byte line of the program into the core's instruction cache. -/
def State.ifetch (s : State) (tid : Nat) (t : Thread) (va : Nat) : Ld × State :=
  match s.xl t va .exec with
  | (.fault c, s) => (.fault c, s)
  | (.wait, s) => (.fault 4, s)
  | (.ok ga, s) =>
    let core := coreOfThr tid
    let d := dieOfThr tid
    match s.dramAddr d ga with
    | none => (.bad 0x2201, s)
    | some pa =>
      let line := pa - pa % 64
      if NMap.has s.basin.icache (heldKey core pa) then (.ok [], s)
      else
        match accPieces (fun s a n =>
            let (rd, s) := s.basinRead d (s.threadReq tid t a) a (List.range 32) false {}
            (rd.toLd a 0 n, s)) [(line, 32), (line + 32, 32)] s with
        | (.ok bs, s) =>
          (.ok [], s.modBasin fun b => { b with
            icache := (List.range 64).foldl (fun h i => NMap.put h (heldKey core (line + i)) (byteAt bs i)) b.icache })
        | x => x

/-- Fetches the instruction of `len` bytes at the pc, which may reach into the next line. -/
def State.ifetchAll (s : State) (tid : Nat) (t : Thread) (len : Nat) : Ld × State :=
  let pc := t.pc.toNat
  match s.ifetch tid t pc with
  | (.ok _, s) => if pc / 64 = (pc + len - 1) / 64 then (.ok [], s) else s.ifetch tid t (pc + len - 1)
  | x => x

/-- Whether the module runs threads: not stopped, not stopping, not locked (R381, R406). -/
def State.running (s : State) : Bool := !s.pwr.stopping && s.pwr.boot == .service && !s.sec.alarmLock

/-- Charges to a command the bytes that its die has exchanged with other dies' homes since `s0` (Table 18.7). -/
def State.chargeRemote (s s0 : State) (d ctx seq : Nat) : State :=
  let a := dieBase d + 0x7800 + 12 * 8
  let n := (s.reg a).toNat - (s0.reg a).toNat
  if n = 0 then s
  else s.modCmd ctx seq fun c => { c with counts := { c.counts with remoteBytes := c.counts.remoteBytes + n } }

/-- One instruction of a thread (R88, R121): the thread must be able to issue; it latches the map bank (R251), the bytes at its
pc are fetched, and then it has its effect. -/
def State.issue (s : State) (tid len : Nat) (eff : Thread → State → State) : Out :=
  needSome (s.thread? tid) .noReadyThread fun t =>
  need (t.wait == .none && !t.frozen) .noReadyThread <|
  need (s.present (dieOfThr tid) && s.running) .blockDown <|
  let t := { t with bank := s.activeBank t.berth, ilen := len }
  let s := s.modThread tid fun _ => t
  let s' := match s.ifetchAll tid t len with
    | (.ok _, s) => eff t s
    | (l, s) => s.stall tid t t.pc.toNat l .fetch
  .next (s'.chargeRemote s (dieOfThr tid) t.ctx t.seq)

end Sys2Proof.Machine
end

