-- ==== Sys2Proof/Machine/Barge.lean ====
section
/-! DEFINITION. Barge transfers (R104 to R106, R79, R247, R293, R360): sectors moved between memory and holds, and the
completion of a transfer. -/

namespace Sys2Proof.Machine

/-- How one step of a transfer went: a sector moved (with the status of poison, and whether a guard-mode page gave it), an entry
passed over, a wait (with the host translation it needs, or 0), a read held in STOP, or a failure that ends the transfer. -/
inductive Mv where
  | moved (st : Status) (guard : Bool)
  | skip (st : Status)
  | wait (ats : Nat)
  | held (sector : Nat)
  | stop (st : Status)
deriving DecidableEq, Repr

/-- A source sector: its bytes and tag, where the step went on. -/
structure Src where
  mv : Mv
  bytes : List Byte
  tag : Nat
deriving DecidableEq, Repr

/-- A step that did not go on. -/
def Src.none (m : Mv) : Src := { mv := m, bytes := [], tag := 0 }

/-- The poison status of a step that went on; 0 where there is none. -/
def Mv.poison : Mv → Status
  | .moved st _ => st
  | _ => 0

/-- Whether the step went on. -/
def Mv.went : Mv → Bool
  | .moved _ _ => true
  | _ => false

/-- Who a transfer's requests act for: a convoy harbour thread's barges are the convoy program's (R258). -/
def Transfer.agent (x : Transfer) : Agent := if x.convoy && x.harbour then .convoy else agentOf x.berth

/-- The request of a transfer at a DRAM address. -/
def State.xferReq (s : State) (x : Transfer) (pa : Nat) : Req :=
  let w := s.winOf x.die none pa
  { node := x.die, agent := x.agent, tracked := attrTracked w, redOp := attrRed w, ctx := x.ctx }

/-- The host translation that an address of a transfer needs, as in `atsKey`. -/
def State.xferAts (s : State) (x : Transfer) (va : Nat) : Nat := match s.regionOf x.berth x.bank va with
  | some r => (1 + r.dest) * 2 ^ 70 + (r.target + (va - r.base)) / 4096
  | none => 0

/-- Translates an address of a transfer with the bank that it latched (R251, R258). -/
def State.xferXl (s : State) (x : Transfer) (va : Nat) (want : Want) : Except Mv Nat × State :=
  if va ≥ 2 ^ 64 then (.error (.stop 0x2103), s)
  else match s.translate x.berth x.bank va want (x.convoy && x.harbour) with
    | (.ok ga, s) => (.ok ga, s)
    | (.fault c, s) => (.error (.stop (causeStatus c)), s)
    | (.wait, s) => (.error (if x.atsBad then .stop 0x2103 else .wait (s.xferAts x va)), s)

/-- Reads one source sector of memory. `run` is how many sectors the transfer still reads from there on, which sizes a GET. -/
def State.xferFrom (s : State) (x : Transfer) (va run : Nat) (look : Bool) (u : Upset) : Src × State :=
  match s.xferXl x va .read with
  | (.error m, s) => (Src.none m, s)
  | (.ok ga, s) =>
    if isHost ga then
      let (rd, s) := s.hostRead ga 32
      if rd.wait then (Src.none (.wait 0), s)
      else if rd.st = 0x3C01 then (Src.none (.stop rd.st), s)
      else ({ mv := .moved rd.st false, bytes := rd.bytes, tag := x.berth }, s)
    else if isRemote ga then
      let got := (List.range 32).map fun i => s.gotByte x.uid x.ticket (ga + i)
      if (s.spanOf x.berth).isNone then (Src.none (.stop 0x4104), s)
      else if got.all Option.isSome then ({ mv := .moved 0 false, bytes := got.map fun b => b.getD 0, tag := x.berth }, s)
      else if s.erh.opens.any fun o => o.uid == x.uid && o.ticket == some x.ticket && o.kind == 1 then (Src.none (.wait 0), s)
      else
        let a := ga - ga % 64
        let n := Nat.min (ga % 64 + 32 * run) (4096 - a % 4096)
        (Src.none (.wait 0), s.erhGet x.tid x.uid x.ctx x.seq x.berth a ((n + 63) / 64) (some x.ticket) .fetch)
    else if isReg ga then (Src.none (.stop 0x4104), s)
    else match s.dramAddr x.die ga with
      | none => (Src.none (.stop 0x2201), s)
      | some pa =>
        let (rd, s) := s.basinRead x.die (s.xferReq x pa) pa (List.range 32) look u
        let e := s.pot (pa / 0x10000)
        if rd.wait then (Src.none (if rd.st = 0x3301 then .held pa else .wait 0), s)
        else if rd.st = 0 ∨ rd.st = 0x3701 ∨ rd.st = 0x3707 then
          ({ mv := .moved rd.st (rd.st == 0x3701 && e.guard), bytes := rd.bytes, tag := e.owner }, s)
        else (Src.none (.stop rd.st), s)

/-- Reads one source sector of a hold (R78, R85, R360). -/
def State.xferFromHold (s : State) (x : Transfer) (slot off : Nat) (u : Upset) : Src × State :=
  let h := s.side slot off
  let bytes := s.holdRead slot off 32
  if h.spent && h.poison then (Src.none (.stop 0x210B), s.cnt x.die 5 1)
  else if u.hold.contains off then
    let sig : Sig := { Sig.blank with status := 0x3705, action := 4, severity := 2, addr := off }
    let sig := match s.cmd? x.ctx x.seq with | some c => sig.onCmd c | none => sig
    ({ mv := .moved 0x3705 false, bytes := bytes, tag := h.tag }, s.holdParity x.die slot sig)
  else ({ mv := .moved (if h.poison then 0x3701 else 0) false, bytes := bytes, tag := h.tag }, s)

/-- The home's tag check of a sector written by a barge (R247). -/
def tagMatches (e : PotEnt) (tag : Nat) : Bool :=
  if e.state = .loading then tag == 0 || tag == 255 else tag == e.owner || tag == 255

/-- After a barge write, the issuing die's own far copy of the sector holds the new bytes, or nothing where they are poison. -/
def State.xferPatch (s : State) (d sa : Nat) (bytes : List Byte) (poison : Bool) : State :=
  s.modBasin fun b => { b with
    far := if poison then NMap.keep b.far fun k _ => !(keyUnit k == d && secOf (keyAddr k) == sa)
      else patchBytes b.far d sa bytes
    farPoison := NMap.erase b.farPoison (heldKey d sa) }

/-- Marks the host-cache line of an address as poison. -/
def State.hostPoison (s : State) (ga : Nat) : State :=
  s.modPort (ga / 2 ^ 70 - 1) fun p => { p with
    hcache := NMap.alter p.hcache (ga % 2 ^ 70 - ga % 64) fun l => { l with poison := true } }

/-- Writes one destination sector of memory (Table 6.1, R247). -/
def State.xferTo (s : State) (x : Transfer) (va : Nat) (src : Src) : Mv × State :=
  let pz := src.mv.poison ≠ 0
  match s.xferXl x va .write with
  | (.error m, s) => (m, s)
  | (.ok ga, s) =>
    let bytes := (List.range 32).map fun i => (ga + i, byteAt src.bytes i)
    if isHost ga then
      let port := ga / 2 ^ 70 - 1
      if (s.cport port).lost ∨ !(s.cport port).up then (.stop 0x3C01, s)
      else if src.tag ≠ x.berth ∧ src.tag ≠ 255 then (.stop 0x4104, s)
      else
        let (_, s) := s.hostWrite port (bytes.map fun p => (p.1 % 2 ^ 70, p.2))
        (src.mv, if pz then s.hostPoison ga else s)
    else if isRemote ga then
      if (s.spanOf x.berth).isNone ∨ (src.tag ≠ x.berth ∧ src.tag ≠ 255) then (.stop 0x4104, s)
      else (src.mv, if pz then s else s.erhPut x.die x.tid x.uid x.ctx x.seq x.berth ga (some x.ticket) bytes)
    else if isReg ga then (.stop 0x4104, s)
    else match s.dramAddr x.die ga with
      | none => (.stop 0x2201, s)
      | some pa =>
        if !s.present (homeOf pa) then (.stop 0x2201, s)
        else if !tagMatches (s.pot (pa / 0x10000)) src.tag then (.stop 0x4104, s)
        else match s.homeWrite (s.xferReq x pa) x.ctx x.seq pa ((List.range 32).map fun i => (i, byteAt src.bytes i)) pz with
          | (st, w, s) =>
            if st ≠ 0 then (.stop st, s) else if w then (.wait 0, s)
            else (src.mv, s.xferPatch x.die pa src.bytes pz)

/-- Writes one destination sector of a hold with its tag (R79). -/
def State.xferToHold (s : State) (slot off : Nat) (src : Src) : Mv × State :=
  (src.mv, s.holdPut slot off src.bytes src.tag (src.mv.poison ≠ 0))

/-! ## Shapes -/

/-- The logical engine that a hold address names. -/
def holdEng (a : Word) : Nat := Word.fld a 26 23
/-- The byte offset of a hold address. -/
def holdOff (a : Word) : Nat := Word.fld a 22 0

/-- Sectors per row of a transfer (R105, Table 4.5). -/
def Transfer.rowSecs (x : Transfer) : Nat :=
  if x.kind < 2 then Word.fld x.a3 15 0 else Word.fld (x.desc.toList.getD 2 0) 47 32
/-- Rows, or indices, of a transfer. -/
def Transfer.rows (x : Transfer) : Nat :=
  if x.kind < 2 then Word.fld x.a3 31 16 else Word.fld (x.desc.toList.getD 2 0) 31 0
/-- Whether one side of the transfer is a hold. -/
def Transfer.usesHold (x : Transfer) : Bool := x.kind < 2 || !x.opt
/-- Offset of packed sector `j` of row `i` from the packed side's start, in bytes. -/
def Transfer.packed (x : Transfer) (i j : Nat) : Nat :=
  32 * (i * (if x.kind < 2 then Word.fld x.a3 47 32 else Word.fld (x.desc.toList.getD 3 0) 63 32) + j)

/-- Width in bytes of an index. -/
def Transfer.idxBytes (x : Transfer) : Nat := if Word.fld (x.desc.toList.getD 2 0) 57 56 = 0 then 4 else 8

/-- Reads index `i` of a gather or scatter list: through the basin, as the transfer's agent (R106). -/
def State.xferIndex (s : State) (x : Transfer) (i : Nat) (u : Upset) : Mv × Nat × State :=
  let a := (x.desc.toList.getD 1 0).toNat + i * x.idxBytes
  match s.xferFrom x (a - a % 32) 1 false u with
  | (r, s) => match r.mv with
    | .moved st _ => if st = 0 then (.moved 0 false, rdLE r.bytes (a % 32) x.idxBytes, s) else (.stop st, 0, s)
    | m => (m, 0, s)

/-- Packed-side read or write of sector `j` of row `i`. -/
def State.xferPackedFrom (s : State) (x : Transfer) (slot i j : Nat) (u : Upset) : Src × State :=
  if x.usesHold then s.xferFromHold x slot (holdOff x.a2 + x.packed i j) u
  else s.xferFrom x (x.a2.toNat + x.packed i j) (x.rowSecs - j) false u

/-- Packed-side write. -/
def State.xferPackedTo (s : State) (x : Transfer) (slot i j : Nat) (src : Src) : Mv × State :=
  if x.usesHold then s.xferToHold slot (holdOff x.a2 + x.packed i j) src
  else s.xferTo x (x.a2.toNat + x.packed i j) src

/-- Moves sector number `pos` of a transfer. -/
def State.xferSector (s : State) (x : Transfer) (slot : Nat) (u : Upset) : Mv × State :=
  let i := x.pos / x.rowSecs
  let j := x.pos % x.rowSecs
  let onward (src : Src) (s : State) (f : State → Src → Mv × State) : Mv × State := if src.mv.went then f s src else (src.mv, s)
  if x.kind = 0 then
    let m := x.a1.toNat + 32 * (i * Word.fld x.a3 63 48 + j)
    let (src, s) := s.xferFrom x m (x.rowSecs - j) x.opt u
    onward src s fun s src => s.xferPackedTo x slot i j src
  else if x.kind = 1 then
    let m := x.a1.toNat + 32 * (i * Word.fld x.a3 63 48 + j)
    let (src, s) := s.xferPackedFrom x slot i j u
    onward src s fun s src => s.xferTo x m src
  else
    match s.xferIndex x i u with
    | (.moved _ _, idx, s) =>
      let null := idx == 2 ^ (8 * x.idxBytes) - 1
      let m := (x.desc.toList.getD 0 0).toNat + idx * Word.fld (x.desc.toList.getD 3 0) 31 0 * 32 + 32 * j
      let pass (m : Mv) : Mv := if m = .stop 0x2103 then .skip 0x2103 else m
      if x.kind = 2 then
        if null then s.xferPackedTo x slot i j { mv := .moved 0 false, bytes := List.replicate 32 0, tag := x.berth }
        else
          let (src, s) := s.xferFrom x m (x.rowSecs - j) false u
          if src.mv.went then s.xferPackedTo x slot i j src else (pass src.mv, s)
      else if null then (.skip 0, s)
      else
        let (src, s) := s.xferPackedFrom x slot i j u
        onward src s fun s src => let (r, s) := s.xferTo x m src; (pass r, s)
    | (r, _, s) => (r, s)

/-- Counts a sector that a barge moved (Table 18.2, Table 18.4, Table 18.7). -/
def State.bargeSect (s : State) (x : Transfer) : State :=
  (((s.cnt x.die 9 1).pmc x.die 0x20 1 (some x.berth))).modCmd x.ctx x.seq fun c => { c with
    counts := { c.counts with bargeSect := c.counts.bargeSect + 1 } }

/-- The first failure of two. -/
def firstSt (a b : Status) : Status := if a = 0 then b else a

/-- Moves the sectors that remain: the final status, or none where the transfer must wait. -/
def State.xferLoop (slot : Nat) (u : Upset) : Nat → Transfer → State → Option Status × Transfer × State
  | 0, x, s => (some x.st, x, s)
  | n + 1, x, s => match s.xferSector x slot u with
    | (.moved st g, s) =>
      State.xferLoop slot u n { x with
        pos := x.pos + 1, st := firstSt x.st st, guard := x.guard || g, atsBad := false } (s.bargeSect x)
    | (.skip st, s) => State.xferLoop slot u n { x with pos := x.pos + 1, st := firstSt x.st st, atsBad := false } s
    | (.wait ats, s) => (none, { x with ats := ats, atsBad := false }, s)
    | (.held sa, s) =>
      (none, x, s.modMem fun m => { m with
        stopReads := m.stopReads ++ [{ die := homeOf sa, node := 0, tid := x.tid, uid := x.uid, ticket := x.ticket, sector := sa
                                       since := s.clk.now }] })
    | (.stop st, s) => (some (firstSt x.st st), x, s)

/-- Whether a transfer is the one of a thread's ticket. -/
def Transfer.is (x : Transfer) (tid ticket : Nat) : Bool := x.tid == tid && x.ticket == ticket

/-- Ends a transfer: its ticket completes with a status, and a trace record is written (R104, Table 18.8). -/
def State.xferEnd (s : State) (x : Transfer) (st : Status) : State :=
  let te := holdEng x.a2
  let region := if x.usesHold ∧ te ≥ 8 then 3 else 2
  let s := s.modEng fun e => { e with xfers := removeFirst (fun y => y.uid == x.uid && y.ticket == x.ticket) e.xfers }
  let s := s.trace x.die { TraceRec.blank 6 with
    unit := if x.usesHold then te else 0xFF, region := region, ctx := x.ctx, berth := x.berth, seq := x.seq
    tag := BitVec.ofNat 32 x.ticket, status := st, tSpan := s.clk.now - x.started, cycSpan := s.cyc x.die region - x.startCyc }
  (s.gotClear x.uid x.ticket).closeTicket x.tid x.uid x.ctx x.seq x.ticket st 0 0 x.guard

/-- Whether a read of a transfer is held in STOP (R219). -/
def State.xferHeld (s : State) (x : Transfer) : Bool := s.mem.stopReads.any fun r => r.uid == x.uid && r.ticket == x.ticket

/-- TRANSFER_COMPLETE (R104 to R106): the barge moves the sectors that remain, and the ticket completes with the first failure,
or 0. Where an answer is awaited, what has moved stays moved and the transfer goes on later. -/
def execTransferComplete (t ticket : Nat) (u : Upset) (s : State) : Out :=
  needSome (s.eng.xfers.find? fun x => x.is t ticket) .notInFlight fun x =>
  need (!x.paused && !s.xferHeld x) .notPending <|
  need (s.present x.die && s.pwr.boot != .stopped) .blockDown <|
  .next <|
    if x.dead then s.xferEnd x x.st
    else
      let slot := if x.usesHold then s.cmdSlot x.die x.ctx x.seq (holdEng x.a2) else some 0
      match slot with
      | none => s.xferEnd x 0x3002
      | some k => match State.xferLoop k u (x.rows * x.rowSecs - x.pos) x s with
        | (some st, x', s') => (s'.chargeRemote s x.die x.ctx x.seq).xferEnd x' st
        | (none, x', s') =>
          (s'.chargeRemote s x.die x.ctx x.seq).modEng fun e => { e with
            xfers := replaceFirst (fun y => y.uid == x.uid && y.ticket == x.ticket)
              (fun y => { x' with st := firstSt x'.st y.st, dead := y.dead }) e.xfers }

end Sys2Proof.Machine
end

