-- ==== Sys2Proof/Machine/Threads.lean ====
section
/-! DEFINITION. The instructions of threads (chapter 4): tickets, transfers, fences, range operations, moorings, counters,
faults, atomics, loads and stores. Each is one instruction of a thread that can issue; a field that its row of Table 4.4 does
not use must be zero, or it raises ILLEGAL. -/

namespace Sys2Proof.Machine

/-- Raises ILLEGAL (cause 1) where an encoding or operand word is not allowed, else goes on. -/
def State.legal (s : State) (tid : Nat) (ok : Bool) (k : State → State) : State := if ok then k s else s.trap tid 1 0

/-! ## Tickets -/

/-- Issues the next ticket of a thread and counts the instruction. -/
def State.newTicket (s : State) (tid : Nat) (t : Thread) (rd : BitVec 5) : Nat × State :=
  (s.countIssue tid t).issueTicket tid t rd

/-- Issues a ticket that completes at once with a status. -/
def State.deadTicket (s : State) (tid : Nat) (t : Thread) (rd : BitVec 5) (st : Status) : State :=
  let (n, s) := s.newTicket tid t rd
  s.closeTicket tid t.uid t.ctx t.seq n st 0 0 false

/-- Whether a thread may issue a ticket: fewer than 64 outstanding (R101). -/
def State.ticketRoom (s : State) (t : Thread) : Bool := decide ((s.openTickets t.uid).length < 64)

/-- Tiles that wait in a die's queue, at most 4,096 (R147). -/
def State.tileqRoom (s : State) (d : Nat) : Bool := decide ((s.eng.tileq.filter fun q => q.die == d).length < 4096)

/-- ENG_CLAIM of a thread's command. -/
def State.claimOf (s : State) (t : Thread) : Nat := match s.cmd? t.ctx t.seq with
  | some c => c.claim
  | none => 0

/-- The 64-bit words of a run of bytes. -/
def wordsOf (n : Nat) (bytes : List Byte) : Vector Word n := Vector.ofFn fun i => BitVec.ofNat 64 (rdLE bytes (8 * i.val) 8)

/-- TSUB (R102): the descriptor is read through the L1 and queued with the masked engine set. A full queue or 64 outstanding
tickets stall the thread; an empty masked set completes the ticket with 0x6004 (R147). -/
def State.opTsub (s : State) (tid : Nat) (t : Thread) (rd rs1 rs2 : BitVec 5) : State :=
  let w := t.reg rs2
  let va := (t.reg rs1).toNat
  s.legal tid (Word.fld w 15 0 != 0 && Word.fld w 63 17 == 0) fun s =>
    if va % 64 ≠ 0 then s.trap tid 2 va
    else if !s.ticketRoom t || !s.tileqRoom (dieOfThr tid) then s
    else match s.loadBytes tid t va 64 false {} with
      | (.ok bs, s) =>
        let mask := Word.fld w 15 0 &&& s.claimOf t
        if mask = 0 then s.deadTicket tid t rd 0x6004
        else
          let (n, s) := s.newTicket tid t rd
          s.modEng fun e => { e with
            tileq := e.tileq ++ [{ die := dieOfThr tid, tid := tid, uid := t.uid, ticket := n, ctx := t.ctx, seq := t.seq
                                   desc := wordsOf 8 bs, mask := BitVec.ofNat 16 mask, after := Word.bit w 16, kind := 0
                                   owner := 0, srcDie := dieOfThr tid, outOwner := 0 }] }
      | (l, s) => s.stall tid t va l .fetch

/-- TSUB. -/
def execTsub (t : Nat) (rd rs1 rs2 : BitVec 5) (s : State) : Out := s.issue t 4 fun th s => s.opTsub t th rd rs1 rs2

/-- Whether every ticket of a thread up to a number has completed. -/
def State.ticketsDone (s : State) (uid upTo : Nat) : Bool := (s.openTickets uid).all fun k => decide (upTo < k.num)

/-- The result word of R103 over the unreported tickets of a thread up to a number, and the state in which they are reported,
unless one is outstanding. -/
def State.ticketResult (s : State) (uid upTo : Nat) : Word × State :=
  let cov := sortBy (fun k => k.num) (s.thr.tickets.filter fun k => k.uid == uid && decide (k.num ≤ upTo) && !k.reported)
  let done := cov.filter fun k => k.done
  let pending := cov.any fun k => !k.done
  let flags := done.foldl (fun (a : BitVec 16) k => a ||| k.flags) 0
  let fail := match done.find? fun k => k.status.toNat / 0x1000 ≥ 2 with
    | some k => 2 ^ 62 + k.num % 2 ^ 16 * 2 ^ 32 + k.status.toNat * 2 ^ 16
    | none => 0
  let w : Word := BitVec.ofNat 64 (flags.toNat + fail + (if pending then 2 ^ 63 else 0))
  (w, if pending then s
    else s.modThr fun x => { x with tickets := x.tickets.filter fun k => !(k.uid == uid && decide (k.num ≤ upTo)) })

/-- Ends a wait on tickets: the result in `rd`, and FENCE.ACQ where the instruction asks for it (R103). -/
def State.ticketEnd (s : State) (tid : Nat) (t : Thread) (rd : BitVec 5) (upTo : Nat) (acq : Bool) : State :=
  let (w, s) := s.ticketResult t.uid upTo
  let s := s.retire tid 4 fun t => { t.setReg rd w with wait := .none }
  if acq then s.acqAll tid else s

/-- TWAIT and TWAIT.ACQ (R103). -/
def State.opTwait (s : State) (tid : Nat) (t : Thread) (rd rs1 rs2 : BitVec 5) (acq : Bool) : State :=
  let n := (t.reg rs1).toNat
  let upTo := Nat.min n t.kticket
  s.legal tid (rs2 == 0) fun s =>
    if n = 0 then
      let s := s.retire tid 4 fun t => t.setReg rd 0
      if acq then s.acqAll tid else s
    else if s.ticketsDone t.uid upTo then s.ticketEnd tid t rd upTo acq
    else s.modThread tid fun t => { t with wait := .tickets rd upTo acq }

/-- TWAIT. -/
def execTwait (t : Nat) (rd rs1 rs2 : BitVec 5) (s : State) : Out := s.issue t 4 fun th s => s.opTwait t th rd rs1 rs2 false

/-- TWAIT.ACQ. -/
def execTwaitAcq (t : Nat) (rd rs1 rs2 : BitVec 5) (s : State) : Out := s.issue t 4 fun th s => s.opTwait t th rd rs1 rs2 true

/-- TPOLL (R103). -/
def State.opTpoll (s : State) (tid : Nat) (t : Thread) (rd rs1 rs2 : BitVec 5) : State :=
  s.legal tid (rs2 == 0) fun s =>
    let (w, s) := s.ticketResult t.uid (Nat.min (t.reg rs1).toNat t.kticket)
    s.retire tid 4 fun t => t.setReg rd w

/-- TPOLL. -/
def execTpoll (t : Nat) (rd rs1 rs2 : BitVec 5) (s : State) : Out := s.issue t 4 fun th s => s.opTpoll t th rd rs1 rs2

/-- TWAIT_RESUME (R103): a thread suspended in TWAIT goes on once its last covered ticket has completed. -/
def execTwaitResume (t : Nat) (s : State) : Out :=
  needSome (s.thread? t) .noReadyThread fun th =>
  need (!th.frozen) .noReadyThread <|
  match th.wait with
  | .tickets rd upTo acq => need (s.ticketsDone th.uid upTo) .notPending (.next (s.ticketEnd t th rd upTo acq))
  | _ => .fault .noReadyThread

/-! ## Transfers -/

/-- A transfer of a thread that has just taken ticket `n`. -/
def State.newXfer (s : State) (tid : Nat) (t : Thread) (n kind : Nat) (a1 a2 a3 : Word) (opt : Bool) (desc : Vector Word 4) :
    State :=
  let d := dieOfThr tid
  let x : Transfer :=
    { kind := kind, die := d, tid := tid, uid := t.uid, ticket := n, ctx := t.ctx, seq := t.seq, berth := t.berth
      harbour := t.harbour, convoy := t.convoy, a1 := a1, a2 := a2, a3 := a3, opt := opt, desc := desc, bank := t.bank
      paused := false, pos := 0, started := s.clk.now, startCyc := 0, st := 0, dead := false, guard := false, ats := 0
      atsBad := false }
  s.modEng fun e => { e with
    xfers := e.xfers ++ [{ x with startCyc := s.cyc d (if x.usesHold ∧ holdEng a2 ≥ 8 then 3 else 2) }] }

/-- HLD and HST (R105). -/
def State.opHld (s : State) (tid : Nat) (t : Thread) (rd rs1 rs2 rs3 : BitVec 5) (f2 : BitVec 2) (store : Bool) : State :=
  let m := t.reg rs1
  let h := t.reg rs2
  let sh := t.reg rs3
  let secs := Word.fld sh 15 0
  let rows := Word.fld sh 31 16
  let hp := Word.fld sh 47 32
  let aligned := m.toNat % 32 == 0 && holdOff h % 32 == 0 && Word.fld h 63 27 == 0
  let none' := secs == 0 || rows == 0
  let inside := decide (secs ≤ hp) && decide (secs ≤ Word.fld sh 63 48) &&
    decide (holdOff h + ((rows - 1) * hp + secs) * 32 ≤ holdSize)
  s.legal tid (Word.fld (f2.setWidth 64) 1 1 == 0 && aligned && (none' || inside)) fun s =>
    if !s.ticketRoom t then s
    else if none' then s.deadTicket tid t rd 0
    else if (s.engSlot (dieOfThr tid) (holdEng h)).isNone then s.deadTicket tid t rd 0x3002
    else
      let (n, s) := s.newTicket tid t rd
      s.newXfer tid t n (if store then 1 else 0) m h sh (f2 &&& 1 == 1) (Vector.replicate 4 0)

/-- HLD. -/
def execHld (t : Nat) (rd rs1 rs2 rs3 : BitVec 5) (f2 : BitVec 2) (s : State) : Out :=
  s.issue t 4 fun th s => s.opHld t th rd rs1 rs2 rs3 f2 false

/-- HST. -/
def execHst (t : Nat) (rd rs1 rs2 rs3 : BitVec 5) (f2 : BitVec 2) (s : State) : Out :=
  s.issue t 4 fun th s => s.opHld t th rd rs1 rs2 rs3 f2 true

/-- What a gather or scatter descriptor breaks (Table 4.5): a reserved field 0x6001, another rule 0x6002, or nothing. -/
def descCheck (w : Vector Word 4) : Status :=
  let g (i : Nat) : Word := w.toList.getD i 0
  let idxw := Word.fld (g 2) 57 56
  let secs := Word.fld (g 2) 47 32
  let count := Word.fld (g 2) 31 0
  if Word.fld (g 2) 63 58 ≠ 0 ∨ Word.fld (g 2) 55 48 ≠ 0 ∨ idxw ≥ 2 then 0x6001
  else if (g 0).toNat % 32 ≠ 0 ∨ (g 1).toNat % (if idxw = 0 then 4 else 8) ≠ 0 ∨ secs < 1 ∨ secs > 256 ∨ count < 1 ∨
    count > 2 ^ 24 ∨ Word.fld (g 3) 63 32 < secs then 0x6002
  else 0

/-- GATH and SCAT (R106): the descriptor is read through the L1; a broken one completes the ticket with class 6. -/
def State.opGath (s : State) (tid : Nat) (t : Thread) (rd rs1 rs2 : BitVec 5) (f7 : BitVec 7) (scat : Bool) : State :=
  let va := (t.reg rs1).toNat
  let p := t.reg rs2
  let mem := f7 == 1
  let aligned := if mem then p.toNat % 32 == 0 else holdOff p % 32 == 0 && Word.fld p 63 27 == 0
  s.legal tid ((f7 == 0 || f7 == 1) && aligned) fun s =>
    if !s.ticketRoom t then s
    else match s.loadBytes tid t va 32 false {} with
      | (.ok bs, s) =>
        let w : Vector Word 4 := wordsOf 4 bs
        let st := descCheck w
        let last := (Word.fld (w.toList.getD 2 0) 31 0 - 1) * Word.fld (w.toList.getD 3 0) 63 32 +
          Word.fld (w.toList.getD 2 0) 47 32
        if st ≠ 0 then s.deadTicket tid t rd st
        else s.legal tid (mem || decide (holdOff p + 32 * last ≤ holdSize)) fun s =>
          if !mem ∧ (s.engSlot (dieOfThr tid) (holdEng p)).isNone then s.deadTicket tid t rd 0x3002
          else
            let (n, s) := s.newTicket tid t rd
            s.newXfer tid t n (if scat then 3 else 2) 0 p 0 mem w
      | (l, s) => s.stall tid t va l .fetch

/-- GATH. -/
def execGath (t : Nat) (rd rs1 rs2 : BitVec 5) (f7 : BitVec 7) (s : State) : Out :=
  s.issue t 4 fun th s => s.opGath t th rd rs1 rs2 f7 false

/-- SCAT. -/
def execScat (t : Nat) (rd rs1 rs2 : BitVec 5) (f7 : BitVec 7) (s : State) : Out :=
  s.issue t 4 fun th s => s.opGath t th rd rs1 rs2 f7 true

/-! ## Fences (R107 to R111) -/

/-- The pieces [a, a + k) of a virtual range that lie in one 4 KiB block each. -/
def blockPieces (step : Nat) : Nat → Nat → Nat → List (Nat × Nat)
  | 0, _, _ => []
  | fuel + 1, a, n =>
    if n = 0 then []
    else
      let k := Nat.min n (step - a % step)
      (a, k) :: blockPieces step fuel (a + k) (n - k)

/-- The global address ranges that a fence covers: all memory, or the pages of its virtual range. Unmapped pages are passed over;
a host page whose translation is not at hand stands for all host memory. -/
def State.fenceRanges (s : State) (tid : Nat) (t : Thread) (rs1 rs2 : BitVec 5) : List (Nat × Nat) × State :=
  if rs1 = 0 ∧ rs2 = 0 then ([(0, allMem)], s)
  else
    let va := (t.reg rs1).toNat
    let n := (t.reg rs2).toNat
    (blockPieces 4096 (n / 4096 + 2) va n).foldl (fun (a : List (Nat × Nat) × State) p =>
      match a.2.translate t.berth t.bank p.1 .read false with
      | (.ok ga, s) => (a.1 ++ [match s.dramAddr (dieOfThr tid) ga with | some pa => (pa, pa + p.2) | none => (ga, ga + p.2)], s)
      | (.fault _, s) => (a.1, s)
      | (.wait, s) => (a.1 ++ [(2 ^ 70, 3 * 2 ^ 70)], s)) ([], s)

/-- Whether the host has yet to grant a line that holds merged device writes (R320). -/
def State.hostPending (s : State) : Bool :=
  s.cxl.ports.toList.any fun p => p.up && p.hcache.any fun l => !l.2.own && l.2.bytes.any fun b => b.2.dirty

/-- FENCE.REL over ranges (R110). False where an answer is awaited; the thread then waits for its PUTs, or issues again. -/
def State.fenceRel (s : State) (tid : Nat) (t : Thread) (ranges : List (Nat × Nat)) : Bool × State :=
  let (ok, s) := ranges.foldl (fun (a : Bool × State) r =>
    let (ok, s) := a.2.release (coreOfThr tid) r.1 r.2
    (a.1 && ok, s)) (true, s)
  if !ok ∨ (s.hostPending ∧ ranges.any fun r => decide (r.2 > 2 ^ 70)) then (false, s)
  else if s.erh.opens.any fun o => o.uid == t.uid && o.kind == 0 then (false, s.modThread tid fun t => { t with wait := .puts })
  else (true, s)

/-- FENCE.ACQ over ranges (R109). -/
def State.fenceAcq (s : State) (tid : Nat) (ranges : List (Nat × Nat)) : State :=
  ranges.foldl (fun s r => s.acquire (coreOfThr tid) r.1 r.2) s

/-- A fence: release, then acquire, as its row asks. -/
def State.opFence (s : State) (tid : Nat) (t : Thread) (rd rs1 rs2 : BitVec 5) (rel acq : Bool) : State :=
  s.legal tid (rd == 0) fun s =>
    let (rs, s) := s.fenceRanges tid t rs1 rs2
    let (ok, s) := if rel then s.fenceRel tid t rs else (true, s)
    if !ok then s
    else (if acq then s.fenceAcq tid rs else s).retire tid 4 id

/-- FENCE.ACQ. -/
def execFenceAcq (t : Nat) (rd rs1 rs2 : BitVec 5) (s : State) : Out :=
  s.issue t 4 fun th s => s.opFence t th rd rs1 rs2 false true

/-- FENCE.REL. -/
def execFenceRel (t : Nat) (rd rs1 rs2 : BitVec 5) (s : State) : Out :=
  s.issue t 4 fun th s => s.opFence t th rd rs1 rs2 true false

/-- FENCE.FULL. -/
def execFenceFull (t : Nat) (rd rs1 rs2 : BitVec 5) (s : State) : Out :=
  s.issue t 4 fun th s => s.opFence t th rd rs1 rs2 true true

/-- Drops a core's instruction cache (R93). -/
def State.icacheDrop (s : State) (core : Nat) : State :=
  s.modBasin fun b => { b with icache := NMap.keep b.icache fun k _ => keyUnit k != core }

/-- FENCE.I (R93). -/
def execFenceI (t : Nat) (s : State) : Out := s.issue t 4 fun _ s => (s.icacheDrop (coreOfThr t)).retire t 4 id

/-! ## Range operations (R112, R113, R200) -/

/-- How a line of a range operation stands. -/
inductive RangeStep where
  | go
  | again
  | trap (cause : Nat)
  | bad (st : Status)
  | ats
deriving DecidableEq, Repr

/-- The home ownership check of a page that a range operation meets, as a thread's own access. -/
def State.rangeOwn (s : State) (tid : Nat) (t : Thread) (pa : Nat) (write : Bool) : RangeStep :=
  if !s.present (homeOf pa) then .bad 0x2201
  else match s.ownCheck (s.threadReq tid t pa) (s.pot (pa / 0x10000)) write with
    | .refuse => .trap 4
    | _ => .go

/-- Runs a range operation piece by piece; the first that does not go on ends it. -/
def rangeLoop (f : State → Nat → Nat → RangeStep × State) : List (Nat × Nat) → State → RangeStep × Nat × State
  | [], s => (.go, 0, s)
  | (a, n) :: rest, s => match f s a n with
    | (.go, s) => rangeLoop f rest s
    | (r, s) => (r, a, s)

/-- What follows a range operation: it retires, waits, or faults. -/
def State.rangeEnd (s : State) (tid : Nat) (t : Thread) (r : RangeStep) (va : Nat) : State := match r with
  | .go => s.retire tid 4 id
  | .again => s
  | .trap c => s.trap tid c va
  | .bad st => s.trapSt tid va st
  | .ats => s.stall tid t va (.ask 5 (s.atsKey t va)) .fetch

/-- The lines of a virtual range. -/
def rangeLines (va n : Nat) : List (Nat × Nat) :=
  if n = 0 then [] else blockPieces 128 ((n + va % 128) / 128 + 2) (va - va % 128) (n + va % 128)

/-- Writes back one line of a thread's L1 and far part (BWB), and drops it (BINV). -/
def State.lineBack (s : State) (tid line : Nat) (drop : Bool) : Bool × State :=
  let core := coreOfThr tid
  let d := dieOfThr tid
  let (a, s) := s.l1Flush core line (line + 128)
  if !a then (false, s)
  else
    let s := if drop then (secsOfLine line).foldl (fun s sa => s.l1DropSec core sa) s else s
    if line ≥ 2 ^ 70 then (true, s)
    else
      let (b, s) := s.farWbU d line
      if !b then (false, s)
      else (true, if drop ∧ NMap.has s.basin.farLines (heldKey d line) then (s.farEvict d line).dirRemove line d else s)

/-- One line of BWB or BINV. -/
def State.backStep (s : State) (tid : Nat) (t : Thread) (drop : Bool) (va : Nat) : RangeStep × State :=
  match s.translate t.berth t.bank va .read false with
  | (.fault c, s) => (.trap c, s)
  | (.wait, s) => (.ats, s)
  | (.ok ga, s) =>
    if ga ≥ 2 ^ 43 then
      let (ok, s) := s.lineBack tid (lineOf ga) drop
      (if ok then .go else .again, s)
    else match s.dramAddr (dieOfThr tid) ga with
      | none => (.bad 0x2201, s)
      | some pa => match s.rangeOwn tid t pa false with
        | .go =>
          let (ok, s) := s.lineBack tid (lineOf pa) drop
          (if ok then .go else .again, s)
        | r => (r, s)

/-- BWB and BINV (R112). -/
def State.opBack (s : State) (tid : Nat) (t : Thread) (rd rs1 rs2 : BitVec 5) (drop : Bool) : State :=
  s.legal tid (rd == 0) fun s =>
    let (r, va, s) := rangeLoop (fun s a _ => s.backStep tid t drop a) (rangeLines (t.reg rs1).toNat (t.reg rs2).toNat) s
    s.rangeEnd tid t r va

/-- BWB. -/
def execBwb (t : Nat) (rd rs1 rs2 : BitVec 5) (s : State) : Out := s.issue t 4 fun th s => s.opBack t th rd rs1 rs2 false

/-- BINV. -/
def execBinv (t : Nat) (rd rs1 rs2 : BitVec 5) (s : State) : Out := s.issue t 4 fun th s => s.opBack t th rd rs1 rs2 true

/-- Requests one line into the die's basin; nothing that goes wrong is shown (R112). Lines of tracked windows are left to the
accesses that need them. -/
def State.prefetch (s : State) (tid : Nat) (t : Thread) (va : Nat) : State :=
  match s.translate t.berth t.bank va .read false with
  | (.ok ga, s) =>
    if isHost ga then (s.hostRead (lineOf ga) 128).2
    else if ga ≥ 2 ^ 43 ∨ isReg ga then s
    else match s.dramAddr (dieOfThr tid) ga with
      | none => s
      | some pa =>
        if s.trackedAt pa then s
        else (secsOfLine (lineOf pa)).foldl (fun s sa =>
          (s.basinRead (dieOfThr tid) (s.threadReq tid t sa) sa (List.range 32) false {}).2) s
  | (_, s) => s

/-- BPREF (R112). -/
def execBpref (t : Nat) (rd rs1 rs2 : BitVec 5) (s : State) : Out :=
  s.issue t 4 fun th s => s.legal t (rd == 0) fun s =>
    ((rangeLines (th.reg rs1).toNat (th.reg rs2).toNat).foldl (fun s p => s.prefetch t th p.1) s).retire t 4 id

/-- Spd at the home (R200): the dirty home bytes of a sector go without write-back; lines in O stay, and a moored
line's updates are applied first (R197). With SPENT_POISON the sector becomes poison. -/
def State.spdSector (s : State) (sa : Nat) : State :=
  let own : Bool := match NMap.get? s.basin.dir (lineOf sa) with
    | some e => (match e.state with | .owned _ => true | .busy => true | .shared => false)
    | none => false
  if own then s
  else
    let s := s.drainLine (lineOf sa)
    let s := s.modBasin fun b => { b with
      home := NMap.keep b.home fun a c => !(secOf a == sa && c.dirty) }
    if s.rbit (dieBase (homeOf sa) + 0x3000) 1 then
      let s := s.modBasin fun b => { b with homePoison := NMap.put b.homePoison sa () }
      let (old, _, s) := s.dramSector sa []
      (s.dramPut sa old true).modMem fun m => { m with spentSec := NMap.put m.spentSec sa () }
    else s

/-- The dirty bytes of a sector in one core's L1 and in its die's far part go without write-back (R113, R200). A line that the
die owns keeps its far bytes. -/
def State.spentHeld (s : State) (core sa : Nat) : State :=
  let d := dieOfCore core
  let s := s.modBasin fun b => { b with
    l1 := NMap.keep b.l1 fun k c => !(keyUnit k == core && secOf (keyAddr k) == sa && c.dirty)
    l1Poison := NMap.erase b.l1Poison (heldKey core sa) }
  if s.farOwned d (lineOf sa) then s
  else s.modBasin fun b => { b with
    far := NMap.keep b.far fun k c => !(keyUnit k == d && secOf (keyAddr k) == sa && c.dirty)
    farPoison := NMap.erase b.farPoison (heldKey d sa) }

/-- One wholly covered sector of SPENT.B. -/
def State.spentStep (s : State) (tid : Nat) (t : Thread) (va n : Nat) : RangeStep × State :=
  match s.translate t.berth t.bank va .write false with
  | (.fault c, s) => (.trap c, s)
  | (.wait, s) => (.ats, s)
  | (.ok ga, s) =>
    if ga ≥ 2 ^ 43 then (.go, if n = 32 then s.spentHeld (coreOfThr tid) ga else s)
    else match s.dramAddr (dieOfThr tid) ga with
      | none => (.bad 0x2201, s)
      | some pa => match s.rangeOwn tid t pa true with
        | .go => (.go, if n = 32 then (s.spentHeld (coreOfThr tid) pa).spdSector pa else s)
        | r => (r, s)

/-- SPENT.B (R113). -/
def execSpentB (t : Nat) (rd rs1 rs2 : BitVec 5) (s : State) : Out :=
  s.issue t 4 fun th s => s.legal t (rd == 0) fun s =>
    let va := (th.reg rs1).toNat
    let n := (th.reg rs2).toNat
    let (r, a, s) := rangeLoop (fun s a k => s.spentStep t th a k) (blockPieces 32 (n / 32 + 2) va n) s
    s.rangeEnd t th r a

/-- SPENT.H (R113, R84). -/
def execSpentH (t : Nat) (rd rs1 rs2 : BitVec 5) (s : State) : Out :=
  s.issue t 4 fun th s =>
    let h := th.reg rs1
    let n := (th.reg rs2).toNat
    s.legal t (rd == 0 && Word.fld h 63 27 == 0 && holdOff h % 32 == 0 && decide (holdOff h + n ≤ holdSize)) fun s =>
      match s.cmdSlot (dieOfThr t) th.ctx th.seq (holdEng h) with
      | none => s.retire t 4 id
      | some k =>
        let pz := s.rbit (dieBase (dieOfThr t) + 0x210) 1
        ((List.range (n / 32)).foldl (fun (s : State) i => s.holdSpent k (holdOff h + 32 * i) pz) s).retire t 4 id

/-! ## LDAQ and SDRL (R114) -/

/-- LDAQ.W and LDAQ.D. -/
def execLdaq (t : Nat) (rd rs1 rs2 : BitVec 5) (f7 : BitVec 7) (u : Upset) (s : State) : Out :=
  s.issue t 4 fun th s => s.legal t (rs2 == 0 && (f7 == 0 || f7 == 1)) fun s =>
    s.runLoad t th (.int rd (if f7 = 0 then 2 else 3) true) (th.reg rs1).toNat 4 true u

/-- SDRL.W and SDRL.D. -/
def execSdrl (t : Nat) (rd rs1 rs2 : BitVec 5) (f7 : BitVec 7) (s : State) : Out :=
  s.issue t 4 fun th s => s.legal t (rd == 0 && (f7 == 0 || f7 == 1)) fun s =>
    let (ok, s) := s.fenceRel t th [(0, allMem)]
    if ok then s.runStore t th (.int rs2 (if f7 = 0 then 2 else 3)) (th.reg rs1).toNat 4 true else s

/-! ## Moorings (R117, R118, R268, R269) -/

/-- Whether a thread is a harbour thread of the convoy program in a step (R118). -/
def Thread.isConvoy (t : Thread) : Bool := t.harbour && t.convoy

/-- Whether a thread may use the pool of a berth (R118). -/
def State.moorAllowed (s : State) (t : Thread) (b : Nat) : Bool :=
  (t.isConvoy && (match s.berth? b with | some e => e.kind == 1 | none => false)) || (!t.harbour && t.berth == b)

/-- Journals a mooring operation of a convoy step (R358). -/
def State.moorJournal (s : State) (t : Thread) (b pa : Nat) (pop : Bool) : State :=
  if t.isConvoy then s.modCmd t.ctx t.seq fun c => { c with journal := c.journal ++ [(b, pa, pop)] } else s

/-- MPOP (R118, R269): which free mooring comes out is open (log entry 6). -/
def execMpop (t : Nat) (rd rs1 rs2 : BitVec 5) (s : State) : Out :=
  s.issue t 4 fun th s => s.legal t (rs2 == 0) fun s =>
    let b := Word.fld (th.reg rs1) 7 0
    let empty (s : State) : State := s.retire t 4 fun th => th.setReg rd (BitVec.allOnes 64)
    if !s.moorAllowed th b then s.trap t 4 0
    else if th.isConvoy ∧ NMap.getD s.bth.resv b 0 = 0 then empty s
    else
      let free := match (s.berth? b).bind (·.pool) with | some p => p.free | none => []
      if free = [] then empty (s.modAccount b fun a => { a with moorEmpty := a.moorEmpty + 1 })
      else
        let pa := free.getD ((Config.freeWord s.fresh).toNat % free.length) 0
        let s := (s.drawn 1).modBerth b fun e => { e with
          pool := e.pool.map fun p => { p with free := p.free.filter (· != pa) } }
        let s := if th.isConvoy then s.modBth fun x => { x with resv := NMap.put x.resv b (NMap.getD x.resv b 0 - 1) } else s
        (s.moorJournal th b pa true).retire t 4 fun th => th.setReg rd (BitVec.ofNat 64 pa)

/-- MPUSH (R118): a mooring that was quarantined meanwhile leaves its pool (R361). -/
def execMpush (t : Nat) (rd rs1 rs2 : BitVec 5) (s : State) : Out :=
  s.issue t 4 fun th s => s.legal t (rd == 0) fun s =>
    let b := Word.fld (th.reg rs1) 7 0
    let pa := (th.reg rs2).toNat
    if !s.moorAllowed th b then s.trap t 4 0
    else match (s.berth? b).bind (·.pool) with
      | none => s.trap t 9 pa
      | some p =>
        if pa % 0x10000 ≠ 0 ∨ !p.all.contains pa ∨ p.free.contains pa then s.trap t 9 pa
        else
          let bad := (s.pot (pa / 0x10000)).state == .quarantined
          let s := s.modBerth b fun e => { e with
            pool := e.pool.map fun p => if bad then { p with all := p.all.filter (· != pa) } else { p with free := pa :: p.free } }
          let s := if bad then (s.gcnt 0 13 1).modBth fun x => { x with moorLeak := x.moorLeak + 1 } else s
          (s.moorJournal th b pa false).retire t 4 id

/-! ## Completion counters (R120) -/

/-- The counter that an rs1 operand names: none where its reserved bits are set. -/
def ctrOperand (w : Word) : Option (Nat × Nat) :=
  if Word.fld w 15 4 ≠ 0 ∨ Word.fld w 63 26 ≠ 0 then none else some (Word.fld w 25 16, Word.fld w 3 0)

/-- Goes on with a counter's value where its context belongs to the thread's berth (R120). -/
def State.withCtr (s : State) (tid : Nat) (t : Thread) (w : Word) (k : Nat → Nat → Word → State → State) : State :=
  match ctrOperand w with
  | none => s.trap tid 1 0
  | some (ctx, j) => match s.ctx? ctx with
    | some c => if c.berth = t.berth then k ctx j (c.ctr j) s else s.trap tid 12 0
    | none => s.trap tid 12 0

/-- CTRADD: FENCE.REL over all memory, then the increment. -/
def execCtradd (t : Nat) (rd rs1 rs2 : BitVec 5) (s : State) : Out :=
  s.issue t 4 fun th s => s.withCtr t th (th.reg rs1) fun ctx j v s =>
    let (ok, s) := s.fenceRel t th [(0, allMem)]
    if ok then (s.addCtr ctx j (th.reg rs2)).retire t 4 fun th => th.setReg rd v else s

/-- Ends a CTRWAIT with the value that satisfied it: FENCE.ACQ over all memory. -/
def State.ctrEnd (s : State) (tid : Nat) (rd : BitVec 5) (v : Word) : State :=
  (s.acqAll tid).retire tid 4 fun t => { t.setReg rd v with wait := .none }

/-- CTRWAIT: a counter already at its threshold is met at once. -/
def execCtrwait (t : Nat) (rd rs1 rs2 : BitVec 5) (s : State) : Out :=
  s.issue t 4 fun th s => s.withCtr t th (th.reg rs1) fun ctx j v s =>
    if (th.reg rs2).toNat ≤ v.toNat then s.ctrEnd t rd v
    else s.modThread t fun th => { th with wait := .counter rd ctx j (th.reg rs2) }

/-- CTRWAIT_RESUME: after the increment that satisfies it. -/
def execCtrwaitResume (t : Nat) (s : State) : Out :=
  needSome (s.thread? t) .noReadyThread fun th =>
  need (!th.frozen) .noReadyThread <|
  match th.wait with
  | .counter rd ctx j thr =>
    needSome (s.ctx? ctx) .notPending fun c =>
    need (decide (thr.toNat ≤ (c.ctr j).toNat)) .notPending (.next (s.ctrEnd t rd (c.ctr j)))
  | _ => .fault .noReadyThread

/-- CTRREAD. -/
def execCtrread (t : Nat) (rd rs1 rs2 : BitVec 5) (s : State) : Out :=
  s.issue t 4 fun th s => s.legal t (rs2 == 0) fun s => s.withCtr t th (th.reg rs1) fun _ _ v s =>
    s.retire t 4 fun th => th.setReg rd v

/-! ## Faults and ends of threads -/

/-- The handler thread takes its next fault: the oldest that has had no action, or it sleeps until one comes. -/
def State.handlerNext (s : State) (tid b : Nat) : State :=
  let next := match s.berth? b with | some e => e.faultq.head? | none => none
  s.modThread tid fun t => match next with
    | some r => { t with kflt := BitVec.ofNat 64 r.id }
    | none => { t with kflt := 0, wait := .handlerIdle }

/-- Acts on a fault record (R124): a synchronous fault's thread runs again, or past its instruction, or the command fails; an
asynchronous one is acknowledged, or its command fails. -/
def State.faultAct (s : State) (b : Nat) (r : FaultRec) (action : Nat) : State :=
  let s := s.modBerth b fun e => { e with faultq := e.faultq.filter fun q => q.id != r.id }
  let s := if r.sync then s else s.modCmd r.ctx r.seq fun c => { c with noTiles := false }
  let mine : Bool := match s.thread? r.tid with | some t => t.uid == r.uid && t.wait == .fault r.id | none => false
  if action = 2 then s.failCmd r.ctx r.seq r.status
  else if r.sync ∧ mine then
    s.modThread r.tid fun t =>
      if action = 1 then { t.retire t.ilen with wait := .none } else { t with wait := .none }
  else s

/-- KRESUME (R124). -/
def execKresume (t : Nat) (rd rs1 rs2 : BitVec 5) (s : State) : Out :=
  s.issue t 4 fun th s =>
    let act := (th.reg rs2).toNat
    let r := (s.berth? th.berth).bind fun e => e.faultq.find? fun q => q.id == (th.reg rs1).toNat
    match r with
    | none => s.trap t 1 0
    | some r => s.legal t (rd == 0 && th.handler && decide (act ≤ 2)) fun s =>
      ((s.faultAct th.berth r act).retire t 4 id).handlerNext t th.berth

/-- KEXIT (R119): the thread ends; its tickets run on. The handler thread starts over at its entry point. -/
def execKexit (t : Nat) (rd rs1 rs2 : BitVec 5) (s : State) : Out :=
  s.issue t 4 fun th s => s.legal t (rd == 0 && rs1 == 0 && rs2 == 0) fun s =>
    let s := s.countIssue t th
    if th.handler then
      let entry := match s.berth? th.berth with | some e => e.handlerEntry.getD 0 | none => 0
      (s.modThread t fun x => { x with pc := entry }).handlerNext t th.berth
    else s.modThr fun x => { x with threads := NMap.erase x.threads t }

/-- ECALL (R92). -/
def execEcall (t : Nat) (s : State) : Out := s.issue t 4 fun _ s => s.trap t 6 0

/-- EBREAK and C.EBREAK (R92). -/
def execEbreak (t : Nat) (c : Bool) (s : State) : Out := s.issue t (if c then 2 else 4) fun _ s => s.trap t 7 0

/-! ## Atomics (R94, R115, R116) -/

/-- The value of a register, or of an even-odd pair for 128 bits. -/
def Thread.pairReg (t : Thread) (r : BitVec 5) (wd : AmoWidth) : BitVec 128 :=
  match wd with
  | .q => if r = 0 then 0 else BitVec.ofNat 128 ((t.reg r).toNat + (t.reg (r + 1)).toNat * 2 ^ 64)
  | _ => BitVec.ofNat 128 (t.reg r).toNat

/-- Whether an atomic's encoding exists: 128 bits for the compare-and-swap alone, on even registers (R91). -/
def amoLegal (rd rs2 : BitVec 5) (op : AmoOp) (wd : AmoWidth) : Bool :=
  op != .fadd && (wd != .q || (op == .cas && rd.toNat % 2 == 0 && rs2.toNat % 2 == 0))

/-- An atomic with its fences: rl releases before it, aq acquires after it. -/
def State.opAmo (s : State) (tid : Nat) (t : Thread) (rd rs1 rs2 : BitVec 5) (op : AmoOp) (wd : AmoWidth) (aq rl : Bool)
    (u : Upset) : State :=
  let (ok, s) := if rl then s.fenceRel tid t [(0, allMem)] else (true, s)
  if ok then s.runAmo tid t op wd rd (t.reg rs1).toNat (t.pairReg rs2 wd) (t.pairReg rd wd) aq u else s

/-- AMOFADD.W (R116). -/
def execAmofaddW (t : Nat) (rd rs1 rs2 : BitVec 5) (aq rl : Bool) (u : Upset) (s : State) : Out :=
  s.issue t 4 fun th s => s.opAmo t th rd rs1 rs2 .fadd .w aq rl u

/-- The A-extension AMOs and amocas (R115). -/
def execAmo (t : Nat) (rd rs1 rs2 : BitVec 5) (op : AmoOp) (width : AmoWidth) (aq rl : Bool) (u : Upset) (s : State) : Out :=
  s.issue t 4 fun th s => s.legal t (amoLegal rd rs2 op width) fun s => s.opAmo t th rd rs1 rs2 op width aq rl u

/-- The tracked DRAM address of an LR or SC, or how it ends: misaligned, no translation, or LRSC_UNTRACKED (R94). -/
def State.lrscAddr (s : State) (tid : Nat) (t : Thread) (va n : Nat) (want : Want) : Except Ld Nat × State :=
  if va % n ≠ 0 then (.error (.fault 2), s)
  else match s.xl t va want with
    | (.fault c, s) => (.error (.fault c), s)
    | (.wait, s) => (.error (.ask 5 (s.atsKey t va)), s)
    | (.ok ga, s) => match s.dramAddr (dieOfThr tid) ga with
      | none => (.error (.fault 5), s)
      | some pa => (if s.trackedAt pa then .ok pa else .error (.fault 5), s)

/-- LR (R94): every copy of the line comes home, the home answers, and the reservation is held there. -/
def State.opLr (s : State) (tid : Nat) (t : Thread) (rd rs1 : BitVec 5) (dword aq rl : Bool) (u : Upset) : State :=
  let va := (t.reg rs1).toNat
  let n := if dword then 8 else 4
  let (ok, s) := if rl then s.fenceRel tid t [(0, allMem)] else (true, s)
  if !ok then s
  else match s.lrscAddr tid t va n .read with
    | (.error l, s) => s.stall tid t va l .fetch
    | (.ok pa, s) =>
      let r := s.threadReq tid t pa
      let (w, s) := if s.present (homeOf pa) && s.ownCheck r (s.pot (pa / 0x10000)) false == .allow
        then s.recall (lineOf pa) r else (false, s)
      if w then s
      else
        let (rd', s) := s.homeRead r (secOf pa) ((List.range n).map fun i => pa % 32 + i) true u
        match rd'.toLd (secOf pa) (pa % 32) n with
        | .ok bs =>
          let s := s.modBasin fun b => { b with resv := NMap.put b.resv tid (lineOf pa, t.uid) }
          let s := s.retire tid 4 fun t => t.setReg rd (sext (8 * n) (ofBytes bs))
          if aq then s.acqAll tid else s
        | l => s.stall tid t va l .fetch

/-- LR.W and LR.D. -/
def execLr (t : Nat) (rd rs1 : BitVec 5) (dword aq rl : Bool) (u : Upset) (s : State) : Out :=
  s.issue t 4 fun th s => s.opLr t th rd rs1 dword aq rl u

/-- SC (R94): 0 in `rd` where the reservation still stands and the store is performed, else 1; the reservation ends. -/
def State.opSc (s : State) (tid : Nat) (t : Thread) (rd rs1 rs2 : BitVec 5) (dword aq rl : Bool) : State :=
  let va := (t.reg rs1).toNat
  let n := if dword then 8 else 4
  let (ok, s) := if rl then s.fenceRel tid t [(0, allMem)] else (true, s)
  let finish (s : State) (v : Word) : State :=
    let s := (s.modBasin fun b => { b with resv := NMap.erase b.resv tid }).retire tid 4 fun t => t.setReg rd v
    if aq then s.acqAll tid else s
  if !ok then s
  else match s.lrscAddr tid t va n .write with
    | (.error l, s) => s.stall tid t va l .fetch
    | (.ok pa, s) =>
      let bs := (List.range n).map fun i => (pa % 32 + i, byteAt (bytesOf n (t.reg rs2).toNat) i)
      if NMap.get? s.basin.resv tid ≠ some (lineOf pa, t.uid) then finish s 1
      else if s.redOpAt pa ≠ 0 ∧ !redWhole (s.redOpAt pa) bs then s.trap tid 2 va
      else match s.homeWrite (s.threadReq tid t pa) t.ctx t.seq (secOf pa) bs false with
        | (st, w, s') =>
          if st ≠ 0 then s'.trapSt tid va st
          else if w then s'.modBasin fun b => { b with resv := s.basin.resv }
          else finish s' 0

/-- SC.W and SC.D. -/
def execSc (t : Nat) (rd rs1 rs2 : BitVec 5) (dword aq rl : Bool) (s : State) : Out :=
  s.issue t 4 fun th s => s.opSc t th rd rs1 rs2 dword aq rl

/-! ## Loads and stores (R91, R96) -/

/-- Base address of a load or store. -/
def Thread.addr (t : Thread) (rs1 : BitVec 5) (imm : BitVec 12) (vec : Bool) : Nat :=
  if vec then (t.reg rs1).toNat else (t.reg rs1 + imm.signExtend 64).toNat

/-- THREAD_LOAD. -/
def execThreadLoad (t : Nat) (form : LoadForm) (rs1 : BitVec 5) (imm : BitVec 12) (c : Bool) (u : Upset) (s : State) : Out :=
  let len := if c then 2 else 4
  s.issue t len fun th s => s.runLoad t th form (th.addr rs1 imm (loadIsVec form)) len false u

/-- THREAD_STORE. -/
def execThreadStore (t : Nat) (form : StoreForm) (rs1 : BitVec 5) (imm : BitVec 12) (c : Bool) (s : State) : Out :=
  let len := if c then 2 else 4
  s.issue t len fun th s => s.runStore t th form (th.addr rs1 imm (storeIsVec form)) len false

end Sys2Proof.Machine
end

