-- ==== Sys2Proof/Machine/Take.lean ====
section
/-! DEFINITION. Contexts and rings (R125 to R137): the queue watch, the taking and validation of entries, readiness, and the
writing of completion records. -/

namespace Sys2Proof.Machine

/-! ## Where a context's rings lie (R126, R430; log entry 16) -/

/-- Virtual address of a submission slot. -/
def Context.sqVa (x : Context) (i : Nat) : Nat := x.rcbVa + 0x1000 + 128 * (i % 2 ^ x.sqLog2)
/-- Virtual address of the completion ring. -/
def Context.cqBase (x : Context) : Nat := x.rcbVa + 0x1000 + 128 * 2 ^ x.sqLog2
/-- Virtual address of a completion slot. -/
def Context.cqVa (x : Context) (j : Nat) : Nat := x.cqBase + 64 * (j % 2 ^ x.cqLog2)
/-- Virtual address of a snapshot slot. -/
def Context.snapVa (x : Context) (j : Nat) : Nat :=
  (x.cqBase + 64 * 2 ^ x.cqLog2 + 4095) / 4096 * 4096 + 256 * (j % 2 ^ x.cqLog2)

/-- Writes line 1 of a control block (Table 5.1). -/
def State.publish (s : State) (n : Nat) : State := match s.ctx? n with
  | none => s
  | some x =>
    (s.vaWrite x.berth (x.rcbVa + 0x80)
      (bytesOf 8 x.sqHead ++ bytesOf 8 x.cqTail ++ bytesOf 4 x.state ++ bytesOf 108 0)).2.2

/-- Stops a context (R127, R128): its state, and the event with the address that failed. -/
def State.ctxStop (s : State) (n st addr : Nat) : State := match s.ctx? n with
  | none => s
  | some x =>
    let s := (s.modCtx n fun x => { x with state := st }).publish n
    s.event 11 (if x.home < 72 then s.siteNum x.home else 80) n addr 0

/-! ## The watch (R130, R131, R191) -/

/-- Arms the watch on line 0 in the transaction that reads it: a pinned directory entry, at most 8 to a set, or a pinned line
of the host cache. -/
def State.watchArm (s : State) (n : Nat) (x : Context) : State :=
  match s.translate x.berth (s.activeBank x.berth) x.rcbVa .read false with
  | (.ok ga, s) =>
    if isHost ga then
      let port := ga / 2 ^ 70 - 1
      let line := ga % 2 ^ 70 - ga % 2 ^ 70 % 64
      (s.modPort port fun p => { p with hcache := NMap.alter p.hcache line fun l => { l with pinned := true } }).modCtx n fun x =>
        { x with watching := true, pinned := true, port := some port }
    else match s.dramAddr 0 ga with
      | none => s
      | some pa =>
        let line := lineOf pa
        let put (s : State) (e : DirEnt) : State := s.modBasin fun b => { b with
          dir := NMap.put b.dir line { e with watch := true, pin := true } }
        let room := decide (((s.dirSet line).filter fun e => e.2.pin).length < 8)
        let mark (s : State) (pin : Bool) : State :=
          (if pin then s else s.cnt (homeOf pa) 16 1).modCtx n fun x => { x with watching := true, pinned := pin, port := none }
        match NMap.get? s.basin.dir line with
        | some e => if e.pin then mark s true else if room then mark (put s e) true else mark s false
        | none =>
          if !room then mark s false
          else
            let (free, s) := s.dirRoom line
            if free then mark (put s DirEnt.empty) true else mark s false
  | (_, s) => s

/-- Unpins the line of a context's watch. -/
def State.watchDrop (s : State) (x : Context) : State :=
  match s.translate x.berth (s.activeBank x.berth) x.rcbVa .read false with
  | (.ok ga, s) =>
    if isHost ga then
      s.modPort (ga / 2 ^ 70 - 1) fun p => { p with
        hcache := NMap.alter p.hcache (ga % 2 ^ 70 - ga % 2 ^ 70 % 64) fun l => { l with pinned := false } }
    else match s.dramAddr 0 ga with
      | none => s
      | some pa =>
        let line := lineOf pa
        match NMap.get? s.basin.dir line with
        | none => s
        | some e =>
          if e.holders = [] ∧ e.state ≠ .busy then s.modBasin fun b => { b with dir := NMap.erase b.dir line }
          else s.modBasin fun b => { b with dir := NMap.put b.dir line { e with watch := false, pin := false } }
  | (_, s) => s

/-! ## Completion records (Table 5.8) -/

/-- The 64 bytes of a completion record. -/
def Cmd.record (c : Cmd) (st : Status) (tStart tEnd qwait eUJ snap : Nat) : List Byte :=
  bytesOf 8 c.seq ++ bytesOf 2 st.toNat ++ bytesOf 2 c.ctx ++ bytesOf 2 (Nat.min c.preempts 0xFFFF) ++
  bytesOf 1 (Nat.min c.replays 0xFF) ++ bytesOf 1 c.cflags.toNat ++ bytesOf 8 tStart ++ bytesOf 8 tEnd ++ bytesOf 8 qwait ++
  bytesOf 8 eUJ ++ bytesOf 8 snap ++ bytesOf 8 c.preemptedNs

/-- Class of a status. -/
def statusClass (st : Status) : Nat := st.toNat / 0x1000

/-- The first completion record that has not been written, from `j` on. -/
def gapFrom : Nat → List Nat → Nat → Nat
  | 0, _, j => j
  | n + 1, w, j => if w.contains j then gapFrom n w (j + 1) else j

/-- Steps 4 and 5 of R141, with the account (R273) and the energy's remainder (R386): the record in the reserved slot, CQ_TAIL
past the records written without a gap, the signal where the class is 0 or 1. False where the record's write must wait. -/
def State.complete (s : State) (c : Cmd) (st : Status) (tStart qwait snap : Nat) : Bool × State :=
  match s.ctx? c.ctx with
  | none => (true, s.modLk fun l => { l with cmds := l.cmds.filter fun q => !(q.ctx == c.ctx && q.seq == c.seq) })
  | some x =>
    let (_, w, s) := s.vaWrite x.berth (x.cqVa c.slot) (c.record st tStart s.clk.now qwait (c.energyNJ / 1000) snap)
    if w then (false, s)
    else
      let s := s.modAccount c.berth fun a => { a with
        completed := a.completed + 1
        failed := a.failed + (if statusClass st ≥ 2 then 1 else 0)
        qwaitNs := a.qwaitNs + qwait
        preempts := a.preempts + c.preempts
        preemptedNs := a.preemptedNs + c.preemptedNs
        energyUJ := a.energyUJ + c.energyNJ / 1000 }
      let s := s.modBth fun b => { b with opEnergyNJ := b.opEnergyNJ + c.energyNJ % 1000 }
      let wr := insertNat c.slot x.written
      let tail := gapFrom (wr.length + 1) wr x.cqTail
      let s := s.modCtx c.ctx fun x => { x with cqTail := tail, written := wr.filter fun j => decide (tail ≤ j) }
      let s := s.modLk fun l => { l with cmds := l.cmds.filter fun q => !(q.ctx == c.ctx && q.seq == c.seq) }
      let s := s.publish c.ctx
      let id := Word.fld (c.word 12) 15 0
      let inc := Word.fld (c.word 12) 63 16
      (true, if statusClass st ≤ 1 ∧ bitAt id 15 ∧ inc ≠ 0 then s.addCtr (fld id 13 4) (fld id 3 0) (BitVec.ofNat 64 inc) else s)

/-! ## Validation (R136, R154, R256, R257) -/

/-- The five counter identifiers of an entry: four waits, then the signal. -/
def Cmd.ids (c : Cmd) : List Nat :=
  ((List.range 4).map fun k => Word.fld (c.word 7) (16 * k + 15) (16 * k)) ++ [Word.fld (c.word 12) 15 0]

/-- A non-zero reserved bit of an entry (R4, R133). -/
def Cmd.reservedBad (c : Cmd) : Bool :=
  Word.fld (c.word 0) 24 23 != 0 || Word.fld (c.word 1) 47 42 != 0 || Word.fld (c.word 6) 63 45 != 0 ||
  (c.ids.any fun id => bitAt id 14 || (!bitAt id 15 && id != 0)) ||
  (match c.opcode with
    | 1 => c.word 13 != 0 || c.word 14 != 0 || c.word 15 != 0
    | 2 => c.word 13 != 0 || c.word 14 != 0 || c.word 15 != 0
    | 0x10 => Word.fld (c.word 15) 63 48 != 0
    | 0x11 => Word.fld (c.word 14) 63 32 != 0 || c.word 15 != 0
    | _ => false)

/-- Whether an entry's opcode is permitted to a context (Table 5.4, R254). -/
def State.opcodeOk (s : State) (c : Cmd) : Bool :=
  let kind := match s.berth? c.berth with | some b => b.kind | none => 0
  match c.opcode with
  | 1 => kind == 0
  | 2 => true
  | 0x10 => kind == 1
  | _ => match s.bth.convoy with
    | some r => c.ctx == r.ctx && c.word 2 == r.entry
    | none => false

/-- Whether a value field of an entry is out of range (R136, R256, R257). -/
def State.rangeBad (s : State) (c : Cmd) : Bool :=
  let runs := c.opcode == 1 || c.opcode == 0x11
  let len := Word.fld (c.word 6) 44 26
  let cap := match s.berth? c.berth with | some b => b.prioMax | none => 7
  decide (Word.fld (c.word 0) 28 25 > 5) || c.anchorMode == 3 || decide (c.prio > cap) ||
  (if runs then c.threads == 0 || decide (c.threads > 512) || c.dieMask == 0 else c.threads != 0 || c.dieMask != 0 || c.claim != 0) ||
  ((len != 0) != c.steal) || decide (len > 262144) ||
  (Word.fld (c.word 12) 63 16 != 0 && !bitAt (Word.fld (c.word 12) 15 0) 15) ||
  (c.opcode == 0x10 &&
    (c.word 2 != 0 || c.word 3 != 0 || c.word 4 != 0 || c.steal || c.anchorMode != 0 || Word.fld (c.word 0) 28 25 != 0 ||
      c.toHandler || Word.fld (c.word 15) 47 32 == 0 || Word.fld (c.word 15) 31 0 == 0 || Word.fld (c.word 13) 1 0 != 0 ||
      Word.fld (c.word 14) 2 0 != 0)) ||
  (c.opcode == 0x11 &&
    (Word.fld (c.word 13) 5 0 != 0 || Word.fld (c.word 14) 15 0 == 0 || decide (Word.fld (c.word 14) 15 0 > 8192) ||
      Word.fld (c.word 14) 31 16 == 0 || decide (Word.fld (c.word 14) 31 16 > 8192)))

/-- Whether a die is on its way out of a berth (R271 step 1). -/
def State.leaving (s : State) (b d : Nat) : Bool :=
  s.mbx.bgs.any fun g => !g.ended && g.req.opcode == 0x0205 && (byteAt g.req.payload 0).toNat == b &&
    (byteAt g.req.payload 2).toNat == d

/-- What is wrong with a die of an entry's set (R270, R271, Table 5.9): 0 where nothing is. -/
def State.dieBad (s : State) (b d : Nat) : Status :=
  let owned (k : Nat) : Bool := match s.berth? k with | some e => e.dies.contains d | none => false
  let mine : Bool := if b = 0 then s.bth.berths.all fun e => e.1 == 0 || !e.2.dies.contains d || e.2.opEntry else owned b
  if s.leaving b d then 0x2003 else if !mine then 0x4001 else if !s.present d then 0x3002 else 0

/-- Whether a counter identifier names a context of a berth (R145). -/
def State.idOk (s : State) (b id : Nat) : Bool := !bitAt id 15 || (match s.ctx? (fld id 13 4) with
  | some x => x.berth == b
  | none => false)

/-- Reads memory for a lock-keeper: a failed read gives its status. -/
def State.lkRead (s : State) (b va n : Nat) : Except Status (List Byte) × Bool × State :=
  let (rd, s) := s.vaRead b va n
  if rd.wait then (.ok [], true, s) else if rd.st ≠ 0 then (.error rd.st, false, s) else (.ok rd.bytes, false, s)

/-- Joins ranges of one engine that touch or overlap, so that each sector counts once; the list is sorted by start. -/
def joinRanges : List (Nat × Nat) → List (Nat × Nat)
  | [] => []
  | (a, n) :: t => match joinRanges t with
    | (b, m) :: r => if b ≤ a + n then (a, Nat.max (a + n) (b + m) - a) :: r else (a, n) :: (b, m) :: r
    | [] => [(a, n)]

/-- The liveness map's ranges by engine, each sector once (R154). -/
def liveRanges (es : List (Nat × Nat × Nat)) : List (Nat × Nat × Nat) :=
  ((List.range 16).map fun e =>
    (joinRanges (sortBy (·.1) ((es.filter (·.1 == e)).map fun x => x.2))).map fun r => (e, r.1, r.2)).flatten

/-- Reads and checks the liveness map (R154): its ranges, or a status. -/
def State.readLive (s : State) (c : Cmd) : Except Status (List (Nat × Nat × Nat)) × Bool × State :=
  let va := (c.word 4).toNat
  if va = 0 then (.ok ((bitsOf 16 c.claim).map fun e => (e, 0, 262144)), false, s)
  else if va % 8 ≠ 0 then (.error 0x6003, false, s)
  else match s.lkRead c.berth va 8 with
    | (.error st, w, s) => (.error st, w, s)
    | (.ok h, w, s) =>
      let n := rdLE h 0 2
      if w then (.ok [], true, s)
      else if n = 0 ∨ n > 4096 ∨ rdLE h 2 2 ≠ 1 ∨ rdLE h 4 4 ≠ 0 then (.error 0x6003, false, s)
      else match s.lkRead c.berth (va + 8) (8 * n) with
        | (.error st, w, s) => (.error st, w, s)
        | (.ok bs, w, s) =>
          let es := (List.range n).map fun i => rdLE bs (8 * i) 8
          let bad (e : Nat) : Bool := fld e 39 37 != 0 || fld e 63 44 != 0 || fld e 36 18 == 0 || decide (fld e 36 18 > 262144) ||
            decide (fld e 17 0 + fld e 36 18 > 262144) || !bitAt c.claim (fld e 43 40)
          if w then (.ok [], true, s)
          else if es.any bad then (.error 0x6003, false, s)
          else (.ok (liveRanges (es.map fun e => (fld e 43 40, fld e 17 0, fld e 36 18))), false, s)

/-- Checks the anchor header and operand list (Tables 5.6 and 5.7): 0, or a status. -/
def State.anchorCheck (s : State) (c : Cmd) : Status × Bool × State :=
  if c.anchorMode = 0 then (0, false, s)
  else match s.lkRead c.berth (c.word 3).toNat 64 with
    | (.error st, w, s) => (st, w, s)
    | (.ok h, w, s) =>
      let list := rdLE h 8 8
      let n := rdLE h 16 4
      let grp := rdLE h 20 4
      if w then (0, true, s)
      else if rdLE h 0 8 = 0 ∨ list % 32 ≠ 0 ∨ n = 0 ∨ n > 4096 ∨ !zeroAt h 24 40 ∨
          (if c.anchorMode = 1 then grp ≠ 0 else grp = 0 ∨ grp > 4095) then (0x6003, false, s)
      else match s.lkRead c.berth list (32 * n) with
        | (.error st, w, s) => (st, w, s)
        | (.ok bs, w, s) =>
          let bad (i : Nat) : Bool := decide (rdLE bs (32 * i + 16) 1 > 1) || decide (rdLE bs (32 * i + 17) 1 > 10) ||
            !zeroAt bs (32 * i + 19) 13
          (if w then 0 else if (List.range n).any bad then 0x6003 else 0, w, s)

/-- The leaf of a berth's map that covers an address: its first virtual address, size, first physical address and WRITE. -/
def State.leafAt : Nat → State → Nat → Nat → Nat → Option (Nat × Nat × Nat × Bool) × State
  | 0, s, _, _, _ => (none, s)
  | fuel + 1, s, level, table, va =>
    let (e, s) := s.mapEntry (table + 8 * mapIndex level va)
    match mapDecode level e with
    | none => (none, s)
    | some (.inr (a, w, _)) => (some (va - va % leafSize level, leafSize level, a, w), s)
    | some (.inl t) => State.leafAt fuel s (level + 1) t va

/-- A passage's buffer at take (R256): within one leaf of the map, on device pages of the berth; its physical address. -/
def State.passageBuf (s : State) (b va n : Nat) (write : Bool) : Option Nat × State :=
  if va + n > 2 ^ 47 ∨ (s.regionOf b (s.activeBank b) va).isSome then (none, s)
  else match State.leafAt 4 s 0 (s.rootOf b (s.activeBank b)) va with
    | (none, s) => (none, s)
    | (some (v0, size, a, w), s) =>
      let pas := (blockPieces 4096 (n / 4096 + 2) (a + (va - v0)) n).map fun p => s.dramAddr 0 p.1
      let mine (p : Option Nat) : Bool := match p with
        | some q => let e := s.pot (q / 0x10000); e.owner == b && e.state == .owned && !(write && e.ro)
        | none => false
      (if va + n ≤ v0 + size ∧ (w ∨ !write) ∧ pas.all mine then s.dramAddr 0 (a + (va - v0)) else none, s)

/-- Validates an entry at take: its status (0 where it is valid), liveness ranges and passage buffers; the Bool asks to wait
for host data. -/
def State.validate (s : State) (c : Cmd) : Status × List (Nat × Nat × Nat) × Nat × Nat × Bool × State :=
  let bad (st : Status) (s : State) : Status × List (Nat × Nat × Nat) × Nat × Nat × Bool × State := (st, [], 0, 0, false, s)
  if c.reservedBad then bad 0x6001 s
  else if c.opcode ≠ 1 ∧ c.opcode ≠ 2 ∧ c.opcode ≠ 0x10 ∧ c.opcode ≠ 0x11 then bad 0x6001 s
  else if !s.opcodeOk c then bad 0x4003 s
  else if s.rangeBad c then bad 0x6002 s
  else match (c.dies.map (s.dieBad c.berth)).find? (· != 0) with
    | some st => bad st s
    | none =>
      if !(c.ids.all (s.idOk c.berth)) then bad 0x4002 s
      else if c.opcode = 0x10 then
        match s.passageBuf c.berth (c.word 13).toNat (4 * Word.fld (c.word 15) 31 0) false with
        | (none, s) => bad 0x2402 s
        | (some i, s) => match s.passageBuf c.berth (c.word 14).toNat (8 + 4 * Word.fld (c.word 15) 47 32) true with
          | (none, s) => bad 0x2402 s
          | (some o, s) => (0, [], i, o, false, s)
      else if c.opcode = 2 then (0, [], 0, 0, false, s)
      else match s.readLive c with
        | (.error st, _, s) => bad st s
        | (.ok live, w, s) =>
          if w then (0, [], 0, 0, true, s)
          else
            let (st, w, s) := s.anchorCheck c
            if st ≠ 0 then bad st s else (0, live, 0, 0, w, s)

/-! ## Readiness (R129, R137) -/

/-- Commands of a context that have started and are not complete. -/
def State.inFlight (s : State) (n : Nat) : Nat := (s.lk.cmds.filter fun c => c.ctx == n && c.phase.started).length

/-- Whether a completion slot is free. -/
def Context.slotFree (x : Context) : Bool := decide (x.cqNext < x.cqHead + 2 ^ x.cqLog2)

/-- Whether every valid wait of a command has been met. -/
def Cmd.waitsMet (c : Cmd) : Bool := (List.range 4).all fun k => !bitAt (c.ids.getD k 0) 15 || bitAt c.met.toNat k

/-- Whether a taken command is ready (R137). -/
def State.isReady (s : State) (c : Cmd) : Bool := match s.ctx? c.ctx with
  | none => false
  | some x => x.slotFree && (c.failed || (c.waitsMet && decide (s.inFlight c.ctx < 16) &&
      (c.overlap || !(s.lk.cmds.any fun q => q.ctx == c.ctx && q.seq + 1 == c.seq))))

/-- Makes a taken command ready, with its completion slot reserved; one that failed at take completes. -/
def State.makeReady (s : State) (c : Cmd) : State := match s.ctx? c.ctx with
  | none => s
  | some x =>
    let c' := { c with slot := x.cqNext, phase := Phase.ready, tReady := s.clk.now }
    let s' := (s.modCtx c.ctx fun x => { x with cqNext := x.cqNext + 1 }).modCmd c.ctx c.seq fun _ => c'
    if c.failed then
      let (ok, s'') := s'.complete { c' with cflags := 0 } c.status (if c.status = 0x2002 then s.clk.now else c.tTake) 0 0
      if ok then s'' else s
    else s'

/-- Whether the latest command of a context is still unstarted, so that no later entry is taken. -/
def State.takeHeld (s : State) (n : Nat) : Bool := s.lk.cmds.any fun c => c.ctx == n && !c.phase.started

/-- A command just taken. -/
def Cmd.fresh (n seq berth now : Nat) (words : Vector Word 16) : Cmd :=
  { ctx := n, seq := seq, berth := berth, words := words, phase := .taken, met := 0, tTake := now, tReady := 0, tStart := 0
    preempts := 0, replays := 0, cflags := 0, preemptedNs := 0, preAt := 0, energyNJ := 0, remoteAt := 0, anchor := none, clamped := false
    flags := 0, redOrder := false, mixed := false
    counts := Counts.zero
    activeId := 0, finBanks := [], cup := [], live := [], status := 0, failed := false, slot := 0, serve := [], check := false
    spillBytes := 0, trigger := 0, heldAt := 0, startCyc := 0, stepRows := [], journal := [], group := 0
    noTiles := false }

/-- The waits of a command that its counters already meet. -/
def State.metNow (s : State) (c : Cmd) : BitVec 4 :=
  BitVec.ofNat 4 (maskOf ((List.range 4).filter fun k =>
    let id := c.ids.getD k 0
    bitAt id 15 && (match s.ctx? (fld id 13 4) with
      | some x => decide ((c.word (8 + k)).toNat ≤ (x.ctr (fld id 3 0)).toNat)
      | none => false)))

/-- Reads and takes the next entry of a context, if it may be taken. `again` is the re-read of R128. False where nothing was
taken. -/
def State.takeOne (s : State) (n : Nat) (again : Bool) : Bool × State := match s.ctx? n with
  | none => (false, s)
  | some x =>
    if x.state ≠ 1 ∨ !s.lk.takes ∨ (x.port.isSome && !x.watching) ∨ !s.berthActive x.berth ∨ x.sqTail ≤ x.sqHead ∨ (x.tries ≠ 0 ∧ !again) ∨ s.takeHeld n then
      (false, s)
    else
      let (rd, s) := s.vaRead x.berth (x.sqVa x.sqHead) 128
      if rd.wait ∨ rd.st = 0x3C01 then (false, s)
      else if rd.st ≠ 0 then (false, s.ctxStop n 5 (x.sqVa x.sqHead))
      else if rdLE rd.bytes 4 4 ≠ x.sqHead % 2 ^ 32 then
        if x.tries ≥ 4 then (false, s.ctxStop n 3 (x.sqVa x.sqHead))
        else (false, s.modCtx n fun x => { x with tries := x.tries + 1 })
      else
        let c := Cmd.fresh n x.sqHead x.berth s.clk.now (wordsOf 16 rd.bytes)
        let (st, live, pin, pout, w, s) := s.validate c
        if w then (false, s)
        else
          let c := { c with status := st, failed := st != 0, live := live, met := s.metNow c }
          let s := (s.modCtx n fun x => { x with sqHead := x.sqHead + 1, tries := 0 }).publish n
          let s := s.modLk fun l => { l with cmds := l.cmds ++ [c] }
          let s := if c.opcode = 0x10 ∧ st = 0 then s.modBth fun b => { b with
              nextPsg := b.nextPsg + 1
              roll := b.roll ++ [{ idx := b.nextPsg % 65536, ctx := n, seq := c.seq, berth := x.berth, prio := c.prio, inPa := pin
                                   outPa := pout, inLen := Word.fld (c.word 15) 31 0, maxNew := Word.fld (c.word 15) 47 32
                                   pos := 0, made := 0, held := 0, joined := false, ended := false, failedSteps := 0
                                   asideAt := none, order := b.nextPsg, status := 0 }] }
            else s
          (true, if s.isReady c then s.makeReady c else s)

/-- Takes entries while they can be taken. -/
def State.takeAll : Nat → State → Nat → State
  | 0, s, _ => s
  | fuel + 1, s, n => match s.takeOne n false with
    | (true, s) => State.takeAll fuel s n
    | (false, s) => s

/-- Goes on with a context after something freed a slot or ended a command: what has become ready does, and entries are
taken. -/
def State.pump (s : State) (n : Nat) : State :=
  let s := (s.lk.cmds.filter fun c => c.ctx == n && c.phase == .taken).foldl (fun s c => if s.isReady c then s.makeReady c else s) s
  match s.ctx? n with
  | some x => State.takeAll (x.sqTail - x.sqHead + 1) s n
  | none => s

/-- Reads line 0 of a control block, re-arms the watch, and takes what is new (R127, R130). `back` is the backstop's read. -/
def State.ctxRead (s : State) (n : Nat) (back : Bool) : State := match s.ctx? n with
  | none => s
  | some x =>
    let (rd, s) := s.vaRead x.berth x.rcbVa 16
    if rd.wait then s
    else if rd.st = 0x3C01 then s.modCtx n fun x => { x with watching := false }
    else if rd.st ≠ 0 then s.ctxStop n 5 x.rcbVa
    else
      let tail := rdLE rd.bytes 0 8
      let head := rdLE rd.bytes 8 8
      let s := s.watchArm n x
      if head < x.cqHead ∨ head > x.cqTail ∨ tail < x.sqHead ∨ tail > x.sqHead + 2 ^ x.sqLog2 then s.ctxStop n 2 x.rcbVa
      else
        let s := s.modCtx n fun x => { x with sqTail := tail, cqHead := head }
        let s := if back ∧ tail ≠ x.sqTail then s.event 12 (if x.home < 72 then s.siteNum x.home else 80) n 0 0 else s
        s.pump n

/-! ## The rows -/

/-- An active context of an active berth, which is being watched. -/
def State.onWatch (s : State) (n : Nat) (k : Context → Out) : Out :=
  needSome (s.ctx? n) .noSuchUnit fun x => need (x.state == 1 && s.berthActive x.berth && s.lk.takes) .notPending (k x)

/-- WATCH_FIRE (R130). -/
def execWatchFire (ctx : Nat) (s : State) : Out := s.onWatch ctx fun _ => .next (s.ctxRead ctx false)

/-- WATCH_BACKSTOP (R131): line 0 of every active context of a home. -/
def execWatchBackstop (home : Nat) (s : State) : Out :=
  need (decide (home ≤ 72)) .noSuchUnit <|
  need (s.lk.takes && (home == 72 || s.present home)) .blockDown <|
  .next ((s.lk.ctxs.filter fun e => Nat.min e.2.home 72 == home && e.2.state == 1 && s.berthActive e.2.berth).foldl
    (fun s e => s.ctxRead e.1 true) s)

/-- WATCH_REFETCH (R131): a gatehouse fetches a lost host line again and re-reads it. -/
def execWatchRefetch (port ctx : Nat) (s : State) : Out :=
  s.onWatch ctx fun x => need (x.port == some port) .notPending (.next (s.ctxRead ctx false))

/-- SEQ_REREAD (R128). -/
def execSeqReread (ctx : Nat) (s : State) : Out :=
  s.onWatch ctx fun x => need (x.tries != 0) .notPending <|
  .next (match s.takeOne ctx true with
    | (true, s) => s.pump ctx
    | (false, s) => s)

/-- A command that a row concerns. -/
def State.onCmd (s : State) (ctx seq : Nat) (k : Cmd → Out) : Out := needSome (s.cmd? ctx seq) .notPending k

/-- COMMAND_READY (R137, R146). -/
def execCommandReady (ctx seq : Nat) (s : State) : Out :=
  s.onCmd ctx seq fun c => need (c.phase == .taken && s.isReady c) .notPending (.next ((s.makeReady c).pump ctx))

/-- SIGNAL (R134): it completes with no work as soon as it is ready. -/
def execSignal (ctx seq : Nat) (s : State) : Out :=
  s.onCmd ctx seq fun c =>
  need (c.opcode == 2 && c.phase == .ready) .notPending <|
  .next (match s.complete c 0 s.clk.now (s.clk.now - c.tReady) 0 with
    | (true, s) => s.pump ctx
    | (false, s) => s)

/-- PASSAGE (R256): a ready passage waits in the convoy roll for a step. -/
def execPassage (ctx seq : Nat) (s : State) : Out :=
  s.onCmd ctx seq fun c =>
  need (c.opcode == 0x10 && c.phase == .ready) .notPending <|
  .next ((s.modCmd ctx seq fun c => { c with phase := .roll }).pump ctx)

end Sys2Proof.Machine
end

