-- ==== Sys2Proof/Machine/Start.lean ====
section
/-! DEFINITION. Starting commands (R135, R138 to R140, R157, R167, R302): placement, the order of ready commands, the
pre-scan, and multi-die scheduling. -/

namespace Sys2Proof.Machine

/-! ## Placement (R138) -/

/-- The cores that a command's threads use on a die. -/
def State.cmdCores (s : State) (c : Cmd) (d : Nat) : List Nat := (s.cores d).take c.threads

/-- Whether a core may take threads of a command: it runs no thread of another berth, and no running command of another
berth has threads placed on it (R89). -/
def State.coreOk (s : State) (c : Cmd) (d g : Nat) : Bool :=
  (s.thr.threads.all fun e => coreOfThr e.1 != d * 32 + g || e.2.berth == c.berth) &&
  (s.cmdsOn d).all fun q => q.berth == c.berth || !(s.cmdCores q d).contains g

/-- Free hardware threads of a core, rising. -/
def State.freeThreads (s : State) (d g : Nat) : List Nat := (List.range 16).filter fun i => !NMap.has s.thr.threads (tidOf d g i)

/-- The hardware threads that a command's threads take on a die, in thread order; none where they cannot all be placed. -/
def State.placeDie (s : State) (c : Cmd) (d : Nat) : Option (List Nat) :=
  let cores := s.cores d
  let n := cores.length
  if n = 0 ∨ !(s.cmdCores c d).all (s.coreOk c d) then none
  else
    let free := cores.map fun g => (s.freeThreads d g).map fun i => tidOf d g i
    let ps := (List.range c.threads).map fun i => ((free.getD (i % n) []).drop (i / n)).head?
    if ps.all Option.isSome then some (ps.map fun p => p.getD 0) else none

/-- Whether the engines of a claim are free on a die: no other command that holds the die holds them. -/
def State.enginesFree (s : State) (c : Cmd) (d : Nat) : Bool :=
  (s.cmdsOn d).all fun q => (q.ctx == c.ctx && q.seq == c.seq) || (c.held d).all fun e => !(q.held d).contains e

/-- A claimed engine or a required core that is absent (R138); more threads than the present cores have counts as one. -/
def State.unitMissing (s : State) (c : Cmd) : Bool :=
  c.dies.any fun d => !s.present d || ((bitsOf 16 c.claim).any fun e => (s.engSlot d e).isNone) ||
    decide (c.threads > 16 * (s.cores d).length)

/-! ## The order of ready commands (R139, R157, R339) -/

/-- Whether a ready command is held by a set-all operation (R339). -/
def State.startHeld (s : State) (c : Cmd) : Bool :=
  s.lk.held.contains 255 || s.lk.held.contains c.berth || (s.lk.holdMulti && decide (c.dies.length > 1)) || !s.lk.takes

/-- Whether `q` comes before `c`: priority, then the time at which it became ready. -/
def Cmd.before (q c : Cmd) : Bool :=
  decide (q.prio > c.prio) || (q.prio == c.prio && (decide (q.tReady < c.tReady) ||
    (q.tReady == c.tReady && decide (q.ctx * 2 ^ 64 + q.seq < c.ctx * 2 ^ 64 + c.seq))))

/-- Whether two commands need the same engine or core on a die. -/
def State.collide (s : State) (q c : Cmd) (d : Nat) : Bool :=
  ((q.held d).any fun e => (c.held d).contains e) || (s.cmdCores q d).any fun g => (s.cmdCores c d).contains g

/-- Whether a command that comes first waits for resources that `c` would take, or a multi-die command has reserved one of its
dies. -/
def State.outranked (s : State) (c : Cmd) : Bool :=
  s.lk.cmds.any fun q =>
    !(q.ctx == c.ctx && q.seq == c.seq) &&
    ((decide (q.phase = .ready ∨ q.phase = .preempted ∨ q.phase = .scheduled) && !q.failed && !s.startHeld q && q.before c &&
      c.dies.any fun d => bitAt q.dieMask d && s.collide q c d) ||
     (q.phase == .scheduled && decide (c.prio ≤ q.prio) && c.dies.any fun d => NMap.get? s.lk.resvDies d == some (q.ctx, q.seq)))

/-- Whether a command's resources on a die are free. -/
def State.dieFree (s : State) (c : Cmd) (d : Nat) : Bool := s.enginesFree c d && (s.placeDie c d).isSome

/-! ## The start itself -/

/-- The cupping code of an attempt on a die: the higher of the command's and the floor; 6 cups every tile (R352, R356). -/
def State.cupCode (s : State) (c : Cmd) : Nat :=
  if c.check then 6 else Nat.max (Word.fld (c.word 0) 28 25) (s.lk.cupFloor.getD 0)

/-- What starts with a command on a die: the acquire (R167), empty instruction caches (R93), its programmable counters (R428)
and its first cupped tile (R352). -/
def State.startDie (s : State) (c : Cmd) (d : Nat) : State :=
  let s := s.farInvalidate d 0 allMem
  let s := (s.cmdCores c d).foldl (fun s g => (s.l1Invalidate (d * 32 + g) 0 allMem).icacheDrop (d * 32 + g)) s
  let s := s.modEng fun e => { e with cupFirst := e.cupFirst.filter fun q => q != (d, c.ctx, c.seq) }
  (s.pmcStart d c.berth).trace d { TraceRec.blank 2 with ctx := c.ctx, berth := c.berth, seq := c.seq }

/-- Places a command's threads on a die, rank `k` of its set (R138, R95). -/
def State.startThreads (s : State) (c : Cmd) (d k : Nat) (frozen : Bool) : State :=
  match s.placeDie c d with
  | none => s
  | some ps =>
    let total := c.threads * c.dies.length
    (List.range ps.length).foldl (fun (s : State) i =>
      let t := Thread.start s.thr.nextUid c.berth c.ctx c.seq (k * c.threads + i) total (c.berth == 0) false (c.opcode == 0x11)
        (c.word 2) (c.word 3)
      s.modThr fun x => { x with
        nextUid := x.nextUid + 1
        threads := NMap.put x.threads (ps.getD i 0) { t with frozen := frozen } }) s

/-- Starts a command on its die set: T_START, the latched finishing banks and image, and its threads, which wait for the
pre-scan where there is one (R140, R157). -/
def State.begin (s : State) (c : Cmd) : State :=
  let scan := c.anchorMode != 0
  let twin (q : Cmd) : Bool := q.berth == c.berth && q.phase.holds && !(q.ctx == c.ctx && q.seq == c.seq) &&
    q.dies.any fun d => bitAt c.dieMask d
  let mixed := s.lk.cmds.any twin
  let s := if bitAt c.cflags.toNat 0 ∧ c.replays = 0
    then s.modAccount c.berth fun a => { a with spillWaitNs := a.spillWaitNs + (s.clk.now - c.heldAt) } else s
  let s := s.modLk fun l => { l with
    resvDies := NMap.keep l.resvDies fun _ q => q != (c.ctx, c.seq)
    cmds := l.cmds.map fun q => if twin q then { q with mixed := true } else q }
  let s := s.modCmd c.ctx c.seq fun c => { c with
    phase := if scan then .prescan else .running
    tStart := if c.replays = 0 then s.clk.now else c.tStart
    mixed := c.mixed || mixed
    finBanks := c.dies.map fun d => (d, s.finBank d)
    activeId := s.rfld (dieBase (c.dies.headD 0) + 0x200) 47 32
    cup := c.dies.map fun d => (d, s.cupCode c)
    startCyc := s.cyc (c.dies.headD 0) 4 }
  let s := c.dies.foldl (fun s d => s.startDie c d) s
  (List.range c.dies.length).foldl (fun s k => s.startThreads c (c.dies.getD k 0) k scan) s

/-- The threads of a command go. -/
def State.thaw (s : State) (ctx seq : Nat) : State :=
  (s.modThr fun x => { x with
    threads := NMap.mapV x.threads fun tid t =>
      if t.ctx == ctx && t.seq == seq && !t.handler then
        { t with frozen := s.isRetiring (dieOfThr tid) true (coreOfThr tid % 32) } else t }).modCmd ctx seq fun c =>
    { c with phase := .running }

/-- Completes a ready command that cannot start, with a status (R138, R69). -/
def State.endUnstarted (s : State) (c : Cmd) (st : Status) : State :=
  match s.complete { c with status := st } st s.clk.now (s.clk.now - c.tReady) 0 with
  | (true, s) => (s.modLk fun l => { l with resvDies := NMap.keep l.resvDies fun _ q => q != (c.ctx, c.seq) }).pump c.ctx
  | (false, s) => s

/-- RUN of one die (R138, R139): it starts where its engines are free and its threads can be placed. -/
def execRun (ctx seq : Nat) (s : State) : Out :=
  s.onCmd ctx seq fun c =>
  need (c.opcode == 1 && c.phase == .ready && c.dies.length == 1 && !s.startHeld c) .notPending <|
  if s.unitMissing c then .next (s.endUnstarted c 0x3002)
  else
    need (!s.outranked c && c.dies.all (s.dieFree c)) .notPending (.next ((s.begin c).pump ctx))

/-! ## Multi-die commands (R157, R69) -/

/-- Whether the latched finishing images agree across a set (R69). -/
def State.imagesAgree (s : State) (c : Cmd) : Bool :=
  c.dies.all fun d => s.rfld (dieBase d + 0x200) 47 32 == s.rfld (dieBase (c.dies.headD 0) + 0x200) 47 32

/-- Reserves the dies of a set in ascending order, up to the first whose resources are not free (R157). -/
def State.reserveDies (s : State) (c : Cmd) : List Nat → State
  | [] => s
  | d :: t =>
    if s.dieFree c d ∧ (NMap.getD s.lk.resvDies d (c.ctx, c.seq) = (c.ctx, c.seq)) then
      State.reserveDies (s.modLk fun l => { l with resvDies := NMap.put l.resvDies d (c.ctx, c.seq) }) c t
    else s

/-- MULTI_DIE_SCHEDULE: the check of R69, the reservations, and the start once every die is reserved. -/
def execMultiDieSchedule (ctx seq : Nat) (s : State) : Out :=
  s.onCmd ctx seq fun c =>
  need (c.opcode == 1 && decide (c.phase = .ready ∨ c.phase = .scheduled) && decide (c.dies.length > 1) && !s.startHeld c)
    .notPending <|
  if s.unitMissing c then .next (s.endUnstarted c 0x3002)
  else if c.phase = .ready ∧ !s.imagesAgree c then .next (s.endUnstarted c 0x3001)
  else
    need (!s.outranked c) .notPending <|
    let s := (s.modCmd ctx seq fun c => { c with phase := .scheduled }).reserveDies c c.dies
    .next (if c.dies.all fun d => NMap.get? s.lk.resvDies d == some (ctx, seq) && s.dieFree c d
      then (s.begin c).pump ctx else s)

/-! ## The pre-scan (R41, R135) -/

/-- Reads operand bytes of a command on the general barges of the dies that home them: a status, whether to wait, the bytes. -/
def State.scanRead (s : State) (c : Cmd) (va n : Nat) (u : Upset) : Rd × State :=
  readPieces (fun s a k =>
    match s.translate c.berth (s.activeBank c.berth) a .read false with
    | (.ok ga, s) => s.gaReadSec (if isDram ga then homeOf ga else 0) (reqOf (c.dies.headD 0) (agentOf c.berth)) ga k true u
    | (.fault e, s) => ({ st := causeStatus e, bytes := [], wait := false }, s)
    | (.wait, s) => ({ st := 0, bytes := [], wait := true }, s)) (sectorPieces (n + 1) va n) s

/-- Whether a virtual range of a command touches a guard-mode page (R356). -/
def State.guardRange (s : State) (c : Cmd) (va n : Nat) : Bool :=
  (blockPieces 4096 (n / 4096 + 2) va n).any fun p =>
    match (s.translate c.berth (s.activeBank c.berth) p.1 .read false).1 with
    | .ok ga => (match s.dramAddr 0 ga with | some pa => (s.pot (pa / 0x10000)).guard | none => false)
    | _ => false

/-- The elements of a packed array of 16-bit formats. -/
def elems16 (code : Nat) (bs : List Byte) : List Val := (List.range (bs.length / 2)).map fun i => decodeElem code (rdLE bs (2 * i) 2)

/-- The scale pair term of one operand-list entry (R41, R135). -/
def scanTerm (code tscale : Nat) (bs : List Byte) : Int :=
  if code ≥ 9 then maxElemExp (elems16 code bs)
  else maxScaleExp (if (opFmt code).mx then bs.map BitVec.toNat else [tscale]) + (opFmt code).f

/-- How the pre-scan's reads went: terms of A and B, a failed status and where, or a wait. -/
inductive Scan where
  | ok (a b : List Int)
  | bad (st : Status) (guard : Bool)
  | wait
deriving DecidableEq, Repr

/-- Runs over the operand list (Table 5.7). -/
def State.scanList (c : Cmd) (u : Upset) : List (List Byte) → State → Scan × State
  | [], s => (.ok [] [], s)
  | e :: t, s =>
    let code := rdLE e 17 1
    let va := rdLE e 0 8
    let n := if code = 6 ∨ code = 7 ∨ code = 8 then 0 else rdLE e 8 8
    match s.scanRead c va n u with
    | (rd, s) =>
      if rd.wait then (.wait, s)
      else if rd.st ≠ 0 then (.bad rd.st (s.guardRange c va n), s)
      else match State.scanList c u t s with
        | (.ok a b, s) =>
          let x := scanTerm code (rdLE e 18 1) rd.bytes
          (if rdLE e 16 1 = 0 then .ok (x :: a) b else .ok a (x :: b), s)
        | r => r

/-- The greatest of a list of terms. -/
def maxInt : List Int → Option Int
  | [] => none
  | t :: ts => some (ts.foldl max t)

/-- A failed read of the pre-scan: poison that a repair answers replays the command, any other status fails it. -/
def State.scanFail (s : State) (c : Cmd) (st : Status) (guard : Bool) : State :=
  if st = 0x3707 ∨ (st = 0x3701 ∧ guard ∧ c.replayable) then s.replayCmd c.ctx c.seq st false else s.failCmd c.ctx c.seq st

/-- PRESCAN: the header and the list are read, then the scale arrays, or every BF16 and FP16 element. A list without an A or
a B entry gives no anchor by R135: the anchor is then open (log entry 6). In mode 1 the threads go; in mode 2 the anchor waits
for its group. -/
def execPrescan (ctx seq : Nat) (u : Upset) (s : State) : Out :=
  s.onCmd ctx seq fun c =>
  need (c.phase == .prescan && c.anchor.isNone) .notPending <|
  .next (match s.scanRead c (c.word 3).toNat 64 u with
    | (h, s) =>
      if h.wait then s else if h.st ≠ 0 then s.scanFail c h.st (s.guardRange c (c.word 3).toNat 64)
      else
        let n := Nat.min 4096 (rdLE h.bytes 16 4)
        let list := rdLE h.bytes 8 8
        match s.scanRead c list (32 * n) u with
        | (l, s) =>
          if l.wait then s else if l.st ≠ 0 then s.scanFail c l.st (s.guardRange c list (32 * n))
          else match State.scanList c u (blocksOf 32 n l.bytes) s with
            | (.wait, s) => s
            | (.bad st g, s) => s.scanFail c st g
            | (.ok a b, s) =>
              let (anchor, cl, s) : Int × Bool × State := match maxInt a, maxInt b with
                | some ta, some tb => let r := anchorOf ta tb (rdLE h.bytes 0 8); (r.1, r.2, s)
                | _, _ => (((Config.freeWord s.fresh).toNat % 1024 : Nat) - 512, false, s.drawn 1)
              let s := s.modCmd ctx seq fun c => { c with
                anchor := some anchor, clamped := cl, group := rdLE h.bytes 20 4
                flags := c.flags ||| flagIf cl flagAnchorClamp }
              if c.anchorMode = 1 then s.thaw ctx seq else s)

/-- ANCHOR_GENERATION (R302): the device's anchor joins the group's maximum, which becomes the command's anchor; AGEN counts. -/
def execAnchorGeneration (ctx seq : Nat) (groupMax : Int) (s : State) : Out :=
  s.onCmd ctx seq fun c =>
  need (c.phase == .prescan && c.anchorMode == 2) .notPending <|
  needSome c.anchor .notPending fun a =>
  needSome (NMap.get? s.erh.groups c.group) .notPending fun g =>
  need (bitAt g.flags.toNat 0 && g.berth == c.berth) .notPending <|
  let s := s.modErh fun e => { e with groups := NMap.put e.groups c.group { g with agen := g.agen + 1 } }
  .next ((s.modCmd ctx seq fun c => { c with anchor := some (max a (min groupMax 511)) }).thaw ctx seq)

end Sys2Proof.Machine
end

