-- ==== Sys2Proof/Machine/Blocks.lean ====
section
/-! DEFINITION. Why a context's oldest unstarted entry has not started (Table 18.10), and what passes while no command waits. -/

namespace Sys2Proof.Machine

/-- Whether a command waits to run: it has not started, or it was stopped for a pre-emption or a replay. -/
def Cmd.waits (c : Cmd) : Bool := !c.phase.started || c.phase == .preempted || c.phase == .replayWait || c.phase == .heldRepair

/-- The oldest command of a context that waits. -/
def State.oldest (s : State) (n : Nat) : Option Cmd :=
  (s.lk.cmds.filter fun c => c.ctx == n && c.waits).foldl (fun (best : Option Cmd) c => match best with
    | some b => if c.seq < b.seq then some c else some b
    | none => some c) none

/-- The first wait of a command that is not met: its number. -/
def Cmd.unmet (c : Cmd) : Option Nat := (List.range 4).find? fun k => bitAt (c.ids.getD k 0) 15 && !bitAt c.met.toNat k

/-- BLOCK of a context (Table 18.10). -/
def State.blockOf (s : State) (n : Nat) : Nat := match s.ctx? n with
  | none => 0
  | some x =>
    let full : Nat := if s.inFlight n ≥ 16 then 3 else if !x.slotFree then 4 else 0
    match s.oldest n with
    | none => if x.sqTail ≤ x.sqHead then 0 else if full ≠ 0 then full else if !s.lk.takes then 7 else 0
    | some c => match c.phase with
      | .taken =>
        if c.unmet.isSome then 1
        else if !c.overlap && s.lk.cmds.any (fun q => q.ctx == n && q.seq + 1 == c.seq) then 2
        else full
      | .preempted => 9
      | .replayWait => 8
      | .heldRepair => 8
      | _ => if s.startHeld c then 7 else if bitAt c.cflags.toNat 0 then 6 else 5

/-- The lock-keepers note since when each context's BLOCK has had its value. -/
def State.noteBlocks (s : State) : State :=
  s.modLk fun l => { l with
    blockAt := NMap.mapV l.ctxs fun n _ =>
      match NMap.get? l.blockAt n with
      | some (b, t) => if b = s.blockOf n then (b, t) else (s.blockOf n, s.clk.now)
      | none => (s.blockOf n, s.clk.now) }

/-- What passes in a step with no command waiting: one REFCLK edge, after which the lock-keepers note what waits (log entry 1). -/
def State.idle (s : State) : State := s.tick.noteBlocks

end Sys2Proof.Machine
end

