-- ==== Sys2Proof/Machine/Registers.lean ====
section
/-! DEFINITION. Register writes that have a row of their own, and the moments at which what they start takes effect (R5 to R10,
R68, R87, R178 to R180, R199, R207, R222, R236, R239, R251, R289, R309, R373, R374). Each row writes the bytes that hold its
field through the one register operation, so that reach, access codes and change classes are those of any write. -/

namespace Sys2Proof.Machine

/-- Writes `n` bytes of a value at a register address; a write that its accessor may not reach does nothing (R16, R25). -/
def State.poke (s : State) (src : Accessor) (a n v : Nat) : State := (s.regWrite src a (bytesOf n v)).2

/-- Writes the top byte of a register with a strobe at bit 63, 62 or 61, keeping the RW bits of `keep`. -/
def State.strobe (s : State) (src : Accessor) (a bit keep : Nat) : State :=
  s.poke src (a + 7) 1 (2 ^ (bit - 56) ||| ((s.reg (s.canon a)).toNat / 2 ^ 56 &&& keep))

/-- Goes on for a logical die in service. -/
def State.onDie (s : State) (d : Nat) (k : State) : Out :=
  need (decide (d < 72)) .noSuchUnit <| need (s.present d) .blockDown (.next k)

/-- Goes on for a router that exists. -/
def State.onRouter (s : State) (r : Nat) (k : State) : Out :=
  need (decide (r < 76) || (decide (80 ≤ r) && decide (r < 160))) .noSuchUnit <|
  need (decide (72 ≤ r) || s.present r) .blockDown (.next k)

/-- Goes on for a port that a cut is attached to. -/
def State.onCut (s : State) (r p : Nat) (k : State) : Out :=
  need (decide (p < 10) && s.hasCut r p) .noSuchUnit <| s.onRouter r k

/-! ## Basin maintenance (R199) -/

/-- A write of BASIN_MAINT by Kiltor firmware: OP in [63:60], ALL in [59], SLICE in [58:53]. -/
def State.maintRow (s : State) (die op : Nat) (slice : Option Nat) : Out :=
  need (match slice with | some n => decide (n < 64) | none => true) .noSuchUnit <|
  s.onDie die (s.poke .firmware (dieBase die + 0x3008) 8 (op * 2 ^ 60 + (match slice with
    | some n => n * 2 ^ 53
    | none => 2 ^ 59)))

/-- FLUSH_HOME. -/
def execFlushHome (die : Nat) (slice : Option Nat) (s : State) : Out := s.maintRow die 1 slice
/-- CLEAN_FAR. -/
def execCleanFar (die : Nat) (slice : Option Nat) (s : State) : Out := s.maintRow die 2 slice
/-- FLUSH_HOME and CLEAN_FAR. -/
def execFlushHomeAndCleanFar (die : Nat) (slice : Option Nat) (s : State) : Out := s.maintRow die 3 slice

/-- BASIN_MAINT_DONE: BUSY clears. -/
def execBasinMaintDone (die : Nat) (s : State) : Out :=
  need (NMap.has s.basin.maint die) .notPending <|
  s.onDie die ((s.modBasin fun b => { b with maint := NMap.erase b.maint die }).setRbit (dieBase die + 0x3008) 0 false)

/-! ## Far quotas (R177, R178) -/

/-- FAR_QUOTA_WRITE. -/
def execFarQuotaWrite (src : Accessor) (die slice : Nat) (value : BitVec 64) (s : State) : Out :=
  need (decide (slice < 64)) .noSuchUnit <| s.onDie die (s.poke src (dieBase die + 0x3100 + slice * 8) 8 value.toNat)

/-- Clears the ways of a slice that change part: in each set the oldest lines go until the rest fit. -/
def State.clearWays (s : State) (d slice q : Nat) : State :=
  let far := sortBy (fun e => e.2.age) (s.basin.farLines.filter fun e => keyUnit e.1 == d && chanOf (keyAddr e.1) == slice)
  let s := far.foldl (fun (s : State) e =>
    let l := keyAddr e.1
    if (s.farSet d l).length > q then (s.farEvict d l).dirRemove l d else s) s
  let home := sortBy (fun e => e.2.age) (s.basin.homeLines.filter fun e => homeOf e.1 == d && chanOf e.1 == slice)
  home.foldl (fun (s : State) e =>
    if (s.homeSet e.1).length > 16 - q then (s.drainLine e.1).homeEvict e.1 else s) s

/-- FAR_QUOTA_APPLY. -/
def execFarQuotaApply (die slice : Nat) (s : State) : Out :=
  needSome (NMap.get? s.basin.quotaNew (die * 64 + slice)) .notPending fun q =>
  s.onDie die ((s.clearWays die slice q).quotaApply die slice q)

/-! ## Commits of a die's registers -/

/-- WINDOW_COMMIT. -/
def execWindowCommit (src : Accessor) (die w : Nat) (s : State) : Out :=
  need (decide (w < 16)) .noSuchUnit <| s.onDie die (s.strobe src (dieBase die + 0x4000 + w * 0x40 + 0x18) 63 0)

/-- SPREAD_COMMIT. -/
def execSpreadCommit (src : Accessor) (die set : Nat) (s : State) : Out :=
  need (decide (set < 8)) .noSuchUnit <| s.onDie die (s.strobe src (dieBase die + 0x5000 + set * 0x80 + 0x20) 63 0)

/-- FIN_CTL_COMMIT. -/
def execFinCtlCommit (src : Accessor) (die : Nat) (s : State) : Out := s.onDie die (s.strobe src (dieBase die + 0x200) 63 0)

/-- INJECT: the byte of HOLD_CTL that holds the kind and the engine. -/
def execInject (src : Accessor) (die : Nat) (value : BitVec 64) (s : State) : Out :=
  s.onDie die (s.poke src (dieBase die + 0x211) 1 (Word.fld value 15 8))

/-- DRAM_MGN_START. -/
def execDramMgnStart (src : Accessor) (site : Nat) (s : State) : Out :=
  need (decide (site < 80)) .noSuchUnit (.next (s.strobe src (siteBase site + 0x6000) 63 0))

/-- DRAM_MGN_DONE (R222): the site is not in service, so no device address reaches the data that the step overwrote. -/
def execDramMgnDone (site errs : Nat) (s : State) : Out :=
  need (decide (site < 80) && s.mem.margining.contains site) .notPending <|
  let a := siteBase site + 0x6000
  let s := s.modMem fun m => { m with margining := m.margining.filter (· != site) }
  .next ((s.setRfld (s.canon a) 55 32 (Nat.min errs 0xFFFFFF)).setRbit (s.canon a) 62 false)

/-- CLK_CTL_COMMIT. -/
def execClkCtlCommit (src : Accessor) (die : Nat) (s : State) : Out := s.onDie die (s.strobe src (dieBase die + 0x300) 63 0)

/-- FAB_ECO_WRITE: the byte of CLK_CTL that holds the two economy bits. -/
def execFabEcoWrite (src : Accessor) (die : Nat) (value : BitVec 64) (s : State) : Out :=
  s.onDie die (s.poke src (dieBase die + 0x306) 1 (Word.fld value 55 48))

/-! ## Routers and cuts -/

/-- ROUTE_CTL_COMMIT. -/
def execRouteCtlCommit (src : Accessor) (router : Nat) (s : State) : Out :=
  s.onRouter router (s.strobe src (routerBase router + 0x7600) 63 0)

/-- EPOCH_BROADCAST. -/
def execEpochBroadcast (s : State) : Out := .next s.epochApply

/-- CUT_RETRAIN. -/
def execCutRetrain (src : Accessor) (router p : Nat) (s : State) : Out :=
  s.onCut router p (s.strobe src (cutCtlA router p) 63 0x40)

/-- CUT_FORCE_DOWN. -/
def execCutForceDown (src : Accessor) (router p : Nat) (on : Bool) (s : State) : Out :=
  s.onCut router p (s.poke src (cutCtlA router p + 7) 1 (if on then 0x40 else 0))

/-- CUT_RESTORE. -/
def execCutRestore (src : Accessor) (router p : Nat) (s : State) : Out :=
  s.onCut router p (s.strobe src (cutCtlA router p) 61 0x40)

/-! ## Gatehouse registers -/

/-- BMAP_ROOT_WRITE. -/
def execBmapRootWrite (src : Accessor) (berth bank : Nat) (value : BitVec 64) (s : State) : Out :=
  need (decide (berth < 255) && decide (bank < 2)) .noSuchUnit (.next (s.poke src (bmapBase berth + bank * 8) 8 value.toNat))

/-- BMAP_COMMIT. -/
def execBmapCommit (src : Accessor) (berth : Nat) (s : State) : Out :=
  need (decide (berth < 255)) .noSuchUnit (.next (s.strobe src (bmapBase berth + 0x10) 63 0))

/-- ERH_RCTL_COMMIT. -/
def execErhRctlCommit (src : Accessor) (s : State) : Out := .next (s.strobe src erhRctlA 63 0)

/-- ERH_RETRAIN. -/
def execErhRetrain (src : Accessor) (port : Nat) (s : State) : Out :=
  need (decide (port < 36)) .noSuchUnit (.next (s.strobe src (erhCtlA port) 63 0x50))

/-- ERH_FORCE_DOWN. -/
def execErhForceDown (src : Accessor) (port : Nat) (on : Bool) (s : State) : Out :=
  need (decide (port < 36)) .noSuchUnit <|
  .next (s.poke src (erhCtlA port + 7) 1 ((if on then 0x40 else 0) ||| ((s.reg (erhCtlA port)).toNat / 2 ^ 56 &&& 0x10)))

/-- ERH_RESTORE. -/
def execErhRestore (src : Accessor) (port : Nat) (s : State) : Out :=
  need (decide (port < 36)) .noSuchUnit (.next (s.strobe src (erhCtlA port) 61 0x50))

/-- REGISTER_WRITE (R6). -/
def execRegisterWrite (src : Accessor) (addr bytes : Nat) (value : BitVec 64) (s : State) : Out :=
  need (isReg addr && decide (1 ≤ bytes) && decide (bytes ≤ 8)) .noSuchUnit (.next (s.poke src addr bytes value.toNat))

end Sys2Proof.Machine
end

