-- ==== Sys2Proof/Machine/Protocol.lean ====
section
/-! DEFINITION. The messages of the basin protocol (Tables 7.5 to 7.7, R183 to R200): requests received at a home, forwards and
invalidations received at a holder, answers received at the home and at the requester. -/

namespace Sys2Proof.Machine

/-- Goes on for a request at the home of a line of DRAM. -/
def State.atHome (s : State) (req : Req) (line : Nat) (k : Out) : Out :=
  need (isDram line && line % 128 == 0 && (decide (req.node < 74) || (decide (76 ≤ req.node) && decide (req.node < 80))))
    .noSuchUnit <|
  need (s.present (homeOf line)) .blockDown k

/-- Goes on for a die and a line. -/
def State.atDie (s : State) (die line : Nat) (k : Out) : Out :=
  need (decide (die < 72) && decide (line % 128 = 0)) .noSuchUnit <| need (s.present die) .blockDown k

/-- Sends an answer to a die; one for the host or a gatehouse leaves the panel. -/
def State.reply (s : State) (m : Msg) : State := if m.dst < 72 then s.send m else s

/-- A directory entry whose parity fails as it is looked up is rebuilt, and the request is NACKed (R191). -/
def State.parityGate (s : State) (req : Req) (line : Nat) (u : Upset) (k : State) : State :=
  if u.dirParity && NMap.has s.basin.dir line then (s.dirRebuild line).nackTo line req.node else k

/-- Reads the named sectors of a line for an answer: their bytes, poisoned sectors, and the first status that is no poison; or
that a holder or the stack must answer first. -/
def State.readSecs (s : State) (req : Req) (line : Nat) (secs : BitVec 4) (alloc : Bool) (u : Upset) :
    Rd × List (Nat × Byte) × List Nat × State :=
  ((List.range 4).filter fun k => bitAt secs.toNat k).foldl
    (fun (a : Rd × List (Nat × Byte) × List Nat × State) k =>
      if a.1.wait ∨ a.1.st ≠ 0 then a
      else
        let (rd, s) := a.2.2.2.homeRead req (line + 32 * k) (List.range 32) alloc u
        let pz := rd.st = 0x3701 ∨ rd.st = 0x3707
        ({ rd with st := if pz then 0 else rd.st }, a.2.1 ++ ((List.range 32).map fun i => (32 * k + i, byteAt rd.bytes i)),
         if pz then a.2.2.1 ++ [k] else a.2.2.1, s))
    ({ st := 0, bytes := [], wait := false }, [], [], s)

/-- Answers an untracked read or a Look: data, a refusal, or a NACK while a holder answers; a read that meets STOP is held. -/
def State.homeRdU (s : State) (req : Req) (line : Nat) (secs : BitVec 4) (alloc : Bool) (u : Upset) : State :=
  let (rd, bs, pz, s) := (s.attrCheck req line).readSecs req line secs alloc u
  if rd.wait then
    if rd.st = 0x3301 then s.modMem fun m => { m with
      stopReads := m.stopReads ++ [{ die := homeOf line, node := req.node, tid := 0, uid := 0, ticket := 0, sector := line
                                     since := s.clk.now }] }
    else s.reply (Msg.bare .nack req.node (homeOf line) line)
  else if rd.st ≠ 0 then s.reply { Msg.bare .err req.node (homeOf line) line with status := rd.st }
  else s.reply { Msg.bare .dataU req.node (homeOf line) line with
    bytes := bs, poison := pz, fwdTo := if alloc then 0 else 1, status := if pz = [] then 0 else 0x3701 }

/-! ## Requests at the home -/

/-- RD_U (R183). -/
def execRdU (req : Req) (line : Nat) (secs : BitVec 4) (u : Upset) (s : State) : Out :=
  s.atHome req line (.next (s.parityGate req line u (s.homeRdU req line secs true u)))

/-- LOOK (R192): nothing is allocated. -/
def execLook (req : Req) (line : Nat) (secs : BitVec 4) (u : Upset) (s : State) : Out :=
  s.atHome req line (.next (s.parityGate req line u (s.homeRdU req line secs false u)))

/-- Whether a die's request has been tried often enough to carry STARVE (R188). -/
def State.isStarving (s : State) (node line : Nat) : Bool := match s.pend? node line with
  | some p => decide (4 ≤ p.tries)
  | none => false

/-- RD_S (Table 7.5). -/
def execRdS (req : Req) (line : Nat) (starve : Bool) (u : Upset) (s : State) : Out :=
  s.atHome req line <| need (decide (req.node < 72)) .noSuchUnit <|
  .next (s.parityGate req line u (s.homeRdS req line (starve || s.isStarving req.node line) u))

/-- RD_X (Table 7.5). -/
def execRdX (req : Req) (line : Nat) (starve : Bool) (u : Upset) (s : State) : Out :=
  s.atHome req line <| need (decide (req.node < 72)) .noSuchUnit <|
  .next (s.parityGate req line u (s.homeRdX req line false (starve || s.isStarving req.node line) u))

/-- UPG (Table 7.5). -/
def execUpg (req : Req) (line : Nat) (starve : Bool) (s : State) : Out :=
  s.atHome req line <| need (decide (req.node < 72)) .noSuchUnit <|
  .next (s.homeRdX req line true (starve || s.isStarving req.node line) {})

/-- AT_N (R193): the old value answers. -/
def execAtN (req : Req) (pa : Nat) (op : AmoOp) (width : AmoWidth) (operand comparand : BitVec 128) (u : Upset) (s : State) :
    Out :=
  let line := lineOf pa
  let n := amoBytes width
  s.atHome req line <| need (pa % n == 0) .noSuchUnit <|
  .next <| s.parityGate req line u <|
    let (st, w, old, s) := (s.attrCheck req line).nearAtomic req pa op width operand.toNat comparand.toNat u
    if w then s.reply (Msg.bare .nack req.node (homeOf line) line)
    else if st ≠ 0 then s.reply { Msg.bare .err req.node (homeOf line) line with status := st }
    else s.reply { Msg.bare .dataU req.node (homeOf line) line with
      fwdTo := 2, bytes := (List.range n).map fun i => (pa % 128 + i, byteAt (bytesOf n old) i) }

/-- Bytes of sector `k` of a line, by offset in the sector. -/
def secBytes (bytes : List (Nat × Byte)) (k : Nat) : List (Nat × Byte) :=
  (bytes.filter fun p => p.1 / 32 == k).map fun p => (p.1 % 32, p.2)

/-- The sectors of a reduction update at the home, in order: the first failure's status, whether a holder must answer first. -/
def State.redSecs (s : State) (req : Req) (line : Nat) (bytes : List (Nat × Byte)) : Status × Bool × State :=
  (List.range 4).foldl (fun (a : Status × Bool × State) k =>
    let bs := secBytes bytes k
    if bs = [] ∨ a.2.1 then a
    else
      let (st, w, s) := a.2.2.homeWrite req req.ctx 0 (line + 32 * k) bs false
      (if a.1 = 0 then st else a.1, w, s)) (0, false, s)

/-- RED_U (R196, R197): queued at the slice, under the home's attributes (R181); a full queue NACKs, an element that is not
covered whole is refused with 0x2203. -/
def execRedU (req : Req) (line redOp : Nat) (bytes : List (Nat × BitVec 8)) (s : State) : Out :=
  s.atHome req line <| need (bytes.all fun p => decide (p.1 < 128)) .noSuchUnit <|
  .next <|
    let s := s.attrCheck { req with redOp := redOp } line
    let d := homeOf line
    let full := decide ((s.basin.updq.filter fun q => q.die == d && q.slice == chanOf line).length ≥ 64)
    if s.redOpAt line ≠ 0 ∧ full then s.reply (Msg.bare .nack req.node d line)
    else
      let (st, w, s) := s.redSecs req line bytes
      if w then s.reply (Msg.bare .nack req.node d line)
      else if st ≠ 0 then s.reply { Msg.bare .err req.node d line with status := st }
      else s

/-- SPD (R200). -/
def execSpd (req : Req) (line : Nat) (secs : BitVec 4) (s : State) : Out :=
  s.atHome req line <| .next <|
    if s.ownCheck req (s.pot (line / 0x10000)) true ≠ .allow then
      s.reply { Msg.bare .err req.node (homeOf line) line with status := 0x4104 }
    else ((List.range 4).filter fun k => bitAt secs.toNat k).foldl (fun s k => s.spdSector (line + 32 * k)) s

/-- WB_U (R183): merged byte by byte; a write-back is always taken, so a copy that the host holds is snooped meanwhile. -/
def execWbU (req : Req) (line : Nat) (bytes : List (Nat × BitVec 8)) (s : State) : Out :=
  s.atHome req line <| need (bytes.all fun p => decide (p.1 < 128)) .noSuchUnit <|
  .next <|
    if s.ownCheck req (s.pot (line / 0x10000)) true ≠ .allow then
      s.reply { Msg.bare .err req.node (homeOf line) line with status := 0x4104 }
    else
      let s := (s.attrCheck req line).drainLine line
      let (_, s) := s.recall line req
      (s.breakResv line).mergeLine line bytes []

/-! ## Owners' write-backs -/

/-- An owner's write-back reaches the home: its dirty bytes, and the line itself unless it is kept. -/
def State.ownerBack (s : State) (die line : Nat) (keep : Bool) : State :=
  let (bs, dirty) := s.farLine die line
  let pz := s.farPz die line
  let s := if keep then s.farMarkClean die line else s.farDrop die line
  s.homeWb die line (bs.filter fun p => dirty.contains p.1) pz keep

/-- WB_D (R186). -/
def execWbD (die line : Nat) (s : State) : Out :=
  s.atDie die line <| need (isDram line && s.farOwned die line) .notInFlight (.next (s.ownerBack die line false))

/-- WB_K (R186). -/
def execWbK (die line : Nat) (s : State) : Out :=
  s.atDie die line <| need (isDram line && s.farOwned die line) .notInFlight (.next (s.ownerBack die line true))

/-! ## At a holder -/

/-- Holds a message until the die's own access has been performed (Table 7.7). -/
def State.holdMsg (s : State) (die line : Nat) (m : Msg) : State := s.modPend die line fun p => { p with held := p.held ++ [m] }

/-- Whether data for the die's own request of a line is on its way. -/
def State.dataComing (s : State) (die line : Nat) : Bool :=
  (s.msg? .dataS die line).isSome || (s.msg? .dataX die line).isSome || (s.msg? .gntX die line).isSome

/-- INV (R190): held while a DataS is in flight. -/
def execInv (die line : Nat) (s : State) : Out :=
  s.atDie die line <| needSome (s.msg? .inv die line) .notInFlight fun m =>
  .next <|
    let s := s.dropMsg m
    if (s.pend? die line).isSome && s.dataComing die line then s.holdMsg die line m else s.serveInv die line

/-- A forward or a snoop at a die: held while the die awaits its own ownership of the line. -/
def State.fwdAt (s : State) (die line : Nat) (kind : MsgKind) : Out :=
  s.atDie die line <| needSome (s.msg? kind die line) .notInFlight fun m =>
  .next <|
    let s := s.dropMsg m
    let awaits := match s.pend? die line with | some p => p.kind == 1 || p.kind == 2 | none => false
    if awaits && !s.farOwned die line && kind != .snpCur then s.holdMsg die line m else s.serveFwd die m

/-- FWD_S (R189). -/
def execFwdS (die line : Nat) (s : State) : Out := s.fwdAt die line .fwdS
/-- FWD_X (R189). -/
def execFwdX (die line : Nat) (s : State) : Out := s.fwdAt die line .fwdX
/-- SNP_CUR (R192). -/
def execSnpCur (die line : Nat) (s : State) : Out := s.fwdAt die line .snpCur

/-! ## Answers at the home -/

/-- INV_ACK (R186). -/
def execInvAck (die line : Nat) (s : State) : Out :=
  s.atDie die line <| needSome (s.msgFrom? .invAck die line) .notInFlight fun m =>
  .next ((s.dropMsg m).answer line die [] [] false false)

/-- FWD_ACK (R189): of a rebuilding entry, the answer to SnpCur brings bytes only; InvAck follows (R191). -/
def execFwdAck (die line : Nat) (s : State) : Out :=
  s.atDie die line <| needSome (s.msgFrom? .fwdAck die line) .notInFlight fun m =>
  .next <|
    let s := s.dropMsg m
    let rebuild := match (NMap.get? s.basin.dir line).bind (·.txn) with | some t => t.kind == 4 | none => false
    if rebuild then s.mergeLine line m.bytes m.poison else s.answer line die m.bytes m.poison (m.fwdTo == 1) true

/-! ## At the requester -/

/-- DATA_U (R183): kept clean in the far part; the answer of a Look or of an atomic is not kept. -/
def execDataU (die line : Nat) (s : State) : Out :=
  s.atDie die line <| needSome (s.msg? .dataU die line) .notInFlight fun m =>
  .next <|
    let s := s.dropMsg m
    if m.fwdTo ≠ 0 ∨ homeOf line = die then s
    else
      let (al, s) := s.farAlloc die line
      if !al then s
      else (List.range 4).foldl (fun (s : State) k =>
        let bs := secBytes m.bytes k
        if bs = [] then s else s.farFill die (line + 32 * k) (bs.map (·.2)) (m.poison.contains k)) s

/-- The waiting access of a die goes on with its line in hand; what was held back is served after it (Table 7.7). A line that no
way takes goes once the access is performed (R182). -/
def State.served (s : State) (die line : Nat) (keep : Bool) : State :=
  match s.pend? die line with
  | none => s
  | some p =>
    let s := (s.dropPend die line).performAccess p.tid p.uid p.access
    let s := s.serveHeld die p.held
    if keep then s else (s.farEvict die line).dirRemove line die

/-- Data of a tracked or leased line arrives (R186). -/
def State.dataAt (s : State) (die line : Nat) (kind : MsgKind) (own : Bool) : Out :=
  s.atDie die line <| needSome (s.msg? kind die line) .notInFlight fun m =>
  .next <|
    let (al, s) := (s.dropMsg m).install die m own
    s.served die line al

/-- DATA_S. -/
def execDataS (die line : Nat) (s : State) : Out := s.dataAt die line .dataS false
/-- DATA_X. -/
def execDataX (die line : Nat) (s : State) : Out := s.dataAt die line .dataX true

/-- GNT_X (R186): a die that has dropped its shared copy meanwhile asks for the data. -/
def execGntX (die line : Nat) (s : State) : Out :=
  s.atDie die line <| needSome (s.msg? .gntX die line) .notInFlight fun m =>
  .next <|
    let s := s.dropMsg m
    if NMap.has s.basin.farLines (heldKey die line) then (s.setOwned die line true).served die line true
    else s.modPend die line fun p => { p with kind := 1, nacked := true, retryAt := s.clk.now }

/-- WB_ACK (Table 7.7). -/
def execWbAck (die line : Nat) (s : State) : Out :=
  s.atDie die line <| needSome (s.msg? .wbAck die line) .notInFlight fun m => .next (s.dropMsg m)

/-- NACK (R188): a retry after 16 × 2^min(n, 6) ns and 0 to 15 ns of jitter, where n is the retry count. -/
def execNack (die line jitter : Nat) (s : State) : Out :=
  s.atDie die line <| needSome (s.msg? .nack die line) .notInFlight fun m =>
  .next ((s.dropMsg m).modPend die line fun p =>
    { p with nacked := true, retryAt := s.clk.now + 16 * 2 ^ Nat.min p.tries 6 + jitter % 16, tries := p.tries + 1 })

/-- NACK_RETRY (R188): the request goes out again. -/
def execNackRetry (die line : Nat) (s : State) : Out :=
  s.atDie die line <| needSome (s.pend? die line) .notPending fun p =>
  need (p.nacked && decide (p.retryAt ≤ s.clk.now)) .notArmed (.next (s.modPend die line fun p => { p with nacked := false }))

/-- The virtual address that an access in progress names. -/
def Access.va : Access → Nat
  | .load _ va _ _ => va
  | .store _ va _ => va
  | .amo _ _ _ va _ _ _ => va
  | .fetch => 0

/-- ERR (R186): the waiting access fails with the status. -/
def execErr (die line : Nat) (s : State) : Out :=
  s.atDie die line <| needSome (s.msg? .err die line) .notInFlight fun m =>
  .next <|
    let s := s.dropMsg m
    match s.pend? die line with
    | none => s
    | some p => ((s.dropPend die line).failAccess p.tid p.uid p.access.va m.status).serveHeld die p.held

end Sys2Proof.Machine
end

