-- ==== Sys2Proof/Machine/Convoy.lean ====
section
/-! DEFINITION. Convoys (R256 to R269, Table 10.5, Table 10.7): the roll, the make-up of a step's batch, its manifest, and what a
step's end does to the passages. -/

namespace Sys2Proof.Machine

/-- Changes a passage of the roll. -/
def State.modPsg (s : State) (idx : Nat) (f : Passage → Passage) : State :=
  s.modBth fun b => { b with roll := b.roll.map fun p => if p.idx == idx then f p else p }

/-- A passage of the roll. -/
def State.psg? (s : State) (idx : Nat) : Option Passage := s.bth.roll.find? fun p => p.idx == idx

/-- The moorings of a berth's pool that are out of it, leaked ones apart. -/
def Berth.outMoor (e : Berth) : List Nat := match e.pool with
  | some p => p.all.filter fun a => !p.free.contains a && !e.moorLeak.contains a
  | none => []

/-- Free moorings of a berth. -/
def State.poolFree (s : State) (b : Nat) : Nat := match (s.berth? b).bind (·.pool) with | some p => p.free.length | none => 0

/-! ## Passages that end (R265, R266) -/

/-- Completes an ended passage: the token count at OUT, then its record and signal. False where a write must wait. -/
def State.endPassage (s : State) (p : Passage) (st : Status) : Bool × State :=
  match s.cmd? p.ctx p.seq with
  | none => (true, s.modBth fun b => { b with roll := b.roll.filter fun q => q.idx != p.idx })
  | some c =>
    let (_, w, s) := if p.joined then s.paWrite (.berth p.berth) p.outPa (bytesOf 8 p.made) else (0, false, s)
    if w then (false, s)
    else
      let c := { c with tStart := if p.joined then c.tStart else s.clk.now }
      let (ok, s) := s.complete { c with status := st } st c.tStart (if p.joined then c.tStart - c.tReady else 0) 0
      if ok then (true, (s.modBth fun b => { b with roll := b.roll.filter fun q => q.idx != p.idx }).pump p.ctx) else (false, s)

/-- Counts the moorings of a berth that passages which left did not push (R265): those out of the pool beyond what the
passages that stay hold. -/
def State.leakCheck (s : State) (b : Nat) : State := match s.berth? b with
  | none => s
  | some e =>
    let held := sumNat ((s.bth.roll.filter fun p => p.berth == b && p.joined && !p.ended).map (·.held))
    let m := e.outMoor.length - held
    if m = 0 then s
    else
      ((s.modBerth b fun e => { e with moorLeak := e.moorLeak ++ e.outMoor.take m }).gcnt 0 13 m).modBth fun x =>
        { x with moorLeak := x.moorLeak + m }

/-- Step 1 of a make-up: passages that ended leave, with their records. -/
def State.leave (s : State) : State :=
  let gone := s.bth.roll.filter fun p => p.ended
  let s := gone.foldl (fun (s : State) p => (s.endPassage p p.status).2) s
  (sortNat (gone.map (·.berth))).foldl State.leakCheck s

/-! ## Make-up (R260 to R264) -/

/-- Work of a make-up: free moorings by berth, and the passages with rows as (index, rows, reservation), the joining ones, and
those set aside. -/
structure MakeUp where
  avail : NMap Nat
  rows : List (Nat × Nat × Nat)
  joins : List Nat
  aside : List Nat
deriving DecidableEq, Repr

/-- Rows formed so far. -/
def MakeUp.count (m : MakeUp) : Nat := sumNat (m.rows.map fun r => r.2.1)

/-- `moor_need` of R260. -/
def moorNeed (reg : ConvoyReg) (tokens : Nat) : Nat := reg.scratch + (tokens + reg.tpm - 1) / reg.tpm

/-- Rows that a continuing passage offers: its next input rows, or one decode row. -/
def Passage.next (p : Passage) (chunk : Nat) : Nat := if p.pos < p.inLen then Nat.min (p.inLen - p.pos) chunk else 1

/-- Gives a passage `n` rows and `d` moorings. -/
def MakeUp.give (m : MakeUp) (p : Passage) (n d : Nat) : MakeUp :=
  { m with avail := NMap.put m.avail p.berth (NMap.getD m.avail p.berth 0 - d), rows := m.rows ++ [(p.idx, n, d)] }

/-- Sets a passage aside: its rows go and its reservation is released. -/
def State.setAside (s : State) (m : MakeUp) (idx : Nat) : MakeUp :=
  match m.rows.find? (·.1 == idx), s.psg? idx with
  | some r, some p => { m with
      avail := NMap.put m.avail p.berth (NMap.getD m.avail p.berth 0 + r.2.2)
      rows := m.rows.filter (·.1 != idx), aside := m.aside ++ [idx] }
  | _, _ => { m with aside := m.aside ++ [idx] }

/-- The moorings of a passage that GROW_POLICY 1 ends go back to its pool at once (R264); which of those that are out they are
is open (log entry 6). -/
def State.returnMoor (s : State) (p : Passage) : State :=
  let k := (Config.freeWord s.fresh).toNat
  (s.drawn 1).modBerth p.berth fun e =>
    let out := e.outMoor
    let back := ((out.drop (k % Nat.max 1 out.length)) ++ out).take (Nat.min p.held out.length)
    { e with pool := e.pool.map fun q => { q with free := back ++ q.free } }

/-- Growth of one continuing passage (R260 step 2, R264); `fuel` bounds the passages that policy 1 can end. -/
def State.grow (reg : ConvoyReg) (rowMax chunk : Nat) : Nat → State → MakeUp → Nat → MakeUp × State
  | 0, s, m, _ => (m, s)
  | fuel + 1, s, m, idx => match s.psg? idx with
    | none => (m, s)
    | some p =>
      let n := p.next chunk
      let d := moorNeed reg (p.pos + n) - p.held
      if p.ended then (m, s)
      else if d > NMap.getD m.avail p.berth 0 then
        let policy := match s.berth? p.berth with | some e => e.growPolicy | none => 0
        if policy = 0 then (s.setAside m idx, s)
        else
          let mine := s.bth.roll.filter fun q => q.berth == p.berth && q.joined && !q.ended
          match (sortBy (·.order) mine).reverse.head? with
          | none => (m, s)
          | some q =>
            let m := match m.rows.find? (·.1 == q.idx) with
              | some r => { m with
                  avail := NMap.put m.avail q.berth (NMap.getD m.avail q.berth 0 + r.2.2), rows := m.rows.filter (·.1 != q.idx) }
              | none => m
            let m := { m with avail := NMap.put m.avail q.berth (NMap.getD m.avail q.berth 0 + q.held) }
            let s := (s.returnMoor q).modPsg q.idx fun q => { q with ended := true, status := 0x2401, held := 0 }
            let s := ((s.psg? q.idx).map fun q => (s.endPassage q 0x2401).2).getD s
            State.grow reg rowMax chunk fuel s m idx
      else if m.count + n > rowMax then (s.setAside m idx, s)
      else (m.give p n d, s)

/-- Waiting passages in the order in which they are offered to join (R262). -/
def State.joinOrder (s : State) : List Passage :=
  let wait := s.bth.roll.filter fun p => !p.joined && !p.ended &&
    (match s.cmd? p.ctx p.seq with | some c => c.phase == .roll | none => false)
  let turn (p : Passage) : Nat :=
    (wait.filter fun q => q.prio == p.prio && q.berth == p.berth && decide (q.order < p.order)).length
  sortBy (fun p => ((7 - p.prio) * 2 ^ 20 + turn p) * 256 + (p.berth + 255 - (s.bth.rr + 1) % 256) % 256) wait

/-- Rows of continuing passages below a priority that are set aside so that a join fits (R262): lowest priority and youngest
first; none where all of them would not do. -/
def State.asideFor (s : State) (m : MakeUp) (prio need : Nat) : Option MakeUp :=
  let low := sortBy (fun p => p.prio * 2 ^ 40 + (2 ^ 40 - 1 - p.order)) ((m.rows.filter fun r => !m.joins.contains r.1).filterMap fun r =>
    (s.psg? r.1).bind fun p => if p.prio < prio then some p else none)
  let out := low.foldl (fun (a : MakeUp × Nat) p =>
    if a.2 ≥ need then a
    else (s.setAside a.1 p.idx, a.2 + (((m.rows.find? (·.1 == p.idx)).map fun r => r.2.1).getD 0))) (m, 0)
  if out.2 ≥ need then some out.1 else none

/-- Offers one waiting passage a join (R260 step 3, R261). -/
def State.offer (s : State) (reg : ConvoyReg) (rowMax chunk : Nat) (m : MakeUp) (p : Passage) : MakeUp :=
  let n := Nat.min p.inLen chunk
  let d := moorNeed reg n
  let cap := match s.berth? p.berth with | some e => e.rowCap | none => 0
  let mine := sumNat (m.rows.map fun r => match s.psg? r.1 with | some q => if q.berth = p.berth then r.2.1 else 0 | none => 0)
  let join (m : MakeUp) : MakeUp := let m := m.give p n d; { m with joins := m.joins ++ [p.idx] }
  if mine + n > cap ∨ d > NMap.getD m.avail p.berth 0 then m
  else if m.count + n ≤ rowMax then join m
  else match s.asideFor m p.prio (m.count + n - rowMax) with
    | some m => join m
    | none => m

/-- The make-up of a step, after the leaving passages. -/
def State.makeUp (s : State) (reg : ConvoyReg) (rowMax chunk : Nat) : MakeUp × State :=
  let avail := s.bth.berths.filterMap fun e => if e.2.kind = 1 then some (e.1, s.poolFree e.1) else none
  let cont := sortBy (fun p => p.berth * 2 ^ 64 + p.order) (s.bth.roll.filter fun p => p.joined && !p.ended)
  let (m, s) := cont.foldl (fun (a : MakeUp × State) p => State.grow reg rowMax chunk (cont.length + 1) a.2 a.1 p.idx)
    ({ avail := avail, rows := [], joins := [], aside := [] }, s)
  (s.joinOrder.foldl (s.offer reg rowMax chunk) m, s)

/-! ## The manifest (Table 10.5) -/

/-- The rows of one passage: (position, kind, input address, output address). -/
def Passage.rowList (p : Passage) (n : Nat) : List (Nat × Nat × Nat × Nat) :=
  let out := p.outPa + 8 + 4 * p.made
  if p.pos < p.inLen then
    (List.range n).map fun i =>
      let last := p.pos + i + 1 == p.inLen
      (p.pos + i, if last then 2 else 1, p.inPa + 4 * (p.pos + i), if last then out else 0)
  else [(p.pos, 0, p.outPa + 4 + 4 * p.made, out)]

/-- The bytes of a manifest. -/
def State.manifest (s : State) (m : MakeUp) : List Byte :=
  let ps := sortBy (fun q => q.1.berth * 2 ^ 64 + q.1.order) (m.rows.filterMap fun r => (s.psg? r.1).map fun p => (p, r.2))
  let body := ps.map fun q =>
    let rs := q.1.rowList q.2.1
    (List.range rs.length).map fun i =>
      let r := rs.getD i (0, 0, 0, 0)
      bytesOf 4 r.1 ++ bytesOf 1 q.1.berth ++ bytesOf 1 r.2.1 ++ bytesOf 2 0 ++ bytesOf 8 r.2.2.1 ++ bytesOf 8 r.2.2.2 ++
      bytesOf 4 (if i = 0 then q.2.2 else 0) ++ bytesOf 4 q.1.idx
  bytesOf 8 (s.bth.stepNo + 1) ++ bytesOf 4 m.count ++ bytesOf 4 m.rows.length ++ bytesOf 4 m.joins.length ++
  bytesOf 4 m.aside.length ++ bytesOf 8 s.clk.now ++ bytesOf 32 0 ++ (body.map List.flatten).flatten

/-- What a formed batch does: reservations, joins and set-asides, and the step's row list. -/
def State.takeBatch (s : State) (c : Cmd) (m : MakeUp) : State :=
  let s := m.rows.foldl (fun (s : State) r =>
    let b := ((s.psg? r.1).map (·.berth)).getD 0
    (s.modPsg r.1 fun p => { p with held := p.held + r.2.2, joined := true }).modBth fun x => { x with
      resv := NMap.put x.resv b (NMap.getD x.resv b 0 + r.2.2) }) (s.modBth fun x => { x with resv := [] })
  let s := m.joins.foldl (fun (s : State) i => match s.psg? i with
    | some p => (s.modCmd p.ctx p.seq fun q => { q with tStart := s.clk.now }).modBth fun x => { x with rr := p.berth }
    | none => s) s
  let s := m.aside.foldl (fun (s : State) i => s.modPsg i fun p => { p with asideAt := some s.clk.now }) s
  (s.modBth fun x => { x with stepNo := x.stepNo + 1 }).modCmd c.ctx c.seq fun q => { q with
    stepRows := (sortBy (fun r => match s.psg? r.1 with | some p => p.berth * 2 ^ 64 + p.order | none => 0) m.rows).map
      fun r => (r.1, r.2.1) }

/-- CONVOY_STEP (R257): leaving passages, the batch, the manifest and the start. No row completes the step with 0x5401; a
manifest that the home refuses ends it with that status and no batch. -/
def execConvoyStep (ctx seq : Nat) (s : State) : Out :=
  s.onCmd ctx seq fun c =>
  need (c.opcode == 0x11 && c.phase == .ready && !s.startHeld c &&
    !(s.lk.cmds.any fun q => q.ctx == ctx && q.opcode == 0x11 && q.phase.started)) .notPending <|
  needSome s.bth.convoy .notPending fun reg =>
  if s.unitMissing c then .next (s.endUnstarted c 0x3002)
  else if !s.imagesAgree c then .next (s.endUnstarted c 0x3001)
  else
    need (!s.outranked c && c.dies.all (s.dieFree c)) .notPending <|
    .next (
      let s := s.leave
      let (m, s1) := s.makeUp reg (Word.fld (c.word 14) 15 0) (Word.fld (c.word 14) 31 16)
      if m.rows = [] then s1.endUnstarted c 0x5401
      else
        let (st, w, s2) := s1.paWrite .operator (c.word 13).toNat (s1.manifest m)
        if w then s2
        else if st ≠ 0 then s2.endUnstarted c st
        else
          let s3 := s2.takeBatch c m
          match s3.cmd? ctx seq with
          | some c => (s3.begin c).pump ctx
          | none => s3)

/-! ## The end of a step -/

/-- RESULT bytes of a step's manifest for its passages: the last row of each. Read as the operator. -/
def State.stepResult (s : State) (c : Cmd) (row : Nat) : Nat :=
  let (rd, _) := s.paRead .operator ((c.word 13).toNat + 64 + 32 * row + 6) 1
  if rd.st = 0 ∧ !rd.wait then ofBytes rd.bytes else 0

/-- What a step's end does to one passage with `n` rows, the last of them row `last` of the manifest. -/
def State.stepPassage (s : State) (c : Cmd) (ok : Bool) (total idx n last : Nat) : State :=
  match s.psg? idx with
  | none => s
  | some p =>
    let span := s.clk.now - c.tStart
    let credit := c.energyNJ / 1000 * n / total
    let s := s.modCmd p.ctx p.seq fun q => { q with energyNJ := q.energyNJ + credit * 1000 }
    let s := s.modAccount p.berth fun a => { a with convoyRows := a.convoyRows + n }
    if p.ended then s
    else if ok then
      let pos := p.pos + n
      let made := if pos ≥ p.inLen then p.made + 1 else p.made
      let fin := decide (pos ≥ p.inLen) && (s.stepResult c last != 0 || decide (made ≥ p.maxNew))
      s.modPsg idx fun p => { p with pos := pos, made := made, failedSteps := 0, ended := fin }
    else
      let f := p.failedSteps + 1
      let s := s.modCmd p.ctx p.seq fun q => { q with preempts := q.preempts + 1, preemptedNs := q.preemptedNs + span }
      s.modPsg idx fun p => { p with failedSteps := f, ended := decide (f ≥ 3), status := if f ≥ 3 then 0x3401 else p.status }

/-- The end of a CONVOY_STEP with a status (R263, R265, R267, R269, Table 10.7). -/
def State.stepDone (s : State) (c : Cmd) (st : Status) : State :=
  let ok := statusClass st ≤ 1
  let total := sumNat (c.stepRows.map (·.2))
  let (_, s) := c.stepRows.foldl (fun (a : Nat × State) r =>
    (a.1 + r.2, a.2.stepPassage c ok total r.1 r.2 (a.1 + r.2 - 1))) (0, s)
  let credited := sumNat (c.stepRows.map fun r => c.energyNJ / 1000 * r.2 / total)
  let s := s.modBth fun x => { x with
    resv := []
    opAccount := { x.opAccount with energyUJ := x.opAccount.energyUJ + (c.energyNJ / 1000 - credited) } }
  (s.bth.roll.filter fun p => p.asideAt.isSome).foldl (fun (s : State) p =>
    (s.modCmd p.ctx p.seq fun q => { q with
      preempts := q.preempts + 1, preemptedNs := q.preemptedNs + (s.clk.now - (p.asideAt.getD 0)) }).modPsg p.idx fun p =>
      { p with asideAt := none }) s

end Sys2Proof.Machine
end

