-- ==== Sys2Proof/Machine/Finish.lean ====
section
/-! DEFINITION. How commands end, are pre-empted, restored and replayed (R141, R143, R152 to R156, R356 to R358, R430). -/

namespace Sys2Proof.Machine

/-! ## Completion (R141) -/

/-- Whether a tile of a command is in an engine, to be re-run, or waits for its copy. -/
def State.tilesRun (s : State) (ctx seq : Nat) : Bool :=
  (s.eng.eng.any fun e => e.2.tile.ctx == ctx && e.2.tile.seq == seq) ||
  (s.eng.reruns.any fun q => q.ctx == ctx && q.seq == seq) || s.eng.copies.any fun w => w.tile.ctx == ctx && w.tile.seq == seq

/-- Whether a command still has threads, tickets, tiles or transfers. -/
def State.workLeft (s : State) (ctx seq : Nat) : Bool :=
  (s.thr.threads.any fun e => e.2.ctx == ctx && e.2.seq == seq && !e.2.handler) ||
  (s.thr.tickets.any fun k => k.ctx == ctx && k.seq == seq && !k.done) ||
  (s.eng.tileq.any fun q => q.ctx == ctx && q.seq == seq) || s.tilesRun ctx seq ||
  s.eng.xfers.any fun x => x.ctx == ctx && x.seq == seq

/-- Writes back and drops the L1s of a command's cores; false where an answer is awaited (R100). -/
def State.closeL1 (s : State) (c : Cmd) : Bool × State :=
  let cores := (c.dies.map fun d => (s.cmdCores c d).map fun g => d * 32 + g).flatten
  cores.foldl (fun (a : Bool × State) k =>
    let (ok, s) := a.2.l1Flush k 0 allMem
    (a.1 && ok, s.l1Invalidate k 0 allMem)) (true, s)

/-- The write-backs of a command's L1s, then of the far parts of its dies, and whether all were answered. -/
def State.closeFar (s : State) (c : Cmd) : Bool × State :=
  c.dies.foldl (fun (a : Bool × State) d => let (k, s) := a.2.farFlush d 0 allMem; (a.1 && k, s)) (s.closeL1 c)

/-- Whether nothing of a command is on its way to the host or to another device. -/
def State.sentAll (s : State) (c : Cmd) : Bool :=
  !s.hostPending && s.erh.opens.all fun o => !(o.ctx == c.ctx && o.seq == c.seq && o.kind == 0)

/-- Steps 1 and 2 of R141: L1s and far lines written back, host writes observed, posted PUTs acknowledged. -/
def State.closeMem (s : State) (c : Cmd) : Bool × State :=
  ((s.closeFar c).1 && (s.closeFar c).2.sentAll c, (s.closeFar c).2)

/-- The final value of one of the four programmable counters that a command's berth holds, over its dies (Table 18.7). -/
def State.snapPmc (s : State) (c : Cmd) (k : Nat) : Nat :=
  sumNat (c.dies.map fun d => s.rfld (dieBase d + 0x800 + (k + if c.berth = 0 then 0 else 4) * 0x10) 62 0)

/-- The 256 bytes of a counter snapshot (Table 18.7). -/
def State.snapshot (s : State) (c : Cmd) (st : Status) : List Byte :=
  let n := c.counts
  let b (x : Bool) (i : Nat) : Nat := if x then 2 ^ i else 0
  bytesOf 8 c.seq ++ bytesOf 2 st.toNat ++ bytesOf 2 c.ctx ++ bytesOf 2 c.flags.toNat ++
  bytesOf 1 (b c.redOrder 0 + b c.mixed 1 + b c.anchor.isSome 3) ++ bytesOf 1 0 ++ bytesOf 2 (ofSigned 16 (c.anchor.getD 0)) ++
  bytesOf 2 c.activeId ++ bytesOf 4 c.dies.length ++ bytesOf 8 n.tiles ++ bytesOf 8 n.reruns ++ bytesOf 8 n.cupped ++
  bytesOf 8 n.cupSkipped ++ bytesOf 8 n.kCyc ++ bytesOf 8 n.holdStall ++ bytesOf 8 n.resUncovered ++ bytesOf 8 n.issue ++
  bytesOf 8 n.bargeSect ++ bytesOf 8 n.remoteBytes ++ bytesOf 8 n.spillSect ++ bytesOf 16 0 ++
  ((List.range 4).map fun k => bytesOf 8 (s.snapPmc c k)).flatten ++ bytesOf 96 0

/-- Step 3 of R141: the snapshot as an agent of the context's berth. A refused write leaves SNAPSHOT 0 and counts
SNAPSHOT_LOST (R430). -/
def State.writeSnap (s : State) (c : Cmd) (st : Status) : Nat × Bool × State := match s.ctx? c.ctx with
  | none => (0, false, s)
  | some x =>
    let va := x.snapVa c.slot
    let (e, w, s) := s.vaWrite x.berth va (s.snapshot c st)
    if w then (0, true, s)
    else if e ≠ 0 then (0, false, s.modAccount c.berth fun a => { a with snapshotLost := a.snapshotLost + 1 })
    else (va, false, s)

/-- The status of a command that ends: its first failure, 0x1701 after a replay, or success (R358). -/
def Cmd.endStatus (c : Cmd) : Status := if c.failed then c.status else if c.replays > 0 then 0x1701 else 0

/-- Writes the end record of a command to the traces of its dies and drains them (R432). -/
def State.traceEnd (s : State) (c : Cmd) (st : Status) : State :=
  c.dies.foldl (fun (s : State) d => (s.trace d { TraceRec.blank 3 with
    ctx := c.ctx, berth := c.berth, seq := c.seq, status := st, tSpan := s.clk.now - c.tStart
    cycSpan := s.cyc d 4 - c.startCyc }).traceDrain d) s

/-- The command boundary of a die, unless a pre-empted command of it is still to come back (R6, R68). -/
def State.boundary (s : State) (d : Nat) : State :=
  if s.lk.cmds.any fun q => q.phase == .preempted && bitAt q.dieMask d then s else s.commandBoundary d

/-- The tallies that an accepted check replay gives (R363): each engine whose output for some mismatched tile differs from the
accepted one adds one detection, at most one for the command. -/
def State.judge (s : State) (c : Cmd) : State :=
  let ms := s.eng.mism.filter fun m => m.ctx == c.ctx && m.seq == c.seq
  let bad (m : Mismatch) : List (Nat × Nat) := match m.accepted with
    | some a => (m.outs.filter fun o => o.2 != a).map fun o => (m.die, o.1)
    | none => []
  let all := ((ms.map bad).flatten).foldl (fun (l : List (Nat × Nat)) x => if l.contains x then l else l ++ [x]) []
  all.foldl (fun (s : State) x => s.tallySlot x.1 x.2 6 (Sig.blank.onCmd c)) s

/-- What goes with a command once its record stands. -/
def State.forget (s : State) (c : Cmd) : State :=
  let s := s.modThr fun x => { x with
    tickets := x.tickets.filter fun k => !(k.ctx == c.ctx && k.seq == c.seq)
    threads := NMap.keep x.threads fun _ t => t.handler || !(t.ctx == c.ctx && t.seq == c.seq) }
  let s := s.modLk fun l => { l with
    spills := l.spills.filter fun p => !(p.ctx == c.ctx && p.seq == c.seq)
    resvDies := NMap.keep l.resvDies fun _ q => q != (c.ctx, c.seq) }
  let s := if c.check && !c.failed then s.judge c else s
  let s := s.modEng fun e => { e with
    cupFirst := e.cupFirst.filter fun q => !(q.2.1 == c.ctx && q.2.2 == c.seq)
    mism := e.mism.filter fun m => !(m.ctx == c.ctx && m.seq == c.seq) }
  c.dies.foldl State.boundary s

/-- COMMAND_COMPLETE (R141). Where a write-back or an acknowledgement is awaited, the steps before it are done and the
command stays. -/
def execCommandComplete (ctx seq : Nat) (s : State) : Out :=
  s.onCmd ctx seq fun c =>
  need (decide (c.phase = .running ∨ c.phase = .stopping ∨ (c.phase = .preempted ∧ c.failed)) && !s.workLeft ctx seq) .notPending <|
  .next (
    let st := c.endStatus
    let (ok, s1) := s.closeMem c
    if !ok then s1
    else
      let (snap, w, s2) := s1.writeSnap c st
      if w then s2
      else
        let (done, s3) := s2.complete { c with status := st } st c.tStart (c.tStart - c.tReady) snap
        if !done then s3
        else
          let s4 := if c.opcode = 0x11 then s3.stepDone c st else s3
          ((s4.traceEnd c st).forget c).pump ctx)

/-! ## Maximum duration (R143) -/

/-- The running time of a command in ns. -/
def State.runNs (s : State) (c : Cmd) : Nat :=
  let out := match c.phase with
    | .preempting => s.clk.now - c.preAt
    | .preempted => s.clk.now - c.preAt
    | .restoring => s.clk.now - c.preAt
    | _ => 0
  s.clk.now - c.tStart - c.preemptedNs - out

/-- The time that a passage has been set aside in the step that runs (R264). -/
def State.asideNs (s : State) (ctx seq : Nat) : Nat :=
  match s.bth.roll.find? fun p => p.ctx == ctx && p.seq == seq with
  | some p => (match p.asideAt with | some t => s.clk.now - t | none => 0)
  | none => 0

/-- The limit of a command in ns; 0 is none. -/
def State.durNs (s : State) (c : Cmd) : Nat :=
  let d := Word.fld (c.word 1) 31 0
  1000 * (if d ≠ 0 then d else match s.ctx? c.ctx with | some x => x.defaultDur | none => 0)

/-- MAX_DUR_EXPIRE: the command fails with 0x2001; a passage that has joined ends with it at the next make-up (R264, R265). -/
def execMaxDurExpire (ctx seq : Nat) (s : State) : Out :=
  s.onCmd ctx seq fun c =>
  let psg := s.bth.roll.find? fun p => p.ctx == ctx && p.seq == seq && p.joined && !p.ended
  need (!c.failed && (if c.phase = .roll then psg.isSome else c.phase.holds || c.phase == .preempted)) .notPending <|
  need (s.durNs c != 0 && decide (s.durNs c < s.runNs c - s.asideNs ctx seq)) .notArmed <|
  .next (match psg with
    | some p => s.modPsg p.idx fun p => { p with ended := true, status := 0x2001 }
    | none => s.failCmd ctx seq 0x2001)

/-! ## Pre-emption (R152 to R155) -/

/-- Spill space that a command's pre-emption needs (R154). -/
def Cmd.spillNeed (c : Cmd) : Nat :=
  4096 * c.dies.length + 2816 * c.threads * c.dies.length + 32 * sumNat (c.live.map fun r => r.2.2) * c.dies.length

/-- Threads of a command that a core takes. -/
def State.coreLoad (s : State) (c : Cmd) (d g : Nat) : Nat :=
  let cores := s.cores d
  ((List.range c.threads).filter fun i => cores.getD (i % Nat.max 1 cores.length) 99 == g).length

/-- Whether a command holds engines or thread slots of a die that a ready command needs (R152). -/
def State.holdsNeeded (s : State) (q c : Cmd) (d : Nat) : Bool :=
  bitAt q.dieMask d && bitAt c.dieMask d &&
  (((q.held d).any fun e => (c.held d).contains e) ||
   (s.cmdCores q d).any fun g => (s.cmdCores c d).contains g &&
     (q.berth != c.berth || decide ((s.freeThreads d g).length < s.coreLoad c d g)))

/-- The commands that hold what a ready command needs. -/
def State.holders (s : State) (c : Cmd) : List Cmd :=
  s.lk.cmds.filter fun q => q.phase.holds && !(q.ctx == c.ctx && q.seq == c.seq) && c.dies.any (s.holdsNeeded q c)

/-- Spill space that a berth still has. -/
def State.spillRoom (s : State) (b : Nat) : Nat :=
  (match s.berth? b with | some e => e.spill.length * 65536 | none => 0) -
  sumNat ((s.lk.cmds.filter fun q => q.berth == b).map (·.spillBytes))

/-- Whether the victims' berths have room for their spills. -/
def State.spillFits (s : State) (vs : List Cmd) : Bool :=
  vs.all fun v => decide (sumNat ((vs.filter fun q => q.berth == v.berth).map Cmd.spillNeed) ≤ s.spillRoom v.berth)

/-- Steps 1 and 2 of R153 for one victim. -/
def State.preemptOne (s : State) (c v : Cmd) : State :=
  let s := s.modCmd v.ctx v.seq fun q => { q with phase := .preempting, preAt := s.clk.now, spillBytes := v.spillNeed }
  let s := s.modThr fun x => { x with
    threads := NMap.mapV x.threads fun _ t =>
      if t.ctx == v.ctx && t.seq == v.seq && !t.handler then { t with frozen := true } else t }
  let s := s.modEng fun e => { e with
    xfers := e.xfers.map fun x => if x.ctx == v.ctx && x.seq == v.seq then { x with paused := true } else x }
  s.modLk fun l => { l with
    spills := l.spills.filter (fun p => !(p.ctx == v.ctx && p.seq == v.seq)) ++
      [{ ctx := v.ctx, seq := v.seq, threads := [], sectors := [], count := 0, forCtx := c.ctx, forSeq := c.seq }] }

/-- PREEMPT: every command that holds what the ready command (ctx, seq) needs becomes a victim. Where only spill space is
wanting, the ready command waits with SPILL_REFUSED (R155). -/
def execPreempt (ctx seq : Nat) (s : State) : Out :=
  s.onCmd ctx seq fun c =>
  let vs := s.holders c
  need (decide (c.phase = .ready ∨ c.phase = .scheduled) && (c.opcode == 1 || c.opcode == 0x11) && !s.startHeld c && !s.outranked c &&
    !s.unitMissing c) .notPending <|
  need (!vs.isEmpty && vs.all fun v => decide (v.phase = .running ∨ v.phase = .replayWait) && decide (v.prio < c.prio) &&
    (c.berth == 0 || v.berth == c.berth)) .notPending <|
  .next (if s.spillFits vs then vs.foldl (fun s v => s.preemptOne c v) s
    else s.modCmd ctx seq fun c => { c with
      cflags := c.cflags ||| 1, heldAt := if bitAt c.cflags.toNat 0 then c.heldAt else s.clk.now })

/-- The sidecars of a slot's sectors that have one of their own, by offset. -/
def State.slotSides (s : State) (k : Nat) : List (Nat × Side) :=
  (s.eng.side.filter fun e => e.1 / holdSize == k).map fun e => (e.1 % holdSize, e.2)

/-- Whether a live range of engine `te` covers a hold offset. -/
def Cmd.isLive (c : Cmd) (te off : Nat) : Bool :=
  c.live.any fun r => r.1 == te && decide (r.2.1 ≤ off / 32) && decide (off / 32 < r.2.1 + r.2.2)

/-- The sectors that engine `te` of a die spills: the live ones that are not spent, with their tags (R153). A sector that
nothing has written need not be kept where it has the tag that the restore gives. -/
def State.spillSectors (s : State) (c : Cmd) (d te : Nat) : List (Nat × Nat × List Byte × Side) :=
  match s.slotKey d (c.served d te) with
  | none => []
  | some k =>
    let own := (s.slotSides k).filter fun e => c.isLive te e.1
    let rest := if NMap.getD s.eng.holdTag k 0 = c.berth then []
      else (((c.live.filter fun r => r.1 == te).map fun r => (List.range r.2.2).map fun i => 32 * (r.2.1 + i)).flatten.filter fun o =>
        own.all fun e => e.1 != o).map fun o => (o, s.side k o)
    ((own.filter fun e => !e.2.spent) ++ rest).map fun e => (d * 16 + te, e.1, s.holdRead k e.1 32, e.2)

/-- How many sectors that spill moves. -/
def State.spillCount (s : State) (c : Cmd) (d te : Nat) : Nat :=
  let live := sumNat ((c.live.filter fun r => r.1 == te).map fun r => r.2.2)
  match s.slotKey d (c.served d te) with
  | none => 0
  | some k => live - ((s.slotSides k).filter fun e => c.isLive te e.1 && e.2.spent).length

/-- The claimed engines of a command, as (die, logical engine). -/
def Cmd.units (c : Cmd) : List (Nat × Nat) := (c.dies.map fun d => (bitsOf 16 c.claim).map fun e => (d, e)).flatten

/-- Starts a ready single-die RUN where it can start. -/
def State.tryRun (s : State) (ctx seq : Nat) : State := match s.cmd? ctx seq with
  | none => s
  | some c =>
    if c.opcode = 1 ∧ c.phase = .ready ∧ c.dies.length = 1 ∧ !s.startHeld c ∧ !s.unitMissing c ∧ !s.outranked c ∧
      c.dies.all (s.dieFree c) then (s.begin c).pump ctx else s

/-- PREEMPT_SPILL_DONE: once its running tiles have ended, the victim's L1s are written back, its live sectors and threads
saved and its resources released; the pre-empting command starts where it can. -/
def execPreemptSpillDone (ctx seq : Nat) (s : State) : Out :=
  s.onCmd ctx seq fun c =>
  need (c.phase == .preempting && !s.tilesRun ctx seq) .notPending <|
  needSome (s.lk.spills.find? fun p => p.ctx == ctx && p.seq == seq) .notPending fun sp =>
  .next (
    let (ok, s) := s.closeL1 c
    if !ok then s
    else
      let secs := (c.units.map fun u => s.spillSectors c u.1 u.2).flatten
      let n := sumNat (c.units.map fun u => s.spillCount c u.1 u.2)
      let mine (t : Thread) : Bool := t.ctx == ctx && t.seq == seq && !t.handler
      let sp' : Spill := { sp with threads := NMap.keep s.thr.threads fun _ t => mine t, sectors := secs, count := n }
      let s := s.modLk fun l => { l with spills := l.spills.map fun p => if p.ctx == ctx && p.seq == seq then sp' else p }
      let s := s.modThr fun x => { x with threads := NMap.keep x.threads fun _ t => !mine t }
      let s := s.modCmd ctx seq fun q => { q with
        phase := .preempted, preempts := q.preempts + 1, counts := { q.counts with spillSect := q.counts.spillSect + n } }
      let s := c.dies.foldl (fun (s : State) d => s.trace d { TraceRec.blank 4 with
        ctx := ctx, berth := c.berth, seq := seq, tSpan := s.clk.now - c.preAt }) s
      s.tryRun sp.forCtx sp.forSeq)

/-- Whether a victim's own engines and hardware threads are free again (R156). -/
def State.ownFree (s : State) (c : Cmd) (sp : Spill) : Bool :=
  c.dies.all (fun d => s.present d && s.enginesFree c d) &&
  sp.threads.all fun e => !NMap.has s.thr.threads e.1 && s.coreOk c (dieOfThr e.1) (coreOfThr e.1 % 32)

/-- Refills one engine's hold (R156 steps 1 and 2): the spilled sectors with their tags, every other one zero with the
victim's tag. -/
def State.refill (s : State) (c : Cmd) (sp : Spill) (d te : Nat) : State :=
  match s.slotKey d (c.served d te) with
  | none => s
  | some k =>
    let s := s.holdZero k c.berth
    (sp.sectors.filter fun e => e.1 == d * 16 + te).foldl (fun (s : State) e =>
      (s.holdPut k e.2.1 e.2.2.1 e.2.2.2.tag e.2.2.2.poison)) s

/-- RESTORE: the victim resumes once its resources are free and it comes first for them. -/
def execRestore (ctx seq : Nat) (s : State) : Out :=
  s.onCmd ctx seq fun c =>
  needSome (s.lk.spills.find? fun p => p.ctx == ctx && p.seq == seq) .notPending fun sp =>
  need (c.phase == .preempted && !c.failed && s.lk.takes && !s.outranked c && s.ownFree c sp) .notPending <|
  let s := c.units.foldl (fun s u => s.refill c sp u.1 u.2) s
  let s := s.modThr fun x => { x with
    threads := NMap.putAll x.threads (sp.threads.map fun e =>
      (e.1, { e.2 with frozen := s.isRetiring (dieOfThr e.1) true (coreOfThr e.1 % 32) })) }
  let s := s.modEng fun e => { e with
    xfers := e.xfers.map fun x => if x.ctx == ctx && x.seq == seq then { x with paused := false } else x }
  let s := s.modLk fun l => { l with spills := l.spills.filter fun p => !(p.ctx == ctx && p.seq == seq) }
  let s := s.modCmd ctx seq fun q => { q with
    phase := if q.trigger = 0 then .running else .replayWait
    preemptedNs := q.preemptedNs + (s.clk.now - q.preAt), spillBytes := 0
    counts := { q.counts with spillSect := q.counts.spillSect + sp.count } }
  .next (c.dies.foldl (fun (s : State) d => s.trace d { TraceRec.blank 5 with
    ctx := ctx, berth := c.berth, seq := seq, tSpan := s.clk.now - c.preAt }) s)

/-! ## Replay (R356 to R358, R366) -/

/-- Undoes one journalled mooring operation (R358 step 3). -/
def State.undoMoor (s : State) (j : Nat × Nat × Bool) : State :=
  let s := s.modBerth j.1 fun e => { e with
    pool := e.pool.map fun p => if j.2.2 then { p with free := j.2.1 :: p.free } else { p with free := p.free.filter (· != j.2.1) } }
  if j.2.2 then s.modBth fun x => { x with resv := NMap.put x.resv j.1 (NMap.getD x.resv j.1 0 + 1) } else s

/-- The engines that serve a command's claim on a die in its next check replay (R357): each the slot of the next one,
cyclically; a single one the lowest present engine that no running command claims, if there is one. -/
def State.rotateDie (s : State) (c : Cmd) (d : Nat) : Option (List (Nat × Nat)) :=
  let cl := bitsOf 16 c.claim
  match cl with
  | [] => some []
  | [e] => ((s.engines d).find? fun j => (s.cmdsOn d).all fun q => !(q.held d).contains j).map fun j => [(d * 16 + e, j)]
  | _ => some ((List.range cl.length).map fun i => (d * 16 + cl.getD i 0, c.served d (cl.getD ((i + 1) % cl.length) 0)))

/-- Whether the repair that a replay waits for is done (R358 step 2): no cargo page is quarantined, or no host port lost. -/
def State.repaired (s : State) (c : Cmd) : Bool :=
  if c.trigger = 0x3707 then s.bth.cargoPages.all fun pa => (s.pot (pa / 0x10000)).state != .quarantined
  else if c.trigger = 0x3C01 then s.cxl.ports.toList.all fun p => !p.lost
  else true

/-- Accounts the hold of a repair replay for shared cargo to a berth's command (R366). -/
def State.cargoDelay (s : State) (b ctx seq ns : Nat) : State :=
  (s.modAccount b fun a => { a with cargoDelayNs := a.cargoDelayNs + ns, cargoDelayEvents := a.cargoDelayEvents + 1 }).modCmd ctx seq
    fun c => { c with cflags := c.cflags ||| 2 }

/-- What a replay's start records: REPLAYS and the cargo delay, of the command or of the passages of a step (R266, R366). -/
def State.replayNotes (s : State) (c : Cmd) : State :=
  let ns := s.clk.now - c.heldAt
  if c.opcode = 0x11 then
    let ps := c.stepRows.filterMap fun r => s.psg? r.1
    let s := ps.foldl (fun (s : State) p => s.modCmd p.ctx p.seq fun q => { q with replays := q.replays + 1 }) s
    if c.trigger = 0x3707 then
      let s := ps.foldl (fun (s : State) p => s.modCmd p.ctx p.seq fun q => { q with cflags := q.cflags ||| 2 }) s
      (sortNat (ps.map (·.berth))).foldl (fun (s : State) b => s.modAccount b fun a => { a with
        cargoDelayNs := a.cargoDelayNs + ns, cargoDelayEvents := a.cargoDelayEvents + 1 }) s
    else s
  else if c.trigger = 0x3707 then s.cargoDelay c.berth c.ctx c.seq ns else s

/-- REPLAY: the stopped command is executed again whole, with its SEQ, slot and T_START. A step whose journal overflowed fails
instead. -/
def execReplay (ctx seq : Nat) (s : State) : Out :=
  s.onCmd ctx seq fun c =>
  need (c.phase == .replayWait && !s.workLeft ctx seq && (c.check || s.repaired c)) .notPending <|
  if c.opcode = 0x11 ∧ c.journal.length > 65536 then .next (s.failCmd ctx seq 0x3703)
  else
    needSome (if c.check then c.dies.mapM (s.rotateDie c) else some []) .notPending fun rot =>
    need (c.dies.all fun d => s.present d && (s.placeDie c d).isSome) .notPending <|
    .next (
      let (ok, s) := s.closeMem c
      if !ok then s
      else
        let s := (c.journal.reverse.foldl State.undoMoor s).replayNotes c
        let s := s.modThr fun x => { x with tickets := x.tickets.filter fun k => !(k.ctx == ctx && k.seq == seq) }
        let s := s.modCmd ctx seq fun q => { q with
          replays := q.replays + 1, trigger := 0, flags := 0, redOrder := false, anchor := none, clamped := false, journal := []
          counts := Counts.zero, noTiles := false, serve := NMap.putAll q.serve rot.flatten }
        match s.cmd? ctx seq with
        | some c => s.begin c
        | none => s)

end Sys2Proof.Machine
end

