-- ==== Sys2Proof/Machine/Tile.lean ====
section
/-! DEFINITION. Tiles (chapter 3): the descriptor and its validation (R33, R55, R56, R59, R61 to R64), the operand reads with
the conditions they meet (R78, R80 to R85, R451), the K phase (R34 to R36, R44, R54) and what the residue checks leave out
(R75, R76). -/

namespace Sys2Proof.Machine

/-! ## The descriptor (Table 3.3) -/

/-- A tile descriptor by field. -/
structure Desc where
  rowfn : Nat
  anchor : Int
  fin : Nat
  causal : Bool
  clamp : Bool
  affine : Bool
  outT : Bool
  mxAxis : Bool
  accInit : Bool
  oFmt : Nat
  bFmt : Nat
  aFmt : Nat
  op : Nat
  kOff : Nat
  nv : Nat
  mv : Nat
  kLen : Nat
  nOff : Nat
  mOff : Nat
  aSec : Nat
  aPitch : Nat
  saSec : Nat
  saPitch : Nat
  bSec : Nat
  bPitch : Nat
  sbSec : Nat
  sbPitch : Nat
  outSec : Nat
  outPitch : Nat
  oscSec : Nat
  oscPitch : Nat
  outScale : Nat
  bScale : Nat
  aScale : Nat
  rowBlk : Nat
  finSec : Nat
  tag : Nat
  reserved : Bool
deriving DecidableEq, Repr

/-- Reads a descriptor's fields. -/
def descOf (ws : Vector Word 8) : Desc :=
  let w (i : Nat) : Word := ws.toList.getD i 0
  let f (i hi lo : Nat) : Nat := Word.fld (w i) hi lo
  { rowfn := f 0 63 56, anchor := toSigned 10 (f 0 55 46), fin := f 0 45 40, causal := Word.bit (w 0) 39
    clamp := Word.bit (w 0) 38, affine := Word.bit (w 0) 37, outT := Word.bit (w 0) 36, mxAxis := Word.bit (w 0) 35
    accInit := Word.bit (w 0) 34, oFmt := f 0 31 28, bFmt := f 0 27 24, aFmt := f 0 23 20, op := f 0 7 0
    kOff := f 1 63 32, nv := f 1 30 24, mv := f 1 23 16, kLen := f 1 15 0
    nOff := f 2 63 32, mOff := f 2 31 0
    saPitch := f 3 63 56, aPitch := f 3 47 36, saSec := f 3 35 18, aSec := f 3 17 0
    sbPitch := f 4 63 56, bPitch := f 4 47 36, sbSec := f 4 35 18, bSec := f 4 17 0
    oscPitch := f 5 63 56, outPitch := f 5 47 36, oscSec := f 5 35 18, outSec := f 5 17 0
    outScale := f 6 63 56, bScale := f 6 55 48, aScale := f 6 47 40, rowBlk := f 6 28 18, finSec := f 6 17 0
    tag := f 7 31 0
    reserved := f 0 33 32 != 0 || f 0 19 8 != 0 || f 1 31 31 != 0 || f 3 55 48 != 0 || f 4 55 48 != 0 || f 5 55 48 != 0 ||
      f 6 39 29 != 0 || f 7 63 32 != 0 }

/-- Whether a tile has a K phase: MM has, DRAIN has none (R64). -/
def Desc.mm (d : Desc) : Bool := d.op == 1

/-- Fill, K-phase and drain cycles (R56, R32, Table 3.2). -/
def Desc.phases (d : Desc) : Nat × Nat × Nat :=
  (if d.accInit then 272 else 16,
   if !d.mm then 0 else if d.aFmt = 0 ∧ d.bFmt = 0 then d.kLen / 2 else if d.aFmt ≥ 9 then 2 * d.kLen else d.kLen,
   (if d.oFmt = 10 then 256 else if d.oFmt = 0 then 64 else 32) +
     (if d.oFmt ≠ 10 ∧ (d.rowfn = 4 ∨ d.rowfn = 8) then 32 else 0))

/-- Bytes of `n` packed elements of a width. -/
def packedLen (bits n : Nat) : Nat := (n * bits + 7) / 8

/-- Bits of an output element (Table 3.4). -/
def Desc.outBits (d : Desc) : Nat := if d.oFmt = 10 then 128 else (outFmt d.oFmt).2.1

/-- Whether the output is an MX format. -/
def Desc.mx (d : Desc) : Bool := d.oFmt != 10 && (outFmt d.oFmt).2.2

/-- Whether the parameter block is used (R66, R70). -/
def Desc.params (d : Desc) : Bool := d.affine || d.clamp || d.fin != 0 || d.rowfn == 7 || d.rowfn == 9

/-- Whether the row unit uses the row-state sectors; 0x10 and 0x11 use the column vector instead. -/
def Desc.rowState (d : Desc) : Bool := d.rowfn != 0 && decide (d.rowfn < 0x10)

/-- The regions a tile reads and writes, by kind (R59): 0 A, 1 A scales, 2 B, 3 B scales, 4 parameters, 5 output, 6 output
scales, 7 row state, 8 column vector. `os` is the slot of the operands, `ws` that of the output. -/
def Desc.regions (d : Desc) (os ws : Nat) : List (Nat × TileReg) :=
  let rows := if d.outT then d.nv else d.mv
  let cnt := if d.outT then d.mv else d.nv
  let r (b : Bool) (k : Nat) (slot sec pitch n len : Nat) : List (Nat × TileReg) :=
    if b then [(k, { slot := slot, start := sec * 32, pitch := pitch * 32, rows := n, bytes := len })] else []
  r d.mm 0 os d.aSec d.aPitch d.mv (packedLen (opFmt d.aFmt).bits d.kLen) ++
  r (d.mm && (opFmt d.aFmt).mx) 1 os d.saSec d.saPitch d.mv (d.kLen / 32) ++
  r d.mm 2 os d.bSec d.bPitch d.nv (packedLen (opFmt d.bFmt).bits d.kLen) ++
  r (d.mm && (opFmt d.bFmt).mx) 3 os d.sbSec d.sbPitch d.nv (d.kLen / 32) ++
  r d.params 4 os d.finSec 17 1 0x214 ++
  r true 5 ws d.outSec d.outPitch rows (Nat.max (packedLen d.outBits cnt) (if d.accInit then 16 * cnt else 0)) ++
  r d.mx 6 ws d.oscSec d.oscPitch (if d.mxAxis then (d.mv + 31) / 32 else d.mv) (if d.mxAxis then 64 else 2) ++
  r d.rowState 7 ws (d.rowBlk * 128) 1 d.mv 32 ++
  r (decide (d.rowfn ≥ 0x10)) 8 ws (d.rowBlk * 128 + 128) 8 1 256

/-- A region of one kind. -/
def Desc.region (d : Desc) (os ws k : Nat) : Option TileReg := ((d.regions os ws).find? (·.1 == k)).map (·.2)

/-- The row-unit operations of Table 3.7. -/
def rowFns : List Nat := [1, 2, 3, 4, 5, 6, 7, 8, 9, 0x10, 0x11]

/-- Whether a region lies in the hold with a pitch at least as long as its row (R59, R63). -/
def TileReg.fits (g : TileReg) : Bool :=
  decide (g.bytes ≤ g.pitch) && decide (g.start + (g.rows - 1) * g.pitch + g.bytes ≤ holdSize)

/-- Whether a descriptor passes validation (R63). -/
def Desc.valid (d : Desc) : Bool :=
  let p := d.phases
  !d.reserved && (d.op == 1 || d.op == 2) && decide (d.aFmt ≤ 10) && decide (d.bFmt ≤ 10) && decide (d.oFmt ≤ 10) &&
  (decide (d.aFmt < 9 ∧ d.bFmt < 9) || d.aFmt == d.bFmt) &&
  decide (1 ≤ d.mv ∧ d.mv ≤ 128 ∧ 1 ≤ d.nv ∧ d.nv ≤ 64) && d.kOff % 32 == 0 && d.kLen % 32 == 0 &&
  (if d.mm then decide (32 ≤ d.kLen ∧ d.kLen ≤ 16384)
   else d.accInit && d.kLen == 0 && d.aSec == 0 && d.bSec == 0 && d.saSec == 0 && d.sbSec == 0 && d.aPitch == 0 &&
     d.bPitch == 0 && d.saPitch == 0 && d.sbPitch == 0) &&
  decide (p.1 + p.2.1 + p.2.2 ≤ 16432) &&
  !(d.oFmt == 10 && (d.affine || d.clamp || d.fin != 0 || d.rowfn != 0)) &&
  decide (d.fin ≤ 13) && (d.rowfn == 0 || rowFns.contains d.rowfn) && !(d.outT && d.mx) &&
  !((d.oFmt == 3 || d.oFmt == 4) && d.outScale == 0xFF) &&
  !(d.accInit && decide (d.outPitch < (if d.outT then 64 else 32))) &&
  !(d.rowfn != 0 && decide (d.rowBlk > 2046)) && (d.regions 0 0).all fun g => g.2.fits

/-- Whether the output meets a region the tile reads, the raw input apart (R65). -/
def Desc.overlaps (d : Desc) (os ws : Nat) : Bool :=
  let gs := d.regions os ws
  let outs := gs.filter fun g => g.1 == 5 || g.1 == 6
  let ins := gs.filter fun g => decide (g.1 ≤ 4) || g.1 == 7
  outs.any fun o => ins.any fun i => i.2.slot == o.2.slot && (List.range i.2.rows).any fun r =>
    o.2.hit o.2.slot (i.2.start + r * i.2.pitch) i.2.bytes

/-- Whether the tile's inputs do not outlive its output: it loads raw long-sums or reads row state (R353). -/
def Desc.sensitive (d : Desc) : Bool := d.accInit || [4, 5, 6, 7, 9].contains d.rowfn

/-! ## Reading the hold -/

/-- Row `i` of a region. -/
def State.regRow (s : State) (g : TileReg) (i : Nat) : List Byte := s.holdRead g.slot (g.start + i * g.pitch) g.bytes

/-- The sector offsets of row `i` of a region. -/
def TileReg.secs (g : TileReg) (i : Nat) : List Nat :=
  (List.range ((g.bytes + 31) / 32)).map fun k => g.start + i * g.pitch + 32 * k

/-- The sector offsets of a whole region, with its slot. -/
def TileReg.all (g : TileReg) : List (Nat × Nat) := ((List.range g.rows).map fun i => (g.secs i).map fun o => (g.slot, o)).flatten

/-- Combines tags (R81): the combined tag, or the two that do not combine. -/
def combineTags : List Nat → Nat → Nat ⊕ Nat × Nat
  | [], t => .inl t
  | x :: l, t => if x = 255 ∨ x = t then combineTags l t else if t = 255 then combineTags l x else .inr (t, x)

/-- Tags of row `i` of a region; of no region none. -/
def State.rowTags (s : State) (g : Option TileReg) (i : Nat) : List Nat := match g with
  | some g => (g.secs i).map fun o => (s.side g.slot o).tag
  | none => []

/-- Tags of a whole region. -/
def State.regTags (s : State) (g : Option TileReg) : List Nat := match g with
  | some g => g.all.map fun p => (s.side p.1 p.2).tag
  | none => []

/-- The tags of a tile's output rows and their combination where the operation needs it (R80, R82). -/
def State.tileTags (s : State) (d : Desc) (os ws : Nat) : (List Nat × Nat) ⊕ (Nat × Nat) :=
  let r (k : Nat) : Option TileReg := d.region os ws k
  let reads := [5, 6, 7, 9].contains d.rowfn
  let raw (m : Nat) : List Nat := if !d.accInit then []
    else if d.outT then (List.range d.nv).map fun n => (s.side ws (d.outSec * 32 + n * d.outPitch * 32 + m * 16)).tag
    else (List.range ((d.nv * 16 + 31) / 32)).map fun k => (s.side ws (d.outSec * 32 + m * d.outPitch * 32 + 32 * k)).tag
  match combineTags (s.regTags (r 2) ++ s.regTags (r 3) ++ (if d.affine || d.clamp then s.regTags (r 4) else []) ++
      (if reads then s.regTags (r 7) else [])) 255 with
  | .inr p => .inr p
  | .inl tb =>
    let rows := (List.range d.mv).map fun m =>
      combineTags (s.rowTags (r 0) m ++ s.rowTags (r 1) m ++ raw m ++
        (if d.rowState then s.rowTags (r 7) m else []) ++ [tb]) 255
    match rows.findSome? (fun x => match x with | .inr p => some p | .inl _ => none) with
    | some p => .inr p
    | none =>
      let ts := rows.map fun x => match x with | .inl t => t | .inr _ => 0
      if d.outT || (d.mx && d.mxAxis) || d.rowfn ≥ 0x10 then
        match combineTags ts 255 with
        | .inl t => .inl (ts, t)
        | .inr p => .inr p
      else .inl (ts, 255)

/-- The regions of a tile that its operand reads cover: operands, parameters, row state, and the raw input. -/
def Desc.reads (d : Desc) (os ws : Nat) : List TileReg :=
  ((d.regions os ws).filter fun g => decide (g.1 ≤ 4) || g.1 == 7).map (·.2) ++
  (match d.region os ws 5 with
   | some g => if d.accInit then [{ g with bytes := 16 * (if d.outT then d.mv else d.nv) }] else []
   | none => [])

/-- What the operand reads of a tile meet (R451): parity (3705), poison (3701), a poisoned spent sector (210B), tags that do
not combine (410A); 0 where they meet nothing. `par` are the sectors that fail parity. -/
structure Met where
  parity : Bool
  poison : Bool
  spent : Bool
  mix : Option (Nat × Nat)
deriving DecidableEq, Repr

/-- The conditions met. -/
def State.tileMet (s : State) (d : Desc) (os ws : Nat) (par : List Nat) (forced : Bool) : Met :=
  let secs := ((d.reads os ws).map TileReg.all).flatten
  let sides := secs.map fun p => s.side p.1 p.2
  { parity := forced || secs.any fun p => par.contains p.2
    poison := sides.any fun x => x.poison && !x.spent
    spent := sides.any fun x => x.poison && x.spent
    mix := match s.tileTags d os ws with | .inr p => some p | .inl _ => none }

/-- The status of what was met: the first of R451's list. -/
def Met.status (m : Met) : Status :=
  if m.parity then 0x3705 else if m.poison then 0x3701 else if m.spent then 0x210B else if m.mix.isSome then 0x410A else 0

/-! ## The K phase -/

/-- Elements of block `b` of a packed row. -/
def blockElems (code : Nat) (row : List Byte) (b : Nat) : List Val :=
  (List.range 32).map fun i => decodeElem code (elemBits code row (32 * b + i))

/-- Scale exponent of block `b`: of an MX operand its scale byte, of a per-tensor format its scale, else 2^0 (R31). -/
def blockScale (code tensor : Nat) (scales : List Byte) (b : Nat) : Option Int :=
  if (opFmt code).mx then scaleExp (byteAt scales b).toNat else if (opFmt code).tensor then scaleExp tensor else some 0

/-- One block partial of an element (R34 to R36), with its flags. -/
def tileBlock (d : Desc) (a sa b sb : List Byte) (k : Nat) : Blk × AFlags :=
  let ps := (blockElems d.aFmt a k).zip (blockElems d.bFmt b k)
  if d.aFmt ≥ 9 then wideBlock ps
  else narrowBlock (opFmt d.aFmt) (opFmt d.bFmt) (blockScale d.aFmt d.aScale sa k) (blockScale d.bFmt d.bScale sb k) ps

/-- Accumulates one element over its blocks (R44): the long-sum, its flags, and the blocks left out of the array check (R75). -/
def tileElem (d : Desc) (anchor : Int) (a sa b sb : List Byte) (init : LS) : LS × AFlags × Nat :=
  (List.range (d.kLen / 32)).foldl (fun (x : LS × AFlags × Nat) k =>
    let (p, f1) := tileBlock d a sa b sb k
    let (l, f2) := placeBlock x.1 p anchor
    let out : Bool := (match p with | .spec _ => true | .num _ _ => (f1 &&& flagSpanLoss) != 0)
    (l, x.2.1 ||| f1 ||| f2, x.2.2 + (if out then 1 else 0))) (init, 0, 0)

/-- The raw long-sum at an element's place in the output region (R64). -/
def State.rawAt (s : State) (d : Desc) (ws m n : Nat) : LS :=
  let off := d.outSec * 32 + (if d.outT then n * d.outPitch * 32 + m * 16 else m * d.outPitch * 32 + n * 16)
  LS.ofBits (BitVec.ofNat 128 (ofBytes (s.holdRead ws off 16)))

/-- The accumulators after the K phase by row x 64 + column, the flags, and the blocks and special elements that the residue
checks leave out. -/
def State.kPhase (s : State) (d : Desc) (os ws : Nat) (anchor : Int) : NMap (BitVec 128) × AFlags × Nat :=
  let row (k i : Nat) : List Byte := match d.region os ws k with | some g => s.regRow g i | none => []
  let bs := (List.range d.nv).map fun n => (row 2 n, row 3 n)
  let es := ((List.range d.mv).map fun m =>
    let a := row 0 m
    let sa := row 1 m
    (List.range d.nv).map fun n =>
      let b := bs.getD n ([], [])
      (m * 64 + n, tileElem d anchor a sa b.1 b.2 (if d.accInit then s.rawAt d ws m n else .num 0))).flatten
  let special (l : LS) : Bool := match l with | .num _ => false | _ => true
  (es.map fun e => (e.1, e.2.1.bits), es.foldl (fun f e => f ||| e.2.2.1) 0,
   es.foldl (fun c e => c + e.2.2.2 + (if special e.2.1 then 1 else 0)) 0)

end Sys2Proof.Machine
end

