-- ==== Sys2Proof/Machine/FinRow.lean ====
section
/-! DEFINITION. The finishing unit (R66, R67, R449), the row unit (R70 to R73) and the drain of a whole tile (R45 to R49, R59). -/

namespace Sys2Proof.Machine

/-! ## Finishing functions (Table 3.5) -/

/-- The bytes of a finishing bank that are not zero, by offset: the image on which the functions' bits depend (R67). -/
def State.finImage (s : State) (d bank : Nat) : List (Nat × Byte) :=
  (s.eng.fin.filter fun e => e.1 / 0x8000 == d * 2 + bank).map fun e => (e.1 % 0x8000, e.2)

/-- v × q compared with p: whether v > p/q. -/
def Val.gtRat (v : Val) (p : Int) (q : Nat) : Bool := match v with
  | .inf n => !n
  | .fin _ _ e => let x := min e 0; decide (v.atExp x * q > p * 2 ^ (-x).toNat)
  | .zero _ => decide (0 > p)
  | .nan => false

/-- Whether v < p/q. -/
def Val.ltRat (v : Val) (p : Int) (q : Nat) : Bool := match v with
  | .inf n => n
  | .fin _ _ e => let x := min e 0; decide (v.atExp x * q < p * 2 ^ (-x).toNat)
  | .zero _ => decide (0 < p)
  | .nan => false

/-- FP32 +Inf. -/
def infBits : Nat := 0x7F800000
/-- FP32 −Inf. -/
def ninfBits : Nat := 0xFF800000
/-- FP32 1. -/
def oneBits : Nat := 0x3F800000

/-- The special inputs of functions 3 to 13 (Table 3.5): the result bits, and whether INVALID is set. -/
def finSpecial (code : Nat) (v : Val) : Option (Nat × Bool) :=
  let neg := match v with | .fin n _ _ => n | .inf n => n | _ => false
  match code with
  | 6 => match v with | .inf n => some (if n then 0 else oneBits, false) | _ => none
  | 7 => match v with | .inf n => some (if n then 0xBF800000 else oneBits, false) | _ => none
  | 8 => if v.gtRat 887228 10000 then some (infBits, false) else if v.ltRat (-10398) 100 then some (0, false) else none
  | 9 => if !v.ltRat 128 1 then some (infBits, false) else if v.ltRat (-150) 1 then some (0, false) else none
  | 10 => match v with
    | .zero _ => some (ninfBits, false)
    | _ => if neg then some (fp32.nanBits, true) else none
  | 11 => match v with | .zero n => some (if n then ninfBits else infBits, false) | _ => none
  | 12 => match v with
    | .zero n => some (if n then ninfBits else infBits, false)
    | _ => if neg then some (fp32.nanBits, true) else none
  | 13 => match v with | .inf false => some (infBits, false) | _ => none
  | _ => match v with | .inf n => some (if n then 0x80000000 else infBits, false) | _ => none

/-- Whether a function's exact result is zero at a finite input. -/
def finExactZero (code x : Nat) : Bool :=
  (([3, 4, 5, 7].contains code) && x % 0x80000000 == 0) || (code == 10 && x == oneBits)

/-- Functions 3 to 13 with their flags (R67, R449). The bits of an ordinary input are the image's (log entry 15). -/
def finTable (image : List (Nat × Byte)) (code x : Nat) : Nat × AFlags :=
  let v := fp32.decode x
  if v = .nan then (fp32.nanBits, 0)
  else
    let (y, inv) := match finSpecial code v with
      | some r => r
      | none => ((Config.finFn code image (BitVec.ofNat 32 x)).toNat, false)
    let finite := match v with | .inf _ => false | _ => true
    let zero := x % 0x80000000 == 0
    (y, flagIf (finite && !(zero && (code == 11 || code == 12))) flagInexact ||| flagIf inv flagInvalid |||
      flagIf (finite && y % 0x80000000 == 0 && !finExactZero code x) flagUnderflow |||
      flagIf (finite && !zero && y % 0x80000000 == infBits) flagOutOvf)

/-- A finishing function (Table 3.5). `alpha` is the slope of LEAKY. -/
def finFunction (image : List (Nat × Byte)) (code alpha x : Nat) : Nat × AFlags :=
  match code with
  | 0 => (x, 0)
  | 1 => (fp32Max x 0, 0)
  | 2 => match fp32.decode x with
    | .nan => (fp32.nanBits, 0)
    | .fin true _ _ => fp32Mul alpha x
    | .inf true => fp32Mul alpha x
    | _ => (x, 0)
  | _ => finTable image code x

/-- A word of the parameter block (R66). -/
def parWord (ps : List Byte) (off : Nat) : Nat := rdLE ps off 4

/-- Step 2 of R66 on one value of column `n`. -/
def finishOne (image : List (Nat × Byte)) (d : Desc) (ps : List Byte) (n x : Nat) : Nat × AFlags :=
  let (t, f1) := if d.affine then fp32Fma x (parWord ps (0x100 + 4 * n)) (parWord ps (4 * n)) else (x, 0)
  let (u, f2) := finFunction image d.fin (parWord ps 0x208) t
  (if d.clamp then fp32Min (fp32Max u (parWord ps 0x200)) (parWord ps 0x204) else u, f1 ||| f2)

/-! ## Row unit (R70 to R73) -/

/-- The fixed tree of R71 over 2^k values. -/
def treeOf (op : Nat → Nat → Nat × AFlags) : Nat → List Nat → Nat × AFlags
  | 0, l => (l.headD 0, 0)
  | k + 1, l =>
    let rs := List.zipWith op (l.take (2 ^ k)) (l.drop (2 ^ k))
    let r := treeOf op k (rs.map (·.1))
    (r.1, rs.foldl (fun f p => f ||| p.2) 0 ||| r.2)

/-- A maximum in the tree, which sets no flag. -/
def maxOp (a b : Nat) : Nat × AFlags := (fp32Max a b, 0)

/-- A value computed for the included elements of a row, the identity elsewhere. -/
def rowVals (inc : List Bool) (ident : Nat) (f : Nat → Nat × AFlags) (y : List Nat) (len : Nat) : List Nat × AFlags :=
  let rs := (List.range len).map fun n =>
    if decide (n < y.length) && inc.getD n false then f (y.getD n 0) else (ident, 0)
  (rs.map (·.1), rs.foldl (fun a r => a ||| r.2) 0)

/-- The sum over a row of a function of its included elements. -/
def rowSum (inc : List Bool) (f : Nat → Nat × AFlags) (y : List Nat) : Nat × AFlags :=
  let (vs, f1) := rowVals inc 0 f y 64
  let (r, f2) := treeOf fp32Add 6 vs
  (r, f1 ||| f2)

/-- The maximum over a row's included elements. -/
def rowMax (inc : List Bool) (y : List Nat) : Nat := (treeOf maxOp 6 (rowVals inc ninfBits (fun x => (x, 0)) y 64).1).1

/-- Sequences a result with a function of its value, joining the flags. -/
def andFlags (a : Nat × AFlags) (f : Nat → Nat × AFlags) : Nat × AFlags :=
  let r := f a.1
  (r.1, a.2 ||| r.2)

/-- An output operation: every included element through `f`, the others +0 (R70). -/
def rowOut (inc : List Bool) (f : Nat → Nat × AFlags) (y : List Nat) : List Nat × AFlags := rowVals inc 0 f y y.length

/-- SOFTMAX_STEP on one row: the output and w0, w1, w2. -/
def softmaxStep (image : List (Nat × Byte)) (inc : List Bool) (w : List Nat) (y : List Nat) :
    List Nat × List Nat × AFlags :=
  let w0 := w.getD 0 0
  let mx := fp32Max w0 (rowMax inc y)
  let all := mx == ninfBits
  let c := if all then (oneBits, 0) else if w0 = ninfBits then (0, 0) else andFlags (fp32Sub w0 mx) (finTable image 8)
  let p := rowOut inc (fun x => if all then (0, 0) else andFlags (fp32Sub x mx) (finTable image 8)) y
  let sm := rowSum inc (fun x => (x, 0)) p.1
  let w1 := fp32Fma (w.getD 1 0) c.1 sm.1
  (p.1, [mx, w1.1, c.1] ++ w.drop 3, c.2 ||| p.2 ||| sm.2 ||| w1.2)

/-- ROWMEANVAR on one row: w3 and w4. -/
def meanVar (inc : List Bool) (w : List Nat) (y : List Nat) : List Nat × AFlags :=
  let n := ((List.range y.length).filter fun i => inc.getD i false).length
  if n = 0 then ((w.set 3 0).set 4 0, 0)
  else
    let cnt := (fp32Round (Val.ofInt n 0)).1
    let mean := andFlags (rowSum inc (fun x => (x, 0)) y) fun t => fp32Div t cnt
    let var := andFlags (rowSum inc (fun x => andFlags (fp32Sub x mean.1) fun t => fp32Mul t t) y) fun t => fp32Div t cnt
    ((w.set 3 mean.1).set 4 var.1, mean.2 ||| var.2)

/-- One row of the row unit (Table 3.7): the new y, the new row-state words, the flags. -/
def rowUnit (image : List (Nat × Byte)) (d : Desc) (ps : List Byte) (inc : List Bool) (w : List Nat) (y : List Nat) :
    List Nat × List Nat × AFlags :=
  let scale (k : Nat × AFlags) : List Nat × List Nat × AFlags :=
    let r := rowOut inc (fun x => fp32Mul x k.1) y
    (r.1, w, k.2 ||| r.2)
  match d.rowfn with
  | 1 => (y, w.set 0 (rowMax inc y), 0)
  | 2 => let r := rowSum inc (fun x => (x, 0)) y; (y, w.set 1 r.1, r.2)
  | 3 => let r := rowSum inc (fun x => fp32Mul x x) y; (y, w.set 5 r.1, r.2)
  | 4 => softmaxStep image inc w y
  | 5 => scale (w.getD 2 0, 0)
  | 6 => scale (finTable image 11 (w.getD 1 0))
  | 7 => scale (andFlags (andFlags (fp32Div (w.getD 5 0) (parWord ps 0x210)) fun t => fp32Add t (parWord ps 0x20C)) (finTable image 12))
  | 8 => let r := meanVar inc w y; (y, r.1, r.2)
  | 9 =>
    let k := andFlags (fp32Add (w.getD 4 0) (parWord ps 0x20C)) (finTable image 12)
    let r := rowOut inc (fun x => andFlags (fp32Sub x (w.getD 3 0)) fun t => fp32Mul t k.1) y
    (r.1, w, k.2 ||| r.2)
  | _ => (y, w, 0)

/-- Whether an operation writes row-state words. -/
def writesState (rowfn : Nat) : Bool := [1, 2, 3, 4, 8].contains rowfn

/-- Whether an operation changes the output. -/
def changesOut (rowfn : Nat) : Bool := [4, 5, 6, 7, 9].contains rowfn

/-- One word of the column vector (R71, R73). -/
def colVec (d : Desc) (inc : Nat → Nat → Bool) (y : List (List Nat)) (n : Nat) : Nat × AFlags :=
  let vs := (List.range 128).map fun m =>
    if decide (m < d.mv) && inc m n then (y.getD m []).getD n 0 else if d.rowfn = 0x10 then ninfBits else 0
  if d.rowfn = 0x10 then treeOf maxOp 7 vs else treeOf fp32Add 7 vs

/-! ## The drain of a tile -/

/-- Packs elements (R30); the bits of the last byte that no element takes keep the value of `old` (R55). -/
def packElems (bits : Nat) (es : List Nat) (old : Byte) : List Byte :=
  let total := es.zipIdx.foldl (fun a p => a + p.1 % 2 ^ bits * 2 ^ (bits * p.2)) 0
  let used := es.length * bits
  let keep := if used % 8 = 0 then 0 else old.toNat / 2 ^ (used % 8) * 2 ^ used
  bytesOf (packedLen bits es.length) (total + keep)

/-- The drained elements of a tile by (row, column), MX scales by (row, block) or (block, column), row-state words by row, the
column vector, and the flags. -/
structure Drained where
  codes : List (List Nat)
  scales : List (Nat × Nat × Nat)
  rows : List (List Nat)
  cols : List Nat
  flags : AFlags
deriving DecidableEq, Repr

/-- The values of a matrix to a non-MX format. -/
def drainPlain (d : Desc) (sat : Bool) (vs : List (List Val)) : List (List Nat) × AFlags :=
  let (f, _, _) := outFmt d.oFmt
  let k : Int := if d.oFmt = 3 ∨ d.oFmt = 4 then (d.outScale : Int) - 127 else 0
  let rs := vs.map fun row => row.map fun v => f.drain sat (v.scale (-k))
  (rs.map fun row => row.map (·.1), rs.foldl (fun a row => row.foldl (fun b r => b ||| r.2) a) 0)

/-- The values of a matrix to an MX format in blocks of 32 along N or M (R49). -/
def drainBlocks (d : Desc) (sat : Bool) (vs : List (List Val)) : List (List Nat) × List (Nat × Nat × Nat) × AFlags :=
  let (f, _, _) := outFmt d.oFmt
  let at' (m n : Nat) : Val := (vs.getD m []).getD n .nan
  let blocks : List (Nat × Nat × List (Nat × Nat)) := if d.mxAxis
    then ((List.range d.nv).map fun n => (List.range 4).map fun j =>
      (j, n, ((List.range 32).map fun i => (32 * j + i, n)).filter fun p => decide (p.1 < d.mv))).flatten
    else ((List.range d.mv).map fun m => (List.range 2).map fun j =>
      (m, j, ((List.range 32).map fun i => (m, 32 * j + i)).filter fun p => decide (p.2 < d.nv))).flatten
  let rs := (blocks.filter fun b => !b.2.2.isEmpty).map fun b => (b, drainMx f sat (b.2.2.map fun p => at' p.1 p.2))
  let codes := (rs.map fun r => (r.1.2.2.zip r.2.2.1)).flatten
  ((List.range d.mv).map fun m => (List.range d.nv).map fun n =>
      ((codes.find? fun c => c.1 == (m, n)).map (·.2)).getD 0,
   rs.map fun r => (r.1.1, r.1.2.1, r.2.1), rs.foldl (fun a r => a ||| r.2.2.2) 0)

/-- Drains a tile (R66): conversion, finishing, row unit, output. `ws` are the row-state words by row. -/
def drainTile (image : List (Nat × Byte)) (d : Desc) (sat : Bool) (anchor : Int) (accs : Nat → Nat → LS) (ps : List Byte)
    (ws : Nat → List Nat) : Drained :=
  let ms := List.range d.mv
  let ns := List.range d.nv
  if d.oFmt = 10 then
    { codes := ms.map fun m => ns.map fun n => (accs m n).bits.toNat, scales := [], rows := [], cols := [], flags := 0 }
  else
    let inc (m n : Nat) : Bool := !(d.causal && decide (d.nOff + n > d.mOff + m))
    let fin := d.affine || d.clamp || d.fin != 0
    let via := fin || changesOut d.rowfn
    let ys : List (List (Nat × AFlags)) := if fin ∨ d.rowfn ≠ 0 then
        ms.map fun m => ns.map fun n => andFlags (fp32.drain sat ((accs m n).val anchor)) fun x =>
          if fin then finishOne image d ps n x else (x, 0)
      else []
    let f1 := ys.foldl (fun a row => row.foldl (fun b r => b ||| r.2) a) 0
    let y := ys.map fun row => row.map (·.1)
    let rs := if d.rowState then ms.map fun m => rowUnit image d ps (ns.map (inc m)) (ws m) (y.getD m []) else []
    let f2 := rs.foldl (fun a r => a ||| r.2.2) 0
    let cs := if d.rowfn ≥ 0x10 then ns.map (colVec d inc y) else []
    let f3 := cs.foldl (fun a r => a ||| r.2) 0
    let y' := if d.rowState then rs.map (·.1) else y
    let vs : List (List Val) := ms.map fun m => ns.map fun n =>
      if via then fp32.decode ((y'.getD m []).getD n 0) else (accs m n).val anchor
    let (codes, scales, f4) : List (List Nat) × List (Nat × Nat × Nat) × AFlags :=
      if d.mx then drainBlocks d sat vs else let r := drainPlain d sat vs; (r.1, [], r.2)
    { codes := codes, scales := scales, rows := if writesState d.rowfn then rs.map fun r => r.2.1.take 6 ++ [0, 0] else []
      cols := cs.map (·.1), flags := f1 ||| f2 ||| f3 ||| f4 }

/-- The hold writes of a drained tile, with their tags (R59, R73, R79). -/
def State.tileWrites (s : State) (d : Desc) (ws : Nat) (rowTags : List Nat) (allTag : Nat) (r : Drained) :
    List (Nat × List Byte × Nat) :=
  let bits := d.outBits
  let tag (m : Nat) : Nat := rowTags.getD m 255
  let row (i : Nat) (es : List Nat) (t : Nat) : Nat × List Byte × Nat :=
    let off := d.outSec * 32 + i * d.outPitch * 32
    (off, packElems bits es ((s.holdRead ws (off + es.length * bits / 8) 1).headD 0), t)
  (if d.outT then (List.range d.nv).map fun n => row n ((List.range d.mv).map fun m => (r.codes.getD m []).getD n 0) allTag
   else (List.range d.mv).map fun m => row m (r.codes.getD m []) (tag m)) ++
  (r.scales.map fun q =>
    (d.oscSec * 32 + q.1 * d.oscPitch * 32 + q.2.1, [BitVec.ofNat 8 q.2.2],
      if d.mxAxis then (match combineTags (((List.range 32).map fun i => 32 * q.1 + i).filter (· < d.mv) |>.map tag) 255 with
        | .inl t => t | .inr _ => 255) else tag q.1)) ++
  ((r.rows.zipIdx).map fun p => (d.rowBlk * 4096 + p.2 * 32, (p.1.map (bytesOf 4)).flatten, tag p.2)) ++
  (if r.cols.isEmpty then [] else [(d.rowBlk * 4096 + 0x1000, (r.cols.map (bytesOf 4)).flatten, allTag)])

end Sys2Proof.Machine
end

