-- ==== Sys2Proof/Machine/Engine.lean ====
section
/-! DEFINITION. What engines do with tiles: pull dispatch (R147, R148), checks and their outcomes (R77, R78, R83, R85, R451),
re-runs (R349 to R351), cupping (R352 to R355, R363) and stealing (R151). -/

namespace Sys2Proof.Machine

/-! ## Engines -/

/-- Key of the tile in the array of an engine. -/
def arrKey (die te : Nat) : Nat := die * 16 + te
/-- Key of the tile that drains in an engine. -/
def drnKey (die te : Nat) : Nat := 1152 + die * 16 + te

/-- The tile in an engine's array. -/
def State.inArray (s : State) (die te : Nat) : Option EngRun := NMap.get? s.eng.eng (arrKey die te)
/-- The tile that drains in an engine. -/
def State.inDrain (s : State) (die te : Nat) : Option EngRun := NMap.get? s.eng.eng (drnKey die te)

/-- Whether an engine can take tiles: present, no copy to a spare under way, no self-test chunk on its slot. -/
def State.engineUp (s : State) (die te : Nat) : Bool :=
  s.present die && decide (te < 16) && (s.engSlot die te).isSome && !s.isRetiring die false te &&
  (match NMap.get? s.rel.testing die with
   | some x => x.core || s.engSlot die te != some x.slot
   | none => true)

/-- The logical engine of a command that an engine serves on a die, among a set of them (R357). -/
def Cmd.asServed (c : Cmd) (die te mask : Nat) : Option Nat := (bitsOf 16 mask).find? fun e => c.served die e == te

/-- The engine that serves a tile's own logical engine. -/
def State.firstEng (s : State) (q : Tile) : Nat := match s.cmd? q.ctx q.seq with
  | some c => c.served q.die q.owner
  | none => q.owner

/-- Whether an engine may take a re-run or a copy of a tile that ran on `first` (R349): another one, of the command's claim
where one is free. -/
def State.mayRerun (s : State) (q : Tile) (first te : Nat) : Bool :=
  let claimed : List Nat := match s.cmd? q.ctx q.seq with | some c => c.held q.die | none => []
  te != first && s.engineUp q.die te && (s.inArray q.die te).isNone &&
  (claimed.contains te || !(claimed.any fun e => e != first && s.engineUp q.die e && (s.inArray q.die e).isNone))

/-- Whether a re-run or a copy waits that this engine may take, ahead of every queued tile (R349, R353). -/
def State.urgent (s : State) (die te : Nat) : Bool :=
  (s.eng.reruns.any fun q => q.die == die && s.mayRerun q (s.firstEng q) te) ||
  s.eng.copies.any fun w => w.tile.die == die && w.copy.isNone && s.mayRerun w.tile w.te te

/-- Whether a queued tile may start now: its command runs, no fault holds its tiles, and AFTER is met (R83, R102, R148). -/
def State.tileReady (s : State) (q : Tile) : Bool :=
  (match s.cmd? q.ctx q.seq with | some c => c.phase == .running && !c.failed && !c.noTiles | none => false) &&
  (!q.after || (s.openTickets q.uid).all fun k => decide (q.ticket ≤ k.num))

/-- The first of a list of queued tiles in the order of R139: priority, the time the command became ready, submission. -/
def State.firstTile (s : State) (qs : List Tile) : Option Tile :=
  let ahead (a b : Tile) : Bool := match s.cmd? a.ctx a.seq, s.cmd? b.ctx b.seq with
    | some x, some y => decide (x.prio > y.prio) || (x.prio == y.prio && decide (x.tReady < y.tReady))
    | _, _ => false
  qs.foldl (fun (best : Option Tile) q => match best with
    | none => some q
    | some b => if ahead q b then some q else some b) none

/-- The tile that an engine pulls, and the logical engine it takes it as (R148). -/
def State.nextTile (s : State) (die te : Nat) : Option Tile :=
  s.firstTile (s.eng.tileq.filterMap fun q =>
    if q.die ≠ die ∨ !s.tileReady q then none
    else match s.cmd? q.ctx q.seq with
      | some c => (c.asServed die te q.mask.toNat).map fun e => { q with owner := e, outOwner := e }
      | none => none)

/-- Takes a tile off its queue. -/
def State.dequeue (s : State) (q : Tile) : State :=
  s.modEng fun e => { e with tileq := e.tileq.filter fun x => !(x.uid == q.uid && x.ticket == q.ticket) }

/-- Work arrives in an arithmetic region, or leaves it: its clock runs, and the time is noted (R371). -/
def State.regionWork (s : State) (die te : Nat) : State :=
  let k := die * 2 + (if te ≥ 8 then 1 else 0)
  s.modEng fun e => { e with arithStopped := NMap.erase e.arithStopped k, workAt := NMap.put e.workAt k s.clk.now }

/-! ## Outcomes of checks -/

/-- STATUS, ACTION and SEVERITY of a detection that a check replay answers (R452): kept where the command can be replayed. -/
def checkSig (s : State) (q : Tile) (st : Status) : Sig :=
  let again : Bool := match s.cmd? q.ctx q.seq with | some c => c.replayable && decide (c.replays < 3) | none => false
  (if again then { Sig.blank with action := 2, severity := 1 }
   else { Sig.blank with status := st, action := 4, severity := 2 }).onTile s q

/-- A tile that a check replay answers (R78, R351, R355): its ticket completes with the status, and its command is replayed or
fails. -/
def State.checkFail (s : State) (q : Tile) (st : Status) (fl : BitVec 16) : State :=
  (s.endTicket q.uid q.ticket st fl).replayCmd q.ctx q.seq st true

/-- A tile that its operands or its descriptor stop: the ticket completes with the status (R83, R85, R360); after a tag-mixing
or spent-read fault no further tile of the command starts until the handler acts. -/
def State.stopTile (s : State) (q : Tile) (st : Status) : State :=
  let tag := BitVec.ofNat 32 (Word.fld (q.desc.toList.getD 7 0) 31 0)
  let s := s.closeTicket q.tid q.uid q.ctx q.seq q.ticket st 0 tag false
  if st = 0x410A ∨ st = 0x210B then s.modCmd q.ctx q.seq fun c => { c with noTiles := true } else s

/-- Counts what a tile's reads met, each in its own counter, with the signature of a parity error (R83, R85, R451). -/
def State.metCount (s : State) (q : Tile) (d : Desc) (m : Met) (os : Nat) : State :=
  let s := if m.spent then s.cnt q.die 5 1 else s
  let s := match m.mix with
    | some (a, b) => (s.cnt q.die 4 1).modRel fun r => { r with tagLog := r.tagLog ++ [(q.die, [d.mOff, d.nOff, d.kOff], a, b)] }
    | none => s
  if m.parity then s.holdParity q.die os (checkSig s q 0x3705) else s

/-! ## Starting a run -/

/-- The slots that a tile's operands and output are in. -/
def State.tileSlots (s : State) (q : Tile) : Nat × Nat :=
  ((s.cmdSlot q.die q.ctx q.seq q.owner).getD 0, (s.cmdSlot q.srcDie q.ctx q.seq q.outOwner).getD 0)

/-- The anchor of a tile (R40, R135). -/
def State.tileAnchor (s : State) (q : Tile) (d : Desc) : Int := match s.cmd? q.ctx q.seq with
  | some c => if c.anchorMode = 0 then d.anchor else c.anchor.getD d.anchor
  | none => d.anchor

/-- Whether a tile is cupped (R352): the first that a die runs for a command, every one of a check replay, or one drawn. -/
def State.cupTile (s : State) (q : Tile) (draw : Bool) : Bool :=
  !s.eng.cupFirst.contains (q.die, q.ctx, q.seq) || draw ||
  (match s.cmd? q.ctx q.seq with | some c => c.check | none => false)

/-- A valid tile starts in an engine: its operands are read, and where they meet nothing its K phase runs (R54, R60). `first` is
false for a re-run. -/
def State.runTile (s : State) (q : Tile) (te : Nat) (draw first : Bool) (u : Upset) : State :=
  let d := descOf q.desc
  let (os, ws) := s.tileSlots q
  let inj := s.injectArmed q.die te
  let s := (s.injectTake q.die te).regionWork q.die te
  let m := s.tileMet d os ws u.hold (inj == 3)
  let s := s.metCount q d m os
  if m.status = 0x3705 then s.checkFail q 0x3705 0
  else if m.status ≠ 0 then s.stopTile q m.status
  else
    let anchor := s.tileAnchor q d
    let (accs, fl, unc) := s.kPhase d os ws anchor
    let (rows, all) := match s.tileTags d os ws with | .inl r => r | .inr _ => ([], 255)
    let cup := first && s.cupTile q draw
    let run : EngRun :=
      { tile := q, accs := accs, anchor := anchor, flags := fl, rowTags := rows, allTag := all, uncovered := unc, cupped := cup
        inject := inj, regions := (d.regions os ws).map (·.2), upset := d.overlaps os ws, started := s.clk.now
        startCyc := s.cyc q.die (if te ≥ 8 then 1 else 0) }
    s.modEng fun e => { e with
      eng := NMap.put e.eng (arrKey q.die te) run
      cupFirst := if first && !e.cupFirst.contains (q.die, q.ctx, q.seq) then e.cupFirst ++ [(q.die, q.ctx, q.seq)] else e.cupFirst
      copies := if cup then e.copies ++ [{ tile := q, te := te, slot := (s.slotKey q.die te).getD 0, orig := none, copy := none }]
        else e.copies }

/-- An engine takes a tile: validation, then the run (R63). -/
def State.takeTile (s : State) (q : Tile) (te : Nat) (draw : Bool) (u : Upset) : State :=
  if (descOf q.desc).valid then s.runTile q te draw true u else s.stopTile q 0x6601

/-- A tile enters drain. A copy of a tile whose inputs do not outlive its output must have begun by then (R353). -/
def State.enterDrain (s : State) (die te : Nat) (r : EngRun) : State :=
  let late (w : CupWait) : Bool := w.tile.uid == r.tile.uid && w.tile.ticket == r.tile.ticket && w.copy.isNone
  let skip := r.cupped && (descOf r.tile.desc).sensitive && s.eng.copies.any late
  let s := s.modEng fun e => { e with
    eng := NMap.put (NMap.erase e.eng (arrKey die te)) (drnKey die te) r
    copies := if skip then e.copies.filter fun w => !late w else e.copies }
  if skip then (s.cnt die 6 1).modCmd r.tile.ctx r.tile.seq fun c => { c with
    counts := { c.counts with cupSkipped := c.counts.cupSkipped + 1 } }
  else s

/-! ## Drained outputs -/

/-- Bytes that nothing constrains. -/
def freeBytes (seed n : Nat) : List Byte := (List.range n).map fun i => BitVec.ofNat 8 (Config.freeWord (seed + i)).toNat

/-- The output of a run: drained, finished and packed; unpredictable where a write met its regions (R65). -/
def State.runOut (s : State) (r : EngRun) : TileOut × State :=
  let d := descOf r.tile.desc
  let (os, ws) := s.tileSlots r.tile
  let c := s.cmd? r.tile.ctx r.tile.seq
  let sat : Bool := match c with | some c => c.sat | none => true
  let bank := match c with | some c => NMap.getD c.finBanks r.tile.srcDie 0 | none => 0
  let ps := match d.region os ws 4 with | some g => s.regRow g 0 | none => []
  let words (m : Nat) : List Nat := match d.region os ws 7 with
    | some g => (List.range 8).map fun i => rdLE (s.holdRead ws (g.start + m * 32 + 4 * i) 4) 0 4
    | none => []
  let dr := drainTile (s.finImage r.tile.die bank) d sat r.anchor (fun m n => LS.ofBits (NMap.getD r.accs (m * 64 + n) 0)) ps words
  let wr := s.tileWrites d ws r.rowTags r.allTag dr
  if r.upset then
    let n := sumNat (wr.map fun w => w.2.1.length)
    let free := (wr.foldl (fun (a : Nat × List (Nat × List Byte × Nat)) w =>
      (a.1 + w.2.1.length, a.2 ++ [(w.1, freeBytes a.1 w.2.1.length, w.2.2)])) (s.fresh, [])).2
    ({ writes := free, flags := BitVec.ofNat 16 ((Config.freeWord (s.fresh + n)).toNat % 0x200) }, s.drawn (n + 1))
  else ({ writes := wr, flags := r.flags ||| dr.flags }, s)

/-- A fault that no check covers (R346): bytes of the output, counted from its first write on, XORed with values. -/
def TileOut.spoil (o : TileOut) (defect : List (Nat × BitVec 8)) : TileOut :=
  { o with writes := (o.writes.foldl (fun (a : Nat × List (Nat × List Byte × Nat)) w =>
      (a.1 + w.2.1.length, a.2 ++ [(w.1, w.2.1.zipIdx.map fun p =>
        defect.foldl (fun b x => if x.1 = a.1 + p.2 then b ^^^ x.2 else b) p.1, w.2.2)])) (0, [])).2 }

/-- Writes an output to its hold (R77, R79). -/
def State.releaseOut (s : State) (slot : Nat) (o : TileOut) : State :=
  o.writes.foldl (fun s w => s.holdWrite slot w.1 w.2.1 w.2.2) s

/-- K-phase cycles of a run: 5/4 of the full rate's for one that reads another engine's hold (R60). -/
def kCycles (d : Desc) (apart : Bool) : Nat := if apart then (d.phases.2.1 * 5 + 3) / 4 else d.phases.2.1

/-- Counts a run that ends (Tables 18.2 and 18.4). -/
def State.countRun (s : State) (q : Tile) (d : Desc) (apart : Bool) (unc : Nat) : State :=
  let b := (s.cmd? q.ctx q.seq).map (·.berth)
  let k := kCycles d apart
  ((((s.cnt q.die 0 k).cnt q.die 1 1).cnt q.die 3 unc).pmc q.die 1 k b).pmc q.die 2 1 b

/-- A tile's output is accepted: its flags and counts join its command's (R50, Table 18.7). -/
def State.acceptTile (s : State) (q : Tile) (d : Desc) (fl : BitVec 16) (unc : Nat) : State :=
  s.modCmd q.ctx q.seq fun c => { c with
    flags := c.flags ||| fl
    counts := { c.counts with
      tiles := c.counts.tiles + 1, kCyc := c.counts.kCyc + d.phases.2.1, resUncovered := c.counts.resUncovered + unc } }

/-- A tile's trace record (Table 18.8). -/
def State.traceTile (s : State) (r : EngRun) (te : Nat) (st : Status) (fl : BitVec 16) : State :=
  let q := r.tile
  let d := descOf q.desc
  let reg := if te ≥ 8 then 1 else 0
  s.trace q.die { TraceRec.blank 1 with
    tSpan := s.clk.now - r.started, cycSpan := s.cyc q.die reg - r.startCyc, unit := te, region := reg, ctx := q.ctx
    berth := (match s.cmd? q.ctx q.seq with | some c => c.berth | none => 0), seq := q.seq, tag := BitVec.ofNat 32 d.tag, status := st
    data := [BitVec.ofNat 32 d.mOff, BitVec.ofNat 32 d.nOff, BitVec.ofNat 32 d.kOff, BitVec.ofNat 32 fl.toNat] }

/-! ## Cupping (R352 to R355, R363) -/

/-- What tells a tile from the others of its command, in a mismatch. -/
def Tile.key (q : Tile) : List Nat :=
  let d := descOf q.desc
  [d.mOff, d.nOff, d.kOff, d.tag]

/-- Whether two outputs agree (R353): every byte, and every flag but ACC_OVF. -/
def TileOut.agrees (a b : TileOut) : Bool := a.writes == b.writes && flagsCompared a.flags == flagsCompared b.flags

/-- Compares a cupped tile with its copy and completes its ticket; a mismatch stops the command (R355, R358, R363). -/
def State.compareCup (s : State) (w : CupWait) (o : TileOut) (cp : TileOut) (slot2 : Nat) : State :=
  let q := w.tile
  let s := s.modEng fun e => { e with copies := e.copies.filter fun x => !(x.tile.uid == q.uid && x.tile.ticket == q.ticket) }
  let tag := BitVec.ofNat 32 (descOf q.desc).tag
  match s.cmd? q.ctx q.seq with
  | none => s
  | some c =>
    if o.agrees cp then
      let s := if c.check then s.modEng fun e => { e with
          mism := e.mism.map fun m => if m.ctx == q.ctx && m.seq == q.seq && m.die == q.die && m.key == q.key
            then { m with accepted := some o.writes } else m }
        else s
      s.closeTicket q.tid q.uid q.ctx q.seq q.ticket 0 o.flags tag false
    else if c.check then
      let g : Sig := { Sig.blank.onTile s q with status := 0x3704, action := 4, severity := 2, flags := o.flags }
      let s := (s.detectUnit q.die false (slot2 % 20) 7 g).tallySlot q.die w.slot 7 g
      (s.endTicket q.uid q.ticket 0x3704 o.flags).failCmd q.ctx q.seq 0x3704
    else
      let g : Sig := { checkSig s q 0x3703 with flags := o.flags }
      if g.action = 2 then
        let s := (s.signSlot q.die slot2 6 g).modEng fun e => { e with
          mism := e.mism ++ [{ ctx := q.ctx, seq := q.seq, die := q.die, key := q.key
                               outs := [(w.slot, o.writes), (slot2, cp.writes)], accepted := none }] }
        s.checkFail q 0x3703 o.flags
      else ((s.detectUnit q.die false (slot2 % 20) 6 g).tallySlot q.die w.slot 6 g).checkFail q 0x3703 o.flags

/-- An output that agrees with none. -/
def TileOut.none : TileOut := { writes := [(holdSize, [], 0)], flags := 0 }

/-! ## The rows -/

/-- TILE_DISPATCH: an idle engine, or one whose tile enters drain, takes the first eligible tile (R148). A tile that loads raw
long-sums waits for the drain before it (R56). -/
def execTileDispatch (die te : Nat) (draw : Bool) (u : Upset) (s : State) : Out :=
  need (s.engineUp die te) .noSuchUnit <|
  need (!s.urgent die te) .notPending <|
  needSome (s.nextTile die te) .notPending fun q =>
  match s.inArray die te with
  | none =>
    need (!((descOf q.desc).accInit && (s.inDrain die te).isSome)) .notPending (.next ((s.dequeue q).takeTile q te draw u))
  | some r =>
    need ((s.inDrain die te).isNone && !(descOf q.desc).accInit) .notPending
      (.next (((s.enterDrain die te r).dequeue q).takeTile q te draw u))

/-- The end of a run whose checks failed (R77, R349, R351): a first failure is re-run, unless its raw input is gone. -/
def State.runFailed (s : State) (r : EngRun) (te : Nat) (x : Detect) : State :=
  let q := r.tile
  let slot := (s.engSlot q.die te).getD 0
  let res (g : Sig) : Sig := { g with
    resExp := x.expected, resObs := x.observed, resIndex := x.index, resAxis := x.axis, flags := r.flags }
  if q.kind ≠ 1 ∧ !(descOf q.desc).accInit then
    let g : Sig := { Sig.blank with action := 1, severity := 1 }
    let s := s.detectUnit q.die false slot x.mech (res (g.onTile s q))
    match s.cmd? q.ctx q.seq with
    | some c => if c.phase.holds && !c.failed && c.trigger == 0
      then s.modEng fun e => { e with reruns := e.reruns ++ [{ q with kind := 1 }] } else s
    | none => s
  else (s.detectUnit q.die false slot x.mech (res (checkSig s q 0x3702))).checkFail q 0x3702 r.flags

/-- The residues that an injected fault shows: their values are open (R87, log entry 6). -/
def State.injected (s : State) (kind : Nat) : Detect :=
  { mech := if kind = 1 then 1 else 3, axis := 0, index := 0, expected := (Config.freeWord s.fresh).toNat % 8191
    observed := (Config.freeWord (s.fresh + 1)).toNat % 8191 }

/-- The end of a run whose checks passed: the output is released, and the ticket completes unless a copy is to be compared. -/
def State.runPassed (s : State) (r : EngRun) (te : Nat) (defect : List (Nat × BitVec 8)) : State :=
  let q := r.tile
  let d := descOf q.desc
  let (o, s) := s.runOut r
  let o := o.spoil defect
  let s := if r.upset then ((s.cnt q.die 2 (Config.freeWord s.fresh).toNat).modCmd q.ctx q.seq fun c => { c with
      counts := { c.counts with holdStall := c.counts.holdStall + (Config.freeWord s.fresh).toNat } }).drawn 1 else s
  let s := ((s.releaseOut (s.tileSlots q).2 o).acceptTile q d o.flags r.uncovered).traceTile r te 0 o.flags
  match s.eng.copies.find? fun w => w.tile.uid == q.uid && w.tile.ticket == q.ticket with
  | some w => match w.copy with
    | some (cp, slot2, _) => s.compareCup w o cp slot2
    | none => s.modEng fun e => { e with
        copies := e.copies.map fun x => if x.tile.uid == q.uid && x.tile.ticket == q.ticket then { x with orig := some o } else x }
  | none => s.closeTicket q.tid q.uid q.ctx q.seq q.ticket 0 o.flags (BitVec.ofNat 32 d.tag) false

/-- The run of an engine that ends next: the one that drains, else the one in its array. -/
def State.endingRun (s : State) (die te : Nat) : Option EngRun := match s.inDrain die te with
  | some r => some r
  | none => s.inArray die te

/-- TILE_COMPLETE: drain and comparisons end. `det` is what the residue or tag comparators found, `defect` what no check
covers. -/
def execTileComplete (die te : Nat) (det : Option Detect) (defect : List (Nat × BitVec 8)) (s : State) : Out :=
  needSome (s.endingRun die te) .notInFlight fun r =>
  .next (
    let s := if (s.inDrain die te).isSome then s else s.enterDrain die te r
    let s := s.modEng fun e => { e with eng := NMap.erase e.eng (drnKey die te) }
    let q := r.tile
    let again := decide (q.kind = 1)
    let s := (s.regionWork die te).countRun q (descOf q.desc) again r.uncovered
    let s := if again then ((s.cnt die 7 1).pmc die 4 1 ((s.cmd? q.ctx q.seq).map (·.berth))).modCmd q.ctx q.seq fun c => { c with
        counts := { c.counts with reruns := c.counts.reruns + 1 } } else s
    let x : Option Detect := match det with
      | some y => some y
      | none => if r.inject = 1 ∨ r.inject = 2 then some (s.injected r.inject) else none
    let s := match x with
      | some y => (s.drawn 2).runFailed r te y
      | none => s.runPassed r te defect
    s.tileBoundary die)

/-- RE_RUN: the oldest failed tile of the die that this engine may take runs on it, reading the first engine's hold (R60). -/
def execReRun (die te : Nat) (u : Upset) (s : State) : Out :=
  need (s.engineUp die te && (s.inArray die te).isNone) .noSuchUnit <|
  needSome (s.eng.reruns.find? fun q => q.die == die && s.mayRerun q (s.firstEng q) te) .notPending fun q =>
  .next ((s.modEng fun e => { e with reruns := removeFirst (fun x => x.uid == q.uid && x.ticket == q.ticket) e.reruns }).runTile q te
    false false u)

/-- What a copy's run gives: its output, or a check that stops it. -/
def State.copyRun (s : State) (w : CupWait) (te : Nat) (det : Option Detect) (defect : List (Nat × BitVec 8)) (u : Upset) : State :=
  let q := { w.tile with kind := 2 }
  let d := descOf q.desc
  let (os, ws) := s.tileSlots q
  let inj := s.injectArmed q.die te
  let slot2 := (s.slotKey q.die te).getD 0
  let s := (s.injectTake q.die te).regionWork q.die te
  let m := s.tileMet d os ws u.hold (inj == 3)
  let anchor := s.tileAnchor q d
  let (accs, fl, unc) := s.kPhase d os ws anchor
  let s := (s.countRun q d true unc).pmc q.die 5 1 ((s.cmd? q.ctx q.seq).map (·.berth))
  let s := s.modCmd q.ctx q.seq fun c => { c with counts := { c.counts with cupped := c.counts.cupped + 1 } }
  let drop (s : State) : State :=
    s.modEng fun e => { e with copies := e.copies.filter fun x => !(x.tile.uid == q.uid && x.tile.ticket == q.ticket) }
  if m.parity then (drop (s.metCount q d m os)).checkFail q 0x3705 fl
  else
    let (rows, all) := match s.tileTags d os ws with | .inl r => r | .inr _ => ([], 255)
    let run : EngRun :=
      { tile := q, accs := accs, anchor := anchor, flags := fl, rowTags := rows, allTag := all, uncovered := unc, cupped := false
        inject := 0, regions := [], upset := false, started := s.clk.now, startCyc := 0 }
    let (o, s) := if m.status = 0 then let r := s.runOut run; (r.1.spoil defect, r.2) else (TileOut.none, s.metCount q d m os)
    let x : Option Detect := match det with
      | some y => some y
      | none => if inj = 1 ∨ inj = 2 then some (s.injected inj) else none
    let (o, s) := match x with
      | some y => (TileOut.none, (s.drawn 2).detectUnit q.die false (slot2 % 20) y.mech
          { checkSig s q 0x3703 with resExp := y.expected, resObs := y.observed, resIndex := y.index, resAxis := y.axis, flags := fl })
      | none => (o, s)
    match w.orig with
    | some orig => s.compareCup w orig o slot2
    | none => s.modEng fun e => { e with
        copies := e.copies.map fun y => if y.tile.uid == q.uid && y.tile.ticket == q.ticket then { y with copy := some (o, slot2, te) }
          else y }

/-- CUPPING_COPY: a cupped tile's copy runs on this engine and drains; it is compared as soon as the original has drained too.
A copy that its own checks stop agrees with nothing. -/
def execCuppingCopy (die te : Nat) (det : Option Detect) (defect : List (Nat × BitVec 8)) (u : Upset) (s : State) : Out :=
  need (s.engineUp die te && (s.inArray die te).isNone) .noSuchUnit <|
  needSome (s.eng.copies.find? fun w => w.tile.die == die && w.copy.isNone && s.mayRerun w.tile w.te te) .notPending fun w =>
  .next ((s.copyRun w te det defect u).tileBoundary die)

/-! ## Stealing (R151) -/

/-- Sectors that a region spans. -/
def TileReg.span (g : TileReg) : Nat := ((g.rows - 1) * g.pitch + g.bytes + 31) / 32

/-- Whether two dies are one cut or bypass-cut hop apart. -/
def State.oneHop (s : State) (a b : Nat) : Bool := (List.range 6).any fun p => match s.cutPeer a p with
  | some (r, _) => r == b
  | none => false

/-- The operand, scale and parameter regions of a tile on its own die. -/
def State.stolenRegs (s : State) (q : Tile) (d : Desc) : List (Nat × TileReg) :=
  let slot := (s.cmdSlot q.die q.ctx q.seq q.owner).getD 0
  (d.regions slot slot).filter fun g => decide (g.1 ≤ 4)

/-- Whether an engine may steal a tile (R151): claimed there, ACC_INIT clear, ROWFN zero, room in the steal region, and a copy
time of no more than half the K phase at the region's ratio. -/
def State.stealable (s : State) (die te : Nat) (q : Tile) : Bool := match s.cmd? q.ctx q.seq with
  | none => false
  | some c =>
    let d := descOf q.desc
    let n := sumNat ((s.stolenRegs q d).map fun g => g.2.span)
    let st := s.reg (dieBase die + 0x308)
    let ratio := if te ≥ 8 then Word.fld st 47 42 else Word.fld st 41 36
    c.steal && c.dies.contains die && c.dies.contains q.die && (c.asServed die te c.claim).isSome && s.tileReady q && d.valid &&
    !d.accInit && d.rowfn == 0 && decide (n ≤ Word.fld (c.word 6) 44 26) &&
    decide (n * 32 * 2 * ratio ≤ d.phases.2.1 * 6144)

/-- Copies a region sector by sector, tags kept. -/
def State.copyRegion (s : State) (g : TileReg) (dst sec : Nat) : State :=
  (List.range g.span).foldl (fun (s : State) k =>
    let x := s.side g.slot (g.start + 32 * k)
    s.holdPut dst ((sec + k) * 32) (s.holdRead g.slot (g.start + 32 * k) 32) x.tag x.poison) s

/-- A descriptor with the SEC field of one region rebased. -/
def rebase (ws : Vector Word 8) (k sec : Nat) : Vector Word 8 :=
  let set (i hi lo : Nat) : Vector Word 8 := ws.setIfInBounds i (Word.setFld (ws.toList.getD i 0) hi lo sec)
  match k with
  | 0 => set 3 17 0
  | 1 => set 3 35 18
  | 2 => set 4 17 0
  | 3 => set 4 35 18
  | _ => set 6 17 0

/-- Steals a tile: its regions are copied to the steal region of engine `te`'s hold, where they meet nothing, and it runs there. -/
def State.stealTile (s : State) (die te : Nat) (q : Tile) (c : Cmd) (u : Upset) : State :=
  let d := descOf q.desc
  let (os, ws) := s.tileSlots q
  let s := (s.dequeue q).modCmd q.ctx q.seq fun c => { c with cflags := c.cflags ||| 4 }
  let m := s.tileMet d os ws u.hold false
  if m.status = 0x3705 then (s.metCount q d m os).checkFail q 0x3705 0
  else if m.status ≠ 0 then (s.metCount q d m os).stopTile q m.status
  else
    let e := (c.asServed die te c.claim).getD te
    let dst := (s.cmdSlot die q.ctx q.seq e).getD 0
    let regs := s.stolenRegs q d
    let (s, desc, fin) := regs.foldl (fun (a : State × Vector Word 8 × Nat) g =>
      (a.1.copyRegion g.2 dst a.2.2, rebase a.2.1 g.1 a.2.2, a.2.2 + g.2.span)) (s, q.desc, Word.fld (c.word 6) 25 8)
    let n := fin - Word.fld (c.word 6) 25 8
    let s := ((s.cnt die 9 n).pmc die 0x20 n (some c.berth)).modCmd q.ctx q.seq fun c => { c with
      counts := { c.counts with bargeSect := c.counts.bargeSect + n } }
    s.runTile { q with die := die, owner := e, desc := desc, kind := 3 } te false true {}

/-- TILE_STEAL: an engine with no eligible tile of its own takes one of a neighbouring die of the set. The regions stand in the
steal region one after another in the order A, A scales, B, B scales, parameters (log entry 6). -/
def execTileSteal (die te src : Nat) (u : Upset) (s : State) : Out :=
  need (s.engineUp die te && (s.inArray die te).isNone) .noSuchUnit <|
  need (die != src && s.oneHop die src && !s.urgent die te && (s.nextTile die te).isNone) .notPending <|
  let cands := s.eng.tileq.filterMap fun q =>
    let low := (bitsOf 16 q.mask.toNat).headD 0
    let q' := { q with owner := low, outOwner := low }
    if q.die = src ∧ s.stealable die te q' then some q' else none
  needSome (s.firstTile cands) .notPending fun q =>
  needSome (s.cmd? q.ctx q.seq) .notPending fun c =>
  .next (s.stealTile die te q c u)

end Sys2Proof.Machine
end

