-- ==== Sys2Proof/Machine/Units.lean ====
section
/-! DEFINITION. Upkeep of engines and cores: stopped arithmetic clocks (R371), slack windows (R150), unit retirement (R364)
and idle-slot self tests (R367). -/

namespace Sys2Proof.Machine

/-- The logical engines of a region. -/
def regionEngines (east : Bool) : List Nat := (List.range 8).map fun j => if east then j + 8 else j

/-- Whether an engine has a tile in its array or in drain. -/
def State.engineRuns (s : State) (die te : Nat) : Bool := (s.inArray die te).isSome || (s.inDrain die te).isSome

/-- ARITH_IDLE_STOP: a region with no work for 10 µs stops its clock (R371). -/
def execArithIdleStop (die : Nat) (east : Bool) (s : State) : Out :=
  let k := die * 2 + (if east then 1 else 0)
  need (s.present die) .noSuchUnit <|
  need (!NMap.has s.eng.arithStopped k && (regionEngines east).all fun te => !s.engineRuns die te) .notPending <|
  need ((match NMap.get? s.rel.testing die with
    | some x => x.core || !((regionEngines east).any fun te => s.engSlot die te == some x.slot)
    | none => true) && decide (NMap.getD s.eng.workAt k 0 + 10000 ≤ s.clk.now)) .notArmed <|
  .next (s.modEng fun e => { e with arithStopped := NMap.put e.arithStopped k () })

/-! ## Slack (R150) -/

/-- Twice the median of a list of rates: of an even number, the sum of the middle two. -/
def twiceMedian (l : List Nat) : Nat :=
  let l := sortBy id l
  l.getD ((l.length - 1) / 2) 0 + l.getD (l.length / 2) 0

/-- Whether a command runs on a unit of a die. -/
def State.runsOn (s : State) (c : Cmd) (die : Nat) (core : Bool) (lunit : Nat) : Bool :=
  if core then s.thr.threads.any fun e => coreOfThr e.1 == die * 32 + lunit && e.2.ctx == c.ctx && e.2.seq == c.seq
  else (c.held die).contains lunit

/-- Raises a slack event of one unit: the log entry, the counter, the trace record, and SLACK in the records of the commands
that run on it. -/
def State.slack (s : State) (die : Nat) (r : UnitRate) : State :=
  let east := decide (r.lunit ≥ (if r.core then 16 else 8))
  let g := Sig.blank.onDie s die east
  let slot := (if r.core then s.coreSlot die r.lunit else s.engSlot die r.lunit).getD 0xFFFF
  let s := (s.event 5 (s.siteNum die) slot (g.grade * 2 ^ 56 + g.ratio * 2 ^ 48 + g.droop1ms) 0).cnt die 21 1
  let s := s.trace die { TraceRec.blank 9 with unit := r.lunit, region := if east then 1 else 0 }
  ((s.cmdsOn die).filter fun c => s.runsOn c die r.core r.lunit).foldl (fun (s : State) c =>
    s.modCmd c.ctx c.seq fun c => { c with cflags := c.cflags ||| 8 }) s

/-- SLACK_WINDOW: each unit that had work is compared with the median of its kind on the die. -/
def execSlackWindow (die : Nat) (rates : List UnitRate) (s : State) : Out :=
  need (s.present die) .noSuchUnit <|
  let slow (core : Bool) : List UnitRate :=
    let rs := rates.filter fun r => r.core == core && r.worked && (if core then s.coreSlot die r.lunit else s.engSlot die r.lunit).isSome
    rs.filter fun r => decide (200 * r.rate < 70 * twiceMedian (rs.map (·.rate)))
  .next ((slow false ++ slow true).foldl (fun (s : State) r => s.slack die r) s)

/-! ## Retirement (R364) -/

/-- Copies a hold to another slot, with tags and marks. -/
def State.moveHold (s : State) (src dst : Nat) : State :=
  s.modEng fun e => { e with
    hold := NMap.putAll (NMap.keep e.hold fun k _ => k / holdSize != dst)
      ((e.hold.filter fun p => p.1 / holdSize == src).map fun p => (holdKey dst (p.1 % holdSize), p.2))
    side := NMap.putAll (NMap.keep e.side fun k _ => k / holdSize != dst)
      ((e.side.filter fun p => p.1 / holdSize == src).map fun p => (holdKey dst (p.1 % holdSize), p.2))
    holdTag := NMap.set 0 e.holdTag dst (NMap.getD e.holdTag src 0) }

/-- Threads of a core run again where their command does. -/
def State.thawCore (s : State) (die lunit : Nat) : State :=
  let runs (t : Thread) : Bool := t.handler || (match s.cmd? t.ctx t.seq with | some c => c.phase == .running | none => false)
  s.modThr fun x => { x with
    threads := NMap.mapV x.threads fun tid t => if coreOfThr tid == die * 32 + lunit && runs t then { t with frozen := false } else t }

/-- UNIT_RETIREMENT_DONE: the running tile has ended and the copy is done; the logical number passes to the spare. -/
def execUnitRetirementDone (die : Nat) (core : Bool) (lunit : Nat) (s : State) : Out :=
  needSome (s.rel.retiring.find? fun q => q.1 == die && q.2.1 == core && q.2.2.1 == lunit) .notPending fun q =>
  need (core || !s.engineRuns die lunit) .notPending <|
  let old := s.slotKey die lunit
  let s := (s.modRel fun r => { r with retiring := r.retiring.filter (· != q) }).setUnitPos die core lunit q.2.2.2
  .next (
    if core then s.thawCore die lunit
    else
      let s := match old, s.slotKey die lunit with
        | some a, some b => s.moveHold a b
        | _, _ => s
      s.regrade die (decide (lunit ≥ 8)))

/-! ## Self tests (R367) -/

/-- Key of a slot's test records. -/
def testKey (die : Nat) (core : Bool) (slot : Nat) : Nat := (die * 2 + (if core then 1 else 0)) * 64 + slot

/-- Whether a slot that runs a logical unit is idle. -/
def State.slotIdle (s : State) (die : Nat) (core : Bool) (slot : Nat) : Bool := match s.unitAt die core slot with
  | none => false
  | some j => if core then s.thr.threads.all fun e => coreOfThr e.1 != die * 32 + j else !s.engineRuns die j

/-- The slots of a die that run logical units: (core, slot). -/
def State.testSlots (s : State) (die : Nat) : List (Bool × Nat) :=
  ((s.engines die).filterMap fun j => (s.engSlot die j).map fun k => (false, k)) ++
  ((s.cores die).filterMap fun g => (s.coreSlot die g).map fun k => (true, k))

/-- SELFTEST_START: the idle slot whose last completed test is oldest runs its next chunk. -/
def execSelftestStart (die : Nat) (core : Bool) (slot : Nat) (s : State) : Out :=
  need (s.present die) .noSuchUnit <|
  let age (x : Bool × Nat) : Nat := NMap.getD s.rel.testAge (testKey die x.1 x.2) 0
  need (s.rel.selftest && !NMap.has s.rel.testing die && s.slotIdle die core slot &&
    (s.testSlots die).all fun x => !s.slotIdle die x.1 x.2 || decide (age (core, slot) ≤ age x)) .notPending <|
  .next (s.modRel fun r => { r with
    testing := NMap.put r.testing die { core := core, slot := slot, chunk := NMap.getD r.testDone (testKey die core slot) 0 } })

/-- SELFTEST_CHUNK_END: the chunk counts; a failed one adds a detection (MECH 0x14). An engine's test has 8 chunks, a core's 4;
after the last the die is free for another. -/
def execSelftestChunkEnd (die : Nat) (pass : Bool) (s : State) : Out :=
  needSome (NMap.get? s.rel.testing die) .notInFlight fun x =>
  let k := testKey die x.core x.slot
  let last := decide (x.chunk + 1 ≥ (if x.core then 4 else 8))
  let s := s.modRel fun r => { r with
    testing := if last then NMap.erase r.testing die else NMap.put r.testing die { x with chunk := x.chunk + 1 }
    testDone := if last then NMap.erase r.testDone k else NMap.put r.testDone k (x.chunk + 1)
    testAge := if last then NMap.put r.testAge k s.clk.now else r.testAge }
  .next (if pass then s else s.detectUnit die x.core x.slot 0x14 Sig.blank)

/-- SELFTEST_ABANDON: work arrives for the unit, which takes it; the chunk is repeated whole later. -/
def execSelftestAbandon (die : Nat) (s : State) : Out :=
  need (NMap.has s.rel.testing die) .notInFlight (.next (s.modRel fun r => { r with testing := NMap.erase r.testing die }))

end Sys2Proof.Machine
end

