-- ==== Sys2Proof/Machine/Dram.lean ====
section
/-! DEFINITION. The bonded DRAM's own events (chapter 8): patrol scrub (R216), refresh (R217), thermal states (R218, R219). -/

namespace Sys2Proof.Machine

/-- Reads a stored sector, with the errors that hit it first, and writes it back as decoded (R216, R220): corrected, as stored
poison, or in stored-zero form. -/
def State.sectRewrite (s : State) (sa : Nat) (dram : List (Nat × Nat × BitVec 8)) : Decode × State :=
  let m0 := s.sect sa
  let m := { m0 with errs := m0.errs ++ ((dram.filter (·.1 == sa)).map fun e => e.2) }
  let put (m : SecMeta) : State := s.modMem fun q => { q with sect := NMap.set SecMeta.fresh q.sect sa m }
  let out := decodeSector (s.pot (sa / 0x10000)).guard m.errVec
  (out, match out with
    | .dataFixed _ _ => put { m with errs := [] }
    | .zerosFixed _ => put { m with errs := [] }
    | .detected => put { m with errs := [], poison := true, zero := false }
    | _ => put m)

/-- PATROL_SCRUB: one sector of an in-service die. -/
def execPatrolScrub (die sector : Nat) (u : Upset) (s : State) : Out :=
  need (s.present die && isDram sector && homeOf sector == die && sector % 32 == 0) .noSuchUnit <|
  need (!s.stopHeat die) .blockDown <|
  let s := (s.cnt die 10 1).pmc die 0x30 1 none
  let (out, s) := s.sectRewrite sector u.dram
  let wrote (s : State) : State := (s.cnt die 11 1).pmc die 0x31 1 none
  .next (match out with
    | .dataFixed p _ => wrote (s.dramReport sector 8 p true)
    | .zerosFixed p => wrote (s.dramReport sector 8 p true)
    | .detected => wrote (s.dramReport sector (if (s.pot (sector / 0x10000)).guard then 0x0A else 9) 0x7F true)
    | _ => s)

/-- Key of a DRAM row's refresh time; rows 512 to 515 are the spares. -/
def refreshKey (die chan layer bank row : Nat) : Nat := (((die * 64 + chan) * 16 + layer) * 64 + bank) * 1024 + row

/-- DRAM_REFRESH: a row is refreshed; the interval that its time is to keep is 32 ms, or 16 ms from WARM on. -/
def execDramRefresh (die chan layer bank row : Nat) (s : State) : Out :=
  need (s.present die && decide (chan < 64 ∧ layer < 12 ∧ bank < 64 ∧ row < 516)) .noSuchUnit <|
  .next (s.modMem fun m => { m with refreshed := NMap.put m.refreshed (refreshKey die chan layer bank row) s.clk.now })

/-- Order of the thermal states. -/
def DramHeat.rank : DramHeat → Nat
  | .normal => 0
  | .warm => 1
  | .throttle => 2
  | .stop => 3

/-- The state of a rank. -/
def heatOf (n : Nat) : DramHeat := match n with
  | 0 => .normal
  | 1 => .warm
  | 2 => .throttle
  | _ => .stop

/-- The thermal state after a sample in 0.25 °C (Table 8.7). -/
def heatNext (old : DramHeat) (q : Int) : DramHeat :=
  let up := if q ≥ 440 then 3 else if q ≥ 420 then 2 else if q ≥ 380 then 1 else 0
  let stay := if q ≥ 428 then 3 else if q ≥ 408 then 2 else if q ≥ 368 then 1 else 0
  heatOf (Nat.max up (Nat.min old.rank stay))

/-- Leaving STOP: the queued writes go to the stack, and held reads go on (R219). -/
def State.leaveStop (s : State) (die : Nat) : State :=
  let rs := s.mem.stopReads.filter fun r => r.die == die
  let ws := NMap.getD s.mem.stopWrites die []
  let s := s.modMem fun m => { m with
    stopReads := m.stopReads.filter fun r => r.die != die, stopWrites := NMap.erase m.stopWrites die }
  let s := ws.foldl State.homeClean s
  s.modThr fun x => { x with
    threads := NMap.mapV x.threads fun tid t =>
      if t.wait == .memory && rs.any fun r => r.tid == tid && r.uid == t.uid && r.ticket == 0 then { t with wait := .none } else t }

/-- DRAM_THERMAL_SAMPLE. -/
def execDramThermalSample (die : Nat) (quarterC : Int) (s : State) : Out :=
  need (s.present die) .noSuchUnit <|
  let old := NMap.getD s.mem.heat die .normal
  let new := heatNext old quarterC
  let s := s.modMem fun m => { m with heat := NMap.set .normal m.heat die new }
  let s := if new ≠ old ∧ (new = .throttle ∨ new = .stop) then
      s.event 6 (s.siteNum die) 0xFFFF (ofSigned 8 (quarterC / 4)) 0 else s
  .next (if old = .stop ∧ new ≠ .stop then s.leaveStop die else s)

/-- STOP_READ_TIMEOUT: the `idx`-th read held on a die for 10 ms completes without data, with 0x3301. -/
def execStopReadTimeout (die idx : Nat) (s : State) : Out :=
  needSome (s.mem.stopReads.filter fun r => r.die == die)[idx]? .notInFlight fun r =>
  need (decide (r.since + 10000000 ≤ s.clk.now)) .notArmed <|
  let s := s.modMem fun m => { m with stopReads := removeFirst (· == r) m.stopReads }
  .next (
    if r.uid = 0 then s.reply { Msg.bare .err r.node die r.sector with status := 0x3301 }
    else if r.ticket = 0 then
      match s.thread? r.tid with
      | some t => if t.uid = r.uid then (s.modThread r.tid fun t => { t with wait := .none }).raiseSt r.tid 0 0x3301 else s
      | none => s
    else s.modEng fun e => { e with
      xfers := e.xfers.map fun x => if x.uid == r.uid && x.ticket == r.ticket
        then { x with st := firstSt x.st 0x3301, dead := true } else x })

end Sys2Proof.Machine
end

