-- ==== Sys2Proof/Machine/Cuts.lean ====
section
/-! DEFINITION. What cuts do (chapter 9): frames and replay (R225, R226), training (R227 to R230), forwarding (R233 to R239),
and cuts that go down (R239, R240). -/

namespace Sys2Proof.Machine

/-- A command on a port that a cut is attached to. -/
def State.atCut (s : State) (r p : Nat) (k : Out) : Out :=
  need ((decide (r < 76) || (decide (80 ≤ r) && decide (r < 160))) && decide (p < 10) && s.hasCut r p) .noSuchUnit k

/-! ## Frames -/

/-- One detection on a bundle of a cut side (R226, R229): signature and tally; a full tally adds the bundle to BUNDLE_OFF,
which starts a retrain (R239). -/
def State.bundleBad (s : State) (r p b : Nat) : State :=
  let k : UnitKey := (4, r, p, b)
  let (s, full) := s.tally k 0x10
  let g : Sig := { Sig.blank with
    mech := 0x10, unitKind := 4, unitIndex := b, site := s.routerSiteNum r, ldie := if r < 72 then r else 0xFF
    tally := s.tallyCount k, times := s.tallyTimes k }
  let s := s.sign g
  if full then
    let s := s.sign { g with status := 0, action := 5, severity := 1 }
    let off := s.rfld (cutCtlA r p) 8 0
    if bitAt off b then s else (s.setRfld (cutCtlA r p) 8 0 (off + 2 ^ b)).cutRetrainW r p
  else s

/-- Credits that come back, by share. -/
def addCredits (c : Vector Nat 8) (l : List Nat) : Vector Nat 8 := Vector.ofFn fun i => c.toList.getD i.val 0 + l.getD i.val 0

/-- The control flit of an accepted frame: acknowledged frames leave the replay buffer, a NAK asks for a replay, credits come
back and waiting packets go. -/
def State.cutControl (s : State) (r p : Nat) (f : CutFrame) : State :=
  (s.modCutPort r p fun k => { k with
    ackedSeq := f.ack, replay := k.replay.filter fun e => seqAfter e.1 f.ack
    nakReq := match f.nak with | some n => some n | none => k.nakReq
    credits := addCredits k.credits f.credits }).cutTx r p

/-- A frame arrives with bad bundles: each is counted, signed and tallied, a NAK is requested, and 8 mismatches within 1 µs start
a retrain (R226, R227). -/
def State.cutBad (s : State) (r p : Nat) (bad : List Nat) : State :=
  let a := cutStatA r p
  let s := s.setRfld a 15 0 (Nat.min 0xFFFF (s.rfld a 15 0 + bad.length))
  let now := s.clk.now
  let s := s.modCutPort r p fun k => { k with
    nakSent := true, crcTimes := (bad.map fun _ => now) ++ k.crcTimes.filter fun t => decide (now < t + 1000) }
  let s := bad.foldl (fun (s : State) b => s.bundleBad r p b) s
  if (s.cutPort r p).crcTimes.length ≥ 8 then s.cutRetrainW r p else s

/-- CUT_FRAME: a frame with a bad bundle is discarded, with every later one until the replay, and a NAK is requested; 8
mismatches within 1 µs start a retrain (R227). -/
def execCutFrame (router p : Nat) (f : CutFrame) (s : State) : Out :=
  s.atCut router p <| need (s.cutState router p == 2) .notInFlight <|
  .next (
    let bad := (List.range 9).filter fun b => f.badBundles.contains b && bitAt (s.rfld (cutStatA router p) 52 44) b
    if !bad.isEmpty then s.cutBad router p bad
    else
      let k := s.cutPort router p
      if f.seq ≠ k.rxSeq + 1 then s
      else (s.modCutPort router p fun k => { k with rxSeq := f.seq, lastFwd := f.seq, nakSent := false }).cutControl router p f)

/-- CUT_REPLAY: the transmitter sends its unacknowledged frames again from the first NAKed one; nothing is lost. -/
def execCutReplay (router p : Nat) (s : State) : Out :=
  s.atCut router p <| needSome (s.cutPort router p).nakReq .notPending fun _ =>
  .next (s.modCutPort router p fun k => { k with nakReq := none })

/-! ## Training -/

/-- Set bits of a bundle mask. -/
def bundlesOf (m : Nat) : List Nat := bitsOf 9 m

/-- The WIDTH code of a number of good bundles (Table 9.1). -/
def widthCode (n : Nat) : Nat := if n ≥ 8 then 4 else if n ≥ 6 then 3 else if n ≥ 4 then 2 else if n ≥ 2 then 1 else 0

/-- The version, width code and used mask that a side computes (R228, R229); none where no version is common. -/
def trainResult (off : Nat) (r : CutTrainIn) : Option (Nat × Nat × Nat) :=
  let v := Nat.min 2 r.peerHi
  let both := maskOf ((bundlesOf r.localGood.toNat).filter fun b => !bitAt off b && bitAt r.peerMask.toNat b)
  let w := widthCode (bundlesOf both).length
  if v = 0 ∨ v < r.peerLo then none else some (v, w, maskOf ((bundlesOf both).take (2 * w)))

/-- A training attempt fails: the third in a row takes the cut down (R230). -/
def State.attemptFails (s : State) (r p : Nat) (peer : Option (BitVec 32)) : State :=
  let n := s.rfld (cutStatA r p) 25 24 + 1
  let s := (s.setRfld (cutStatA r p) 25 24 n).modCutPort r p fun k => { k with
    training := none, trained := false, peerSeq := match peer with | some q => some q | none => k.peerSeq }
  if n ≥ 3 then s.cutDown r p none else s

/-- CUT_TRAIN: phases T1 to T5 of one attempt of a training or frozen side. -/
def execCutTrain (router p : Nat) (r : CutTrainIn) (s : State) : Out :=
  s.atCut router p <| need (decide (s.cutState router p = 1 ∨ s.cutState router p = 3)) .notPending <|
  .next (
    let off := (s.cutPort router p).activeOff.toNat
    let own := maskOf ((bundlesOf r.localGood.toNat).filter fun b => !bitAt off b)
    let a := cutStatA router p
    let s := (s.setRfld a 34 26 own).setRfld a 43 35 r.peerMask.toNat
    let s := ((List.range 9).filter fun b => !bitAt r.localGood.toNat b).foldl (fun (s : State) b => s.bundleBad router p b) s
    match trainResult off r with
    | none => s.attemptFails router p (some r.peerSeq)
    | some (_, w, _) =>
      if !r.confirm then s.attemptFails router p (some r.peerSeq)
      else if w = 0 then s.cutDown router p (some r.peerSeq)
      else s.modCutPort router p fun k => { k with training := some r, trained := true, peerSeq := some r.peerSeq })

/-- CUT_TRAIN_DONE: T5 completes. Frames after the peer's last-forwarded sequence are sent again; a side whose receive buffer a
reset cleared asks for what it had not forwarded (R230). -/
def execCutTrainDone (router p : Nat) (s : State) : Out :=
  s.atCut router p <|
  let k := s.cutPort router p
  need (k.trained && decide (s.cutState router p = 1 ∨ s.cutState router p = 3)) .notPending <|
  needSome k.training .notPending fun r =>
  needSome (trainResult k.activeOff.toNat r) .notPending fun x =>
  let a := cutStatA router p
  let st := Word.setFld (Word.setFld (Word.setFld (Word.setFld (Word.setFld (s.reg a) 63 60 2) 59 56 x.1) 55 53 x.2.1) 52 44 x.2.2) 25 24 0
  .next (((s.setReg a st).modCutPort router p fun k => { k with
    training := none, trained := false, nakSent := false, peerSeq := none, nakReq := none, isReset := false
    rxSeq := if k.isReset then k.lastFwd else k.rxSeq
    replay := k.replay.filter fun e => seqAfter e.1 r.peerSeq
    credits := Vector.ofFn fun i => r.credits.getD i.val 0 }).cutTx router p)

/-- CUT_FREEZE_TIMEOUT: an attempt has not completed T5 within 20 µs. A frozen side goes on with its own training. -/
def execCutFreezeTimeout (router p : Nat) (peerSeq : Option (BitVec 32)) (s : State) : Out :=
  s.atCut router p <| need (decide (s.cutState router p = 1 ∨ s.cutState router p = 3)) .notPending <|
  .next (s.attemptFails router p peerSeq)

/-- CUT_DOWN: the site at an end has failed, or FORCE_DOWN is set, or three attempts have (R239). -/
def execCutDown (router p : Nat) (peerSeq : Option (BitVec 32)) (s : State) : Out :=
  s.atCut router p <| need (s.cutState router p != 0) .notPending <|
  need (s.cutFailedEnd router p || s.rbit (cutCtlA router p) 62 || decide (s.rfld (cutStatA router p) 25 24 = 3)) .notArmed <|
  .next (s.cutDown router p peerSeq)

/-- CUT_PORT_RESET: the port's receive buffer, credits and training state are cleared and it trains; what belongs to the
router's reset domain stays (R226, R227). -/
def execCutPortReset (router p : Nat) (s : State) : Out :=
  s.atCut router p <|
  let s := s.modCutPort router p fun k => { k with
    credits := Vector.replicate 8 0, nakSent := false, training := none, trained := false, isReset := true }
  .next (if s.cutState router p = 0 then s else s.cutStart router p)

/-! ## Forwarding -/

/-- The TYPE codes of Table 9.3's list. -/
def cutTypeOk (t : Nat) : Bool := (decide (1 ≤ t) && decide (t ≤ 0x18)) || (decide (0x20 ≤ t) && decide (t ≤ 0x24)) || t == 0x30 ||
  t == 0x31 || t == 0x38

/-- Whether a port code of a router is a north or south link. -/
def isNS (code : Nat) : Bool := code == 1 || code == 2

/-- Sends a packet on from a router that it entered by port code `inCode` (0 local): delivered here, or queued at the port that
its route names, in the detour share from its turn on (R237). A failed site's cut takes only management packets for it. -/
def State.cutForward (s : State) (r inCode : Nat) (k : CutPkt) : State := match s.cutNext r k with
  | none => s
  | some q =>
    let k := { k with detour := k.detour || (isNS inCode && decide (q + 1 ≥ 3)) }
    if s.cutFailedEnd r q ∧ !(k.typ == 0x24 && k.vc == 0 && (k.dst == 127 || k.src == 127)) then s else s.cutSend r q k

/-- A malformed packet (R233): counted, and a request is answered with Err of class 6. -/
def State.cutMalformed (s : State) (r : Nat) (k : CutPkt) : State :=
  let s := if r < 72 then s.cnt r 18 1 else s
  if k.vc = 1 then
    let (st, s) := s.class6
    s.cutForward r 0 { k with
      starve := false, len := 0, typ := 0x18, src := k.dst, dst := k.src, vc := 2, detour := false, status := st, redOp := 0
      hopCount := 0, hops := [], masks := 0, reserved := false, data := [], epoch := s.rbit (routerBase r + 0x7600) 16 }
  else s

/-- CUT_PACKET_FORWARD: a packet injected here (`inPort` 0) takes the router's active epoch; any other is looked up in the bank
it began with (R236). -/
def execCutPacketForward (router inPort : Nat) (pkt : CutPkt) (s : State) : Out :=
  need ((decide (router < 76) || (decide (80 ≤ router) && decide (router < 160))) && decide (inPort ≤ 10)) .noSuchUnit <|
  need (inPort == 0 || s.cutState router (inPort - 1) != 0) .notInFlight <|
  .next (
    if pkt.reserved || !cutTypeOk pkt.typ.toNat || decide (pkt.len.toNat > 64) then s.cutMalformed router pkt
    else if inPort = 0 then s.cutForward router 0 { pkt with
      epoch := s.rbit (routerBase router + 0x7600) 16, detour := false, hopCount := 0, hops := [] }
    else s.cutForward router inPort pkt)

end Sys2Proof.Machine
end

