-- ==== Sys2Proof/Machine/Erhar.lean ====
section
/-! DEFINITION. What the Erhar ports do (chapter 11): frames (R276, R277), training (R278 to R280), ports that go down (R308,
R309), packet routing (R284 to R289), and the remote operations of Table 11.7 at both ends. -/

namespace Sys2Proof.Machine

/-- A command on one of the 36 ports; those of a fenced gatehouse are absent (R413). -/
def State.atErh (s : State) (p : Nat) (k : Out) : Out :=
  need (decide (p < 36) && !s.panel.fencedGh.contains (p / 9)) .noSuchUnit k

/-! ## Frames -/

/-- A CRC failure on a port (R277): counted, signed and tallied; a full tally retires the port (R309), and eight failures within
100 µs start a retrain (R278). -/
def State.erhCrcBad (s : State) (p : Nat) : State :=
  let a := erhStatA p
  let s := (s.setRfld a 15 0 (Nat.min 0xFFFF (s.rfld a 15 0 + 1))).gcnt (p / 9) 1 1
  let now := s.clk.now
  let s := s.modErhPort p fun k => { k with
    nakSent := true, crcTimes := now :: k.crcTimes.filter fun t => decide (now < t + 100000) }
  let key : UnitKey := (5, p, 0, 0)
  let (s, full) := s.tally key 0x11
  let g : Sig := { Sig.blank with
    mech := 0x11, unitKind := 5, site := 80 + p / 9, unitIndex := p, tally := s.tallyCount key, times := s.tallyTimes key }
  let s := s.sign g
  if full then (s.sign { g with action := 5, severity := 1 }).erhPortOff p none 4
  else if (s.erhPort p).crcTimes.length ≥ 8 then s.erhStart p
  else s

/-- ERH_FRAME: an accepted frame moves the sequence and returns credits; acknowledged frames leave the replay buffer. A frame
out of sequence after a failure is discarded until the replay. -/
def execErhFrame (port : Nat) (f : ErhFrame) (s : State) : Out :=
  s.atErh port <| need (s.erhState port == 2) .notInFlight <|
  .next (
    let s := s.gcnt (port / 9) 0 f.fecCorr
    if !f.crcOk then s.erhCrcBad port
    else if f.seq ≠ (s.erhPort port).rxSeq + 1 then s
    else
      ((s.gcnt (port / 9) 8 (64 * f.flits)).modErhPort port fun k => { k with
        rxSeq := f.seq, lastFwd := f.seq, nakSent := false, replay := k.replay.filter fun e => seqAfter e.1 f.ack
        credits := addCredits k.credits f.credits }).erhTx port)

/-! ## Training -/

/-- A training attempt fails: the third in a row takes the port down (R280). -/
def State.erhAttemptFails (s : State) (p : Nat) (peer : Option (BitVec 32)) : State :=
  let n := s.rfld (erhStatA p) 47 46 + 1
  let s := s.setRfld (erhStatA p) 47 46 (Nat.min 3 n)
  if n ≥ 3 then s.erhPortOff p peer 0 else s

/-- Width and lanes that two good-lane masks give (R279). -/
def erhLanes (a b : BitVec 8) : Option (Nat × Nat) :=
  let m := (a &&& b).toNat
  if m = 0xFF then some (8, 0xFF)
  else if m % 16 = 15 then some (4, 0x0F)
  else if m / 16 = 15 then some (4, 0xF0)
  else none

/-- Training completes: version, width, lanes, identity and credits are in force, and frames after the peer's last-forwarded
sequence are sent again. A side that was reset takes up after what it had forwarded. -/
def State.erhUp (s : State) (p : Nat) (r : ErhTrainIn) (w lanes : Nat) : State :=
  let a := erhStatA p
  let st := Word.setFld (Word.setFld (Word.setFld (Word.setFld (s.reg a) 63 60 2) 59 56 w) 55 48 lanes) 47 46 0
  ((s.setReg a st).modErhPort p fun k => { k with
    training := none, nakSent := false, peerValid := r.peerValid, isReset := false
    rxSeq := if k.isReset then k.lastFwd else k.rxSeq
    replay := k.replay.filter fun e => seqAfter e.1 r.peerSeq
    credits := Vector.ofFn fun i => r.credits.getD i.val 0 }).erhTx p

/-- ERH_TRAIN: one attempt of phases E1 to E5. On an active port the partner has started to train, so the port retrains
(R278). -/
def execErhTrain (port : Nat) (r : ErhTrainIn) (s : State) : Out :=
  s.atErh port <| need (decide (1 ≤ s.erhState port) && decide (s.erhState port ≤ 3)) .notPending <|
  .next (
    let s := if s.erhState port = 2 then s.erhStart port else s
    let s := s.setRfld (erhStatA port) 45 28 r.peerDev.toNat
    let s := s.modErhPort port fun k => { k with training := some r }
    let version := decide (1 ≤ r.peerHi) && decide (r.peerLo ≤ 1)
    let clash := r.peerValid && s.ownDev == some r.peerDev.toNat
    match erhLanes r.localLanes r.peerLanes with
    | some (w, lanes) =>
      if clash then
        (s.event ((Config.freeWord s.fresh).toNat % 0x10000) (80 + port / 9) port 0 0).drawn 1 |>.erhAttemptFails port none
      else if version && r.confirm then s.erhUp port r w lanes
      else s.erhAttemptFails port none
    | none => s.erhAttemptFails port none)

/-- ERH_FREEZE_TIMEOUT: an attempt has not completed E5 within 500 µs; an active port was frozen for its peer. -/
def execErhFreezeTimeout (port : Nat) (peerSeq : Option (BitVec 32)) (s : State) : Out :=
  s.atErh port <| need (decide (1 ≤ s.erhState port) && decide (s.erhState port ≤ 3)) .notPending <|
  .next (
    let s := if s.erhState port = 2 then s.setRfld (erhStatA port) 63 60 3 else s
    s.erhAttemptFails port peerSeq)

/-- ERH_PORT_DOWN: FORCE_DOWN is set, or three attempts have failed (R308). -/
def execErhPortDown (port : Nat) (peerSeq : Option (BitVec 32)) (s : State) : Out :=
  s.atErh port <| need (s.erhState port != 0 && s.erhState port != 4) .notPending <|
  need (s.rbit (erhCtlA port) 62 || s.rfld (erhStatA port) 47 46 == 3) .notArmed <|
  .next (s.erhPortOff port peerSeq 0)

/-- ERH_PORT_RESET: the receive buffer, credits and training state are cleared and the port retrains (R278, R280). -/
def execErhPortReset (port : Nat) (s : State) : Out :=
  s.atErh port <|
  let s := s.modErhPort port fun k => { k with
    credits := Vector.replicate 8 0, nakSent := false, training := none, isReset := true }
  .next (if s.erhState port = 0 ∨ s.erhState port = 4 then s else s.erhStart port)

/-! ## Routing -/

/-- Whether a packet is malformed (R284): an unknown TYPE, a reserved field that is not zero, or another VC than its TYPE's. -/
def erhMalformed (k : ErhPkt) : Bool := k.resv || erhVc k != some k.vc.toNat || decide (k.len.toNat > 64)

/-- Whether a packet is a request: PUT, GET or ATOMIC. -/
def erhIsReq (k : ErhPkt) : Bool := k.typ == 0x01 || k.typ == 0x03 || k.typ == 0x05

/-- Sends a response to a packet's source. -/
def State.erhAnswer (s : State) (k : ErhPkt) (typ : BitVec 8) (st : Status) (data : List Byte) : State :=
  (s.erhInject { erhBlank with dst := k.src, typ := typ, txn := k.txn, addr := k.addr, status := st, data := data }).2

/-- Discards a malformed packet; a request is answered with ERR 0x6802. -/
def State.erhDiscard (s : State) (p : Nat) (k : ErhPkt) : State :=
  let s := s.gcnt (p / 9) 2 1
  if erhIsReq k then s.erhAnswer k 0x07 0x6802 [] else s

/-- Sends a received packet on (R286 to R289): one hop less to live, in the bank that it began with. -/
def State.erhForward (s : State) (p : Nat) (k : ErhPkt) : State :=
  let k := { k with ttl := k.ttl - 1 }
  let bad (s : State) : State := (s.gcnt (p / 9) 3 1).erhAnswer k 0x07 0x3803 []
  if k.ttl = 0 then bad s
  else match s.erhChoose k with
    | none => s.erhAnswer k 0x07 0x3803 []
    | some q => if k.hc && (s.erhPort q).global then bad s else s.erhSend q k

/-- ERH_PACKET_ROUTE: a packet for this device is delivered, to take effect by the row of its own TYPE; a TSYNC is answered at
once (R305). Any other goes on. -/
def execErhPacketRoute (port : Nat) (pkt : ErhPkt) (s : State) : Out :=
  s.atErh port <| need (s.erhState port == 2) .notInFlight <|
  .next (
    if erhMalformed pkt then s.erhDiscard port pkt
    else if s.ownDev = some pkt.dst.toNat then
      if pkt.typ = 0x20 then (s.erhInject { erhBlank with dst := pkt.src, typ := 0x21, txn := pkt.txn, aux := pkt.aux }).2 else s
    else if pkt.typ = 0x30 then s
    else s.erhForward port pkt)

/-- ERH_OLD_BUSY_CLEAR: 100 µs after the device last held a flit of the old epoch (R289). -/
def execErhOldBusyClear (s : State) : Out :=
  let old (k : ErhPkt) : Bool := k.epoch != s.rbit erhRctlA 32
  need (s.rbit erhRctlA 40) .notPending <|
  need (decide (s.clk.now ≥ s.erh.oldHeldAt + 100000) && s.erh.ports.all fun e =>
    !e.2.queue.any old && !e.2.replay.any fun f => f.2.any old) .notArmed <|
  .next (s.setRbit erhRctlA 40 false)

/-- LINK_MGMT: the port takes it; the spec gives its content no effect on this device's state. -/
def execLinkMgmt (port : Nat) (pkt : ErhPkt) (s : State) : Out :=
  s.atErh port <| need (s.erhState port == 2 && pkt.typ == 0x30) .notInFlight <|
  .next (if erhMalformed pkt then s.erhDiscard port pkt else s)

/-- FW_MGMT: Kiltor firmware takes it; the spec gives its content no effect on this device's state. -/
def execFwMgmt (port : Nat) (pkt : ErhPkt) (s : State) : Out :=
  s.atErh port <| need (s.erhState port == 2 && pkt.typ == 0x31) .notInFlight <|
  .next (if erhMalformed pkt then s.erhDiscard port pkt else s)

/-! ## Requests from other devices (R291, R295, R296) -/

/-- The local berth that a request acts for: SPAN_ID equal and the source in the span's range (R291). -/
def State.spanBerth (s : State) (k : ErhPkt) : Option Nat :=
  (s.erh.spans.find? fun e => (if e.1 = 0 then k.span == 0 else e.2.id == k.span.toNat && k.span != 0) &&
    decide (e.2.lo ≤ k.src.toNat) && decide (k.src.toNat ≤ e.2.hi)).map (·.1)

/-- Goes on with the berth of a received request; it is refused where it is malformed, under alarm (Table 16.6), or where no span
accepts it. -/
def State.erhServe (s : State) (port : Nat) (k : ErhPkt) (typ : BitVec 8) (f : Nat → State → State) : Out :=
  s.atErh port <| need (s.erhState port == 2 && k.typ == typ && s.ownDev == some k.dst.toNat) .notInFlight <|
  .next (
    if erhMalformed k then s.erhDiscard port k
    else if s.sec.alarmLock then s.erhAnswer k 0x07 0x4B05 []
    else match s.spanBerth k with
      | none => (s.gcnt (port / 9) 5 1).erhAnswer k 0x07 0x4801 []
      | some b => f b s)

/-- The requester of a proxied access: the gatehouse, for a berth (R291, R295). -/
def proxyReq (port b : Nat) : Req := reqOf (76 + port / 9) (agentOf b)

/-- The enabled bytes of a PUT, sector by sector (Table 11.4): the masks rule a PUT of one line. -/
def putPieces (k : ErhPkt) : List (Nat × List (Nat × Byte)) :=
  let a := k.addr.toNat
  let on (i : Nat) : Bool := decide (k.data.length > 128) || bitAt k.masks.toNat (i % 128)
  let all := ((List.range k.data.length).filter on).map fun i => (a + i, byteAt k.data i)
  let secs := (List.range (k.data.length / 32 + 1)).map fun j => secOf a + 32 * j
  (secs.map fun sa => (sa, (all.filter fun e => secOf e.1 == sa).map fun e => (e.1 % 32, e.2))).filter fun e => !e.2.isEmpty

/-- Writes a PUT's sectors at their homes; the first refusal, or a wait for a holder, ends it. -/
def State.putWrite (r : Req) : List (Nat × List (Nat × Byte)) → State → Status × Bool × State
  | [], s => (0, false, s)
  | (sa, bs) :: t, s =>
    match s.dramAddr 0 sa with
    | none => (0x2201, false, s)
    | some pa =>
      match s.homeWrite r 0 0 pa bs false with
      | (st, w, s) => if st ≠ 0 ∨ w then (st, w, s) else State.putWrite r t s

/-- PUT: performed at the homes, then PUT_ACK; a refusal is answered with ERR (R291, R294). Register space accepts none
(R296). -/
def execPut (port : Nat) (pkt : ErhPkt) (s : State) : Out :=
  s.erhServe port pkt 0x01 fun b s =>
    if isReg pkt.addr.toNat then s.erhAnswer pkt 0x07 0x4104 []
    else match State.putWrite (proxyReq port b) (putPieces pkt) s with
      | (_, true, s) => s
      | (st, false, s) => if st = 0 then s.erhAnswer pkt 0x02 0 [] else s.erhAnswer pkt 0x07 st []

/-- GET: read as a Look, with its LEN in flits (log entry 23); poison is answered with ERR 0x3701 (R360). -/
def execGet (port : Nat) (pkt : ErhPkt) (u : Upset) (s : State) : Out :=
  s.erhServe port pkt 0x03 fun b s =>
    let a := pkt.addr.toNat
    let n := 64 * pkt.len.toNat
    if isReg a then s.erhAnswer pkt 0x07 0x4104 []
    else
      let (rd, s) := readPieces (fun s p k => s.gaReadSec (if isDram p then homeOf p else 0) (proxyReq port b) p k true u)
        (sectorPieces (n + 1) a n) s
      if rd.wait then s
      else if rd.st = 0 then s.erhAnswer pkt 0x04 0 rd.bytes
      else s.erhAnswer pkt 0x07 (if rd.st = 0x3707 then 0x3701 else rd.st) []

/-- The operation and size of an ATOMIC's data flit (R284). -/
def atomicOp (k : ErhPkt) : Option (AmoOp × AmoWidth) :=
  let op : Option AmoOp := match (byteAt k.data 0).toNat with
    | 0 => some .add
    | 1 => some .and
    | 2 => some .or
    | 3 => some .xor
    | 4 => some .min
    | 5 => some .max
    | 6 => some .minu
    | 7 => some .maxu
    | 8 => some .swap
    | 9 => some .cas
    | 10 => some .fadd
    | _ => none
  match op, (byteAt k.data 1).toNat with
  | some o, 4 => some (o, .w)
  | some o, 8 => if o == .fadd then none else some (o, .d)
  | some .cas, 16 => some (.cas, .q)
  | _, _ => none

/-- ATOMIC: performed near at its home, or an add to a counter of the span berth's own window (R294, R296). One that its data
flit does not form, or that is not aligned, is malformed. -/
def execAtomic (port : Nat) (pkt : ErhPkt) (u : Upset) (s : State) : Out :=
  s.erhServe port pkt 0x05 fun b s =>
    let a := pkt.addr.toNat
    let operand := rdLE pkt.data 16 16
    let reply (old : Nat) (s : State) : State := s.erhAnswer pkt 0x06 0 (bytesOf 64 old)
    match atomicOp pkt with
    | none => s.erhDiscard port pkt
    | some (op, wd) =>
      if a % amoBytes wd ≠ 0 then s.erhDiscard port pkt
      else if isReg a then
        match s.place a with
        | .window w off =>
          if w = b && op == .add && wd == .d then
            match s.winAdd b off (BitVec.ofNat 64 operand) with
            | (some v, s) => reply v.toNat s
            | (none, s) => s.erhAnswer pkt 0x07 0x4104 []
          else s.erhAnswer pkt 0x07 0x4104 []
        | _ => s.erhAnswer pkt 0x07 0x4104 []
      else match s.dramAddr 0 a with
        | none => s.erhAnswer pkt 0x07 0x2201 []
        | some pa =>
          match s.nearAtomic (proxyReq port b) pa op wd operand (rdLE pkt.data 32 16) u with
          | (_, true, _, s) => s
          | (st, false, old, s) => if st = 0 then reply old s else s.erhAnswer pkt 0x07 st []

/-! ## Answers to this device's requests -/

/-- The open operation that an answer names. -/
def State.openOf (s : State) (k : ErhPkt) (kind : Nat) : Option ErhOpen :=
  s.erh.opens.find? fun o => o.txn == k.txn.toNat && o.kind == kind && o.dst == k.src

/-- Goes on with the open operation that a well-formed answer names. A late answer is discarded (R297). -/
def State.erhAnswered (s : State) (k : ErhPkt) (typ : BitVec 8) (kind : Nat) (f : ErhOpen → State → State) : Out :=
  need (s.ownDev == some k.dst.toNat && k.typ == typ) .notInFlight <|
  .next (
    if erhMalformed k then s.gcnt 0 2 1
    else match s.openOf k kind with
      | none => s
      | some o => f o (s.modErh fun e => { e with opens := removeFirst (· == o) e.opens }))

/-- Wakes a thread that waits for its own access. -/
def State.wakeMem (s : State) (tid uid : Nat) : State := s.modThread tid fun t =>
  if t.uid = uid ∧ t.wait = .memory then { t with wait := .none } else t

/-- PUT_ACK: with the last one of a thread, a release that waits goes on (R110). -/
def execPutAck (pkt : ErhPkt) (s : State) : Out :=
  s.erhAnswered pkt 0x02 0 fun o s =>
    if s.erh.opens.any fun q => q.uid == o.uid && q.kind == 0 then s
    else s.modThread o.tid fun t => if t.uid = o.uid ∧ t.wait = .puts then { t with wait := .none } else t

/-- GET_DATA: the data is there for the thread or transfer that asked. -/
def execGetData (pkt : ErhPkt) (s : State) : Out :=
  s.erhAnswered pkt 0x04 1 fun o s =>
    let s := s.gotPut o.uid (o.ticket.getD 0) o.addr pkt.data
    match o.ticket with
    | some _ => s
    | none => s.wakeMem o.tid o.uid

/-- ATOMIC_RESP: the old value ends the atomic (R293). -/
def execAtomicResp (pkt : ErhPkt) (s : State) : Out :=
  s.erhAnswered pkt 0x06 2 fun o s =>
    match o.access, s.thread? o.tid with
    | .amo _ wd rd _ _ _ aq, some t =>
      if t.uid = o.uid ∧ t.wait = .memory then
        let s := (s.modThread o.tid fun t => { t with wait := .none }).retire o.tid 4 fun t =>
          t.putOld rd wd (rdLE pkt.data 0 (amoBytes wd))
        if aq then s.acqAll o.tid else s
      else s
    | _, _ => s

/-- ERH_ERR: the operation fails with the packet's status. -/
def execErhErr (pkt : ErhPkt) (s : State) : Out :=
  need (s.ownDev == some pkt.dst.toNat && pkt.typ == 0x07) .notInFlight <|
  .next (
    if erhMalformed pkt then s.gcnt 0 2 1
    else match s.erh.opens.find? fun o => o.txn == pkt.txn.toNat with
      | none => s
      | some o => s.openFail o pkt.status)

/-- ERH_REQUEST_TIMEOUT: TMO_US has passed without an answer (R297). -/
def execErhRequestTimeout (txn : Nat) (s : State) : Out :=
  needSome (s.erh.opens.find? fun o => o.txn == txn) .notInFlight fun o =>
  need (decide (s.clk.now ≥ o.since + s.rfld erhRctlA 16 1 * 1000)) .notArmed <|
  .next ((s.gcnt o.gate 4 1).openFail o 0x3802)

end Sys2Proof.Machine
end

