-- ==== Sys2Proof/Machine/Coll.lean ====
section
/-! DEFINITION. Collectives (R298 to R304) and time synchronisation (R305 to R307, R388, R444). -/

namespace Sys2Proof.Machine

/-! ## The descriptor (R300) -/

/-- Fields of a descriptor's 64 bytes. -/
def dOp (d : List Byte) : Nat := rdLE d 0 1
/-- RED_OP. -/
def dRed (d : List Byte) : Nat := rdLE d 1 1
/-- OUT_FMT. -/
def dFmt (d : List Byte) : Nat := rdLE d 2 1
/-- ANCHOR. -/
def dAnchor (d : List Byte) : Int := toSigned 16 (rdLE d 4 2)
/-- COUNT. -/
def dCount (d : List Byte) : Nat := rdLE d 8 8
/-- SRC. -/
def dSrc (d : List Byte) : Nat := rdLE d 16 8
/-- DST. -/
def dDst (d : List Byte) : Nat := rdLE d 24 8
/-- ROOT_RANK. -/
def dRoot (d : List Byte) : Nat := rdLE d 32 4

/-- Bytes of one element of SRC. -/
def dElem (d : List Byte) : Nat := redBytes (dRed d)
/-- Elements of a 4 KiB chunk (R301). -/
def dPer (d : List Byte) : Nat := 4096 / dElem d
/-- Chunks of a generation; a barrier has one, with no data. -/
def dChunks (d : List Byte) : Nat := if dOp d = 0 then 1 else (dCount d + dPer d - 1) / dPer d
/-- Elements of one chunk. -/
def dIn (d : List Byte) (c : Nat) : Nat := if dOp d = 0 then 0 else Nat.min (dPer d) (dCount d - c * dPer d)

/-- Bits of one output element: as stored for an integer operation. -/
def dOutBits (d : List Byte) : Nat := if dFmt d = 10 then 8 * dElem d else (outFmt (dFmt d)).2.1
/-- Whether the output is an MX format. -/
def dMx (d : List Byte) : Bool := dFmt d != 10 && (outFmt (dFmt d)).2.2
/-- Packed bytes of `n` output elements. -/
def dBytes (d : List Byte) (n : Nat) : Nat := (n * dOutBits d + 7) / 8

/-- Whether this device contributes SRC, and whether it writes DST (R300): a broadcast takes ROOT_RANK's alone, a reduce gives it
alone the result. -/
def dGives (d : List Byte) (rank : Nat) : Bool := dOp d == 1 || dOp d == 2 || (dOp d == 3 && dRoot d == rank)
/-- Whether DST is written here. -/
def dTakes (d : List Byte) (rank : Nat) : Bool := dOp d == 1 || dOp d == 3 || (dOp d == 2 && dRoot d == rank)

/-- Whether a descriptor keeps the table. -/
def dTable (d : List Byte) (size : Nat) : Bool :=
  decide (dOp d ≤ 3) && (dRed d == 1 || (decide (4 ≤ dRed d) && decide (dRed d ≤ 13))) && decide (dFmt d ≤ 10) &&
  (dRed d == 1 || dFmt d == 10) && decide (rdLE d 3 1 ≤ 1) && zeroAt d 7 1 && zeroAt d 36 28 && decide (1 ≤ dCount d) &&
  decide (dCount d ≤ 2 ^ 32) && (decide (dOp d < 2) || decide (dRoot d < size))

/-- Whether every page of a range belongs to a berth. -/
def State.rangeOf (s : State) (b a n : Nat) : Bool :=
  isDram a && isDram (a + n - 1) && ((List.range (n / 0x10000 + 2)).all fun i =>
    let page := a / 0x10000 + i
    decide (page * 0x10000 ≥ a + n) || ((s.pot page).owner == b && (s.pot page).state == .owned))

/-- Whether a generation may run on a descriptor (R300): the table kept, and SRC and DST, where used, in the berth's pages. -/
def State.descOk (s : State) (g : Group) (d : List Byte) : Bool :=
  dTable d g.size && (!dGives d g.rank || s.rangeOf g.berth (dSrc d) (dCount d * dElem d)) &&
  (!dTakes d g.rank || s.rangeOf g.berth (dDst d) (dBytes d (dCount d)))

/-! ## Sums and drain -/

/-- Adds contributions to a chunk's elements, by number (R301): the integer operations of Table 7.8. -/
def sumInto (op : Nat) (sums : NMap (BitVec 128)) (base n size : Nat) (bytes : List Byte) : NMap (BitVec 128) :=
  (List.range (Nat.min n (bytes.length / size))).foldl (fun m i =>
    let v := rdLE bytes (i * size) size
    NMap.put m (base + i) (match NMap.get? m (base + i) with
      | some o => BitVec.ofNat 128 (redElem op o.toNat v).1
      | none => BitVec.ofNat 128 v)) sums

/-- A chunk of the sums as SRC bytes; none where nothing has been contributed. -/
def sumBytes (d : List Byte) (sums : NMap (BitVec 128)) (c : Nat) : List Byte :=
  let es := (List.range (dIn d c)).map fun i => NMap.get? sums (c * dPer d + i)
  if es.all (·.isNone) then [] else (es.map fun e => bytesOf (dElem d) (e.getD 0).toNat).flatten

/-- Drains a chunk at the root (R301): raw bytes, or elements packed and followed by the scales of their MX blocks. -/
def drainChunk (d : List Byte) (sums : NMap (BitVec 128)) (c : Nat) : List Byte × AFlags :=
  if dFmt d = 10 then (sumBytes d sums c, 0)
  else
    let sat := rdLE d 3 1 == 0
    let (f, bits, mx) := outFmt (dFmt d)
    let k : Int := if dFmt d = 3 ∨ dFmt d = 4 then (rdLE d 6 1 : Int) - 127 else 0
    let vs := (List.range (dIn d c)).map fun i => (LS.ofBits ((NMap.get? sums (c * dPer d + i)).getD 0)).val (dAnchor d)
    if mx then
      let bs := (blocksOf 32 9 vs).map (drainMx f sat)
      (packElems bits (bs.map fun b => b.2.1).flatten 0 ++ bs.map fun b => BitVec.ofNat 8 b.1, bs.foldl (fun a b => a ||| b.2.2) 0)
    else
      let rs := vs.map fun v => f.drain sat (v.scale (-k))
      (packElems bits (rs.map (·.1)) 0, rs.foldl (fun a r => a ||| r.2) 0)

/-! ## A generation's progress -/

/-- A packet of this generation to a neighbour, with the descriptor's fields (R303, Table 11.4). -/
def collPkt (n : Nat) (r : CollRun) (typ : BitVec 8) (dst c : Nat) (aux : Word) (st : Status) (data : List Byte) : ErhPkt :=
  { erhBlank with
    dst := BitVec.ofNat 18 dst, typ := typ, masks := 0, status := st, anchor := BitVec.ofNat 16 (rdLE r.desc 4 2)
    group := BitVec.ofNat 12 n, cop := BitVec.ofNat 8 (dRed r.desc * 16 + dOp r.desc), cfmt := BitVec.ofNat 8 (dFmt r.desc)
    gen := BitVec.ofNat 64 r.gen, chunk := BitVec.ofNat 32 c, count := BitVec.ofNat 64 (dCount r.desc), aux := aux, data := data }

/-- AUX of COLL_UP: the latest arrival's time and rank (R304; log entry 29). -/
def upAux (r : CollRun) : Word := BitVec.ofNat 64 (r.latest % 2 ^ 46 * 2 ^ 18 + r.latestRank)

/-- AUX of COLL_DOWN and LAST_INFO: the latest rank, and its lead in ns (Table 11.8). -/
def downAux (r : CollRun) : Word := BitVec.ofNat 64 (Nat.min 0xFFFFFFFF (r.latest - r.second) * 2 ^ 32 + r.latestRank)

/-- Takes an arrival time into account (R304). -/
def CollRun.seen (r : CollRun) (t rank : Nat) : CollRun :=
  if t > r.latest then { r with latest := t, latestRank := rank, second := r.latest }
  else { r with second := Nat.max r.second t }

/-- Where a chunk's result bytes go in DST; its MX scales follow all the elements (log entry 29). -/
def dstPieces (d : List Byte) (c : Nat) (bytes : List Byte) : List (Nat × List Byte) :=
  let n := dBytes d (dIn d c)
  (dDst d + dBytes d (c * dPer d), bytes.take n) ::
    (if dMx d then [(dDst d + dBytes d (dCount d) + c * (dPer d / 32), bytes.drop n)] else [])

/-- Writes the whole result to DST. -/
def State.collWrite (s : State) (g : Group) (r : CollRun) : Status × Bool × State :=
  if dTakes r.desc g.rank then
    writePieces (fun s a bs => s.paWrite (agentOf g.berth) a bs)
      (((List.range (dChunks r.desc)).map fun c => dstPieces r.desc c (NMap.getD r.result c [])).flatten.filter fun p =>
        !p.2.isEmpty) s
  else (0, false, s)

/-- Passes on what is complete (R299 steps 3 to 6): a chunk that every child has sent goes up, or is drained at the root; with
every chunk of the result here, DST is written, RELEASE advances and COLL_DOWN goes to the children. A write that waits for a
holder is made again when the command that brought the last chunk is issued again. -/
def State.collPush (s : State) (n : Nat) (g : Group) (r : CollRun) : State :=
  let kids := g.child.take g.nchild
  let ready := (List.range (dChunks r.desc)).filter fun c => !r.sent.contains c && kids.all fun k => r.heard.contains (k, c)
  let r := { r with sent := r.sent ++ ready }
  let (r, s) : CollRun × State :=
    if g.root then
      (ready.foldl (fun (r : CollRun) c =>
        let x := drainChunk r.desc r.sums c
        { r with result := NMap.put r.result c x.1, flags := r.flags ||| x.2, info := downAux r }) r, s)
    else (r, ready.foldl (fun (s : State) c =>
      (s.erhInject (collPkt n r 0x10 g.parent c (upAux r) 0 (sumBytes r.desc r.sums c))).2) s)
  let s := s.modErh fun e => { e with runs := NMap.put e.runs n r }
  if (List.range (dChunks r.desc)).all fun c => NMap.has r.result c then
    match s.collWrite g r with
    | (_, true, s) => s
    | (st, false, s) =>
      let s := s.collDone n g st r.flags r.info (Word.fld r.info 17 0 == g.rank)
      kids.foldl (fun (s : State) k => (List.range (dChunks r.desc)).foldl (fun (s : State) c =>
        (s.erhInject (collPkt n r 0x11 k c r.info r.flags (NMap.getD r.result c []))).2) s) s
  else s

/-- Takes a child's chunk into the sums, or finds that the group disagrees (R303). -/
def State.collTake (s : State) (n : Nat) (g : Group) (r : CollRun) (k : ErhPkt) : State :=
  let c := k.chunk.toNat
  if k.anchor.toNat ≠ rdLE r.desc 4 2 then s.collFail n g 0x2801 none
  else if k.cop.toNat ≠ dRed r.desc * 16 + dOp r.desc ∨ k.cfmt.toNat ≠ dFmt r.desc ∨ k.count.toNat ≠ dCount r.desc then
    s.collFail n g 0x2802 none
  else if r.heard.contains (k.src.toNat, c) then s.collPush n g r
  else
    let first := !r.heard.any fun h => h.1 == k.src.toNat
    let r := if first then r.seen (k.aux.toNat / 2 ^ 18) (k.aux.toNat % 2 ^ 18) else r
    s.collPush n g { r with
      heard := r.heard ++ [(k.src.toNat, c)]
      sums := if dOp r.desc = 0 then r.sums else sumInto (dRed r.desc) r.sums (c * dPer r.desc) (dIn r.desc c) (dElem r.desc) k.data }

/-- Reads bytes for a group's berth through a gatehouse. -/
def State.collFetch (s : State) (g : Group) (a n : Nat) (u : Upset) : Rd × State :=
  readPieces (fun s p k => s.gaReadSec (if isDram p then homeOf p else 0) (reqOf 76 (agentOf g.berth)) p k true u)
    (sectorPieces (n + 1) a n) s

/-- A generation starts here with this device's contribution, and takes what its children have sent already. -/
def State.collBegin (s : State) (n : Nat) (g : Group) (d src : List Byte) : State :=
  let r : CollRun := { gen := g.gen + 1, desc := d, sums := sumInto (dRed d) [] 0 (dCount d) (dElem d) src, heard := []
                       sent := [], latest := s.clk.now % 2 ^ 46, latestRank := g.rank, second := 0, result := [], info := 0
                       flags := 0 }
  let mine := s.erh.early.filter fun k => k.group.toNat == n && k.gen.toNat == r.gen
  let s := s.modErh fun e => { e with early := e.early.filter fun k => !(k.group.toNat == n && k.gen.toNat == r.gen) }
  mine.foldl (fun (s : State) k => match NMap.get? s.erh.runs n with
    | some r => s.collTake n g r k
    | none => s) (s.collPush n g r)

/-- The engine reads the descriptor once and this device's contribution (R299, R300). -/
def State.collRead (s : State) (n : Nat) (g : Group) (u : Upset) : State :=
  let (rd, s) := s.collFetch g g.desc 64 u
  if rd.wait then s
  else if rd.st ≠ 0 ∨ !s.descOk g rd.bytes then s.collFail n g (if rd.st ≠ 0 ∧ rd.st ≠ 0x4104 then rd.st else 0x6801) none
  else if dGives rd.bytes g.rank then
    let (src, s) := s.collFetch g (dSrc rd.bytes) (dCount rd.bytes * dElem rd.bytes) u
    if src.wait then s
    else if src.st ≠ 0 then s.collFail n g src.st none
    else s.collBegin n g rd.bytes src.bytes
  else s.collBegin n g rd.bytes []

/-- COLL_ARRIVE: the engine starts the generation, or, where the whole result is here and DST waits for a holder, goes on. -/
def execCollArrive (group : Nat) (u : Upset) (s : State) : Out :=
  need (decide (1 ≤ group) && decide (group ≤ 4095)) .noSuchUnit <|
  needSome (s.group? group) .notPending fun g =>
  needSome ((counterId g.arrive).bind fun p => (s.ctx? p.1).map fun c => (c.ctr p.2).toNat) .notPending fun v =>
  need (decide (v ≥ (g.gen + 1) * g.localCnt)) .notArmed <|
  match NMap.get? s.erh.runs group with
  | some r => need ((List.range (dChunks r.desc)).all fun c => NMap.has r.result c) .notPending (.next (s.collPush group g r))
  | none => .next (s.collRead group g u)

/-- Goes on with a collective packet of the generation after GEN of a valid group; any other is discarded. -/
def State.onColl (s : State) (k : ErhPkt) (typ : BitVec 8) (f : Group → State) : Out :=
  need (s.ownDev == some k.dst.toNat && k.typ == typ) .notInFlight <|
  .next (
    if erhMalformed k then s.gcnt 0 2 1
    else match s.group? k.group.toNat with
      | some g => if k.gen.toNat = g.gen + 1 then f g else s
      | none => s)

/-- COLL_UP: a chunk of a child. One that comes before this device has arrived waits for it. -/
def execCollUp (pkt : ErhPkt) (s : State) : Out :=
  s.onColl pkt 0x10 fun g =>
    if !(g.child.take g.nchild).contains pkt.src.toNat then s
    else match NMap.get? s.erh.runs pkt.group.toNat with
      | some r => s.collTake pkt.group.toNat g r pkt
      | none => s.modErh fun e => { e with early := e.early ++ [pkt] }

/-- COLL_DOWN: a chunk of the result from the parent, with the drain's flags and the laggard. -/
def execCollDown (pkt : ErhPkt) (s : State) : Out :=
  s.onColl pkt 0x11 fun g =>
    match NMap.get? s.erh.runs pkt.group.toNat with
    | some r =>
      if g.root ∨ pkt.src.toNat ≠ g.parent then s
      else s.collPush pkt.group.toNat g { r with
        result := NMap.put r.result pkt.chunk.toNat pkt.data, info := pkt.aux, flags := pkt.status }
    | none => s

/-- COLL_FAIL: the status is logged, DST stays unwritten, RELEASE advances, and the failure goes on through the tree. -/
def execCollFail (pkt : ErhPkt) (s : State) : Out :=
  s.onColl pkt 0x12 fun g => s.collFail pkt.group.toNat g pkt.status (some pkt.src.toNat)

/-! ## Time synchronisation -/

/-- TSYNC: a follower's exchange of 1 ms; one that has had no response, or that the port does not carry, is missed. -/
def execTsync (ok : Bool) (s : State) : Out :=
  need (s.erh.role == 2) .notPending <|
  .next (
    let up := s.erh.upstream
    let missed := s.erh.missed + (if s.erh.pendingT then 1 else 0) + (if ok then 0 else 1)
    let s := s.modErh fun e => { e with missed := missed, pendingT := ok }
    if ok && s.erhState up == 2 then
      s.erhSend up { erhBlank with
        dst := BitVec.ofNat 18 (s.rfld (erhStatA up) 45 28), src := BitVec.ofNat 18 (s.ownDev.getD 0), typ := 0x20
        epoch := s.rbit erhRctlA 32 }
    else s)

/-- TSYNC_RESP: the offset from the four time stamps and the correction fields (R305); the states of Table 11.9. -/
def execTsyncResp (t1 t2 t3 t4 aux : Int) (s : State) : Out :=
  need (s.erh.role == 2 && s.erh.pendingT) .notInFlight <|
  let off := ((t2 - t1) - (t4 - t3) - aux) / 2
  .next (s.modErh fun e =>
    let inside := decide (off.natAbs ≤ 10)
    let n := if inside then e.inBound + 1 else 0
    { e with
      offset := off, missed := 0, pendingT := false, inBound := n
      sync := match e.sync with
        | .locked => .locked
        | .holdover => .locking
        | .free => .locking
        | .locking => if n ≥ 16 then .locked else .locking })

/-- TSYNC_HOLDOVER: eight successive exchanges missed (R307). -/
def execTsyncHoldover (s : State) : Out :=
  need (s.erh.sync == .locking || s.erh.sync == .locked) .notPending <|
  need (decide (s.erh.missed ≥ 8)) .notArmed <|
  .next (s.modErh fun e => { e with sync := .holdover, inBound := 0 })

/-- TIME_CORRECTION: a slew of at most 200 ns in 1 ms, or a step while no berth is ACTIVE; a backward step holds (R306, R388). -/
def execTimeCorrection (step : Bool) (ns : Int) (s : State) : Out :=
  need (s.erh.role != 0) .notPending <|
  if step then
    need (s.erh.stepAllowed && s.bth.berths.all fun e => e.1 == 0 || e.2.state != .active) .notArmed <|
    .next (s.modClk fun c => if ns ≥ 0 then { c with now := c.now + ns.toNat } else { c with hold := c.hold + ns.natAbs })
  else
    need (decide (ns.natAbs ≤ 200) && s.clk.slew == 0) .notArmed <|
    .next (s.modClk fun c => { c with slew := ns, slewEdge := 0 })

/-- PPS_IN: an edge within 1 ms of 10⁹ ns after the accepted one before, or after three ignored ones, is accepted, and the offset
is its distance to the nearest multiple of 10⁹ ns (R307, R444). -/
def execPpsIn (stamp : Nat) (s : State) : Out :=
  .next (
    if s.erh.role ≠ 1 ∨ !s.erh.ppsEn then s
    else
      let good : Bool := match s.erh.ppsLast with
        | none => true
        | some t => decide (stamp + 1000000 ≥ t + 1000000000) && decide (stamp ≤ t + 1000000000 + 1000000)
      if good ∨ s.erh.ppsIgnored ≥ 3 then
        s.modErh fun e => { e with
          ppsLast := some stamp, ppsIgnored := 0
          offset := (((stamp + 500000000) / 1000000000 * 1000000000 : Nat) : Int) - (stamp : Int) }
      else s.modErh fun e => { e with ppsIgnored := e.ppsIgnored + 1 })

end Sys2Proof.Machine
end

