-- ==== Sys2Proof/Machine/Cxl.lean ====
section
/-! DEFINITION. The CXL host ports (chapter 12): decoders, host accesses to device memory and to berth windows, the host cache
and its snoops, address translation, IDE and TDISP, the primary mailbox, and ports that are lost. -/

namespace Sys2Proof.Machine

/-- A command of a CXL port; C1 is absent where G2 is fenced (R414 table). -/
def State.atPort (s : State) (port : Nat) (k : Out) : Out :=
  need (decide (port < 2) && !(port == 1 && s.panel.fencedGh.contains 2)) .noSuchUnit k

/-- A command of a port whose link is up. -/
def State.onPort (s : State) (port : Nat) (k : Out) : Out :=
  s.atPort port <| need ((s.cport port).up && !(s.cport port).lost) .blockDown k

/-- The last completion toward the host. -/
def State.hostRsp (s : State) (port : Nat) (bytes : List Byte) (poison abort : Bool) : State :=
  s.modPort port fun p => { p with rsp := bytes, rspPoison := poison, rspAbort := abort }

/-! ## Decoders (R314, R315, R318) -/

/-- Whether a decoder belongs to a trusted berth whose interface is locked (R323). -/
def State.decLocked (s : State) (port n : Nat) : Bool := match s.berth? (s.decBerth port n) with
  | some e => e.trusted && e.locked
  | none => false

/-- A change of a decoder that is ignored under R7. -/
def State.decIgnored (s : State) (port n kind : Nat) : State :=
  let a := ghBase 0 + hdmExtOff port n
  s.ignored kind a 0 80 a 0

/-- HDM_DECODER_COMMIT: the range is mapped, or the Error bit is set. -/
def execHdmDecoderCommit (port n base size ways : Nat) (hdmDb : Bool) (s : State) : Out :=
  s.onPort port <| need (decide (n < 32)) .noSuchUnit <| need (!s.decBusy port n) .notPending <|
  .next (
    if s.decLocked port n then s.decIgnored port n 2
    else
      let ok := base % 0x10000000 == 0 && size % 0x10000000 == 0 && ways == 1 && hdmDb &&
        s.rbit (ghBase 0 + hdmExtOff port n) 63
      s.modPort port fun p => { p with
        decoders := NMap.put p.decoders n { base := base, size := size, committed := ok, error := !ok, uncommitting := false } })

/-- Device physical address of a decoder's start. -/
def State.decDpa (s : State) (port n : Nat) : Nat := s.rfld (ghBase 0 + hdmExtOff port n) 42 28 * 2 ^ 28

/-- Whether a line is held by a port's host, or awaits its answer. -/
def DirEnt.hostHolds (e : DirEnt) (port : Nat) : Bool :=
  e.state == .owned (72 + port) || (if port = 0 then e.hs0 else e.hs1) ||
  (match e.txn with | some t => t.await.contains (72 + port) | none => false)

/-- HDM_DECODER_UNCOMMIT: every line that the host holds within the range is back-invalidated; when none is left, the uncommit
completes. Until then it is issued again. -/
def execHdmDecoderUncommit (port n : Nat) (s : State) : Out :=
  s.onPort port <|
  needSome ((NMap.get? (s.cport port).decoders n).filter (·.committed)) .notPending fun d =>
  .next (
    if s.decLocked port n then s.decIgnored port n 2
    else
      let lo := s.decDpa port n
      let held := s.basin.dir.filter fun e => decide (lo ≤ e.1 + 127) && decide (e.1 < lo + d.size) && e.2.hostHolds port
      if held.isEmpty then s.modPort port fun p => { p with
          decoders := NMap.put p.decoders n { d with committed := false, uncommitting := false } }
      else
        let s := s.modPort port fun p => { p with decoders := NMap.put p.decoders n { d with uncommitting := true } }
        held.foldl (fun (s : State) e => if e.2.state == .busy then s else (s.recall e.1 (reqOf 76 .firmware)).2) s)

/-- An Informational record of a host access that is refused, with its host address and decoder (R315). -/
def State.hostNote (s : State) (addr n : Nat) : State := s.cxlEvent 0 false (bytesOf 8 addr ++ bytesOf 1 n)

/-- How a host access goes: refused, or to a device physical address as an agent of the decoder's berth (R314, R315, R323). -/
inductive HostWay where
  | refused (n : Nat)
  | go (pa : Nat) (r : Req)
deriving DecidableEq, Repr

/-- Decodes a host address. 255 numbers no decoder. -/
def State.hostWay (s : State) (port addr : Nat) (tee : Bool) : HostWay :=
  match (s.cport port).decoders.find? fun e => e.2.committed && decide (e.2.base ≤ addr) && decide (addr < e.2.base + e.2.size) with
  | none => .refused 255
  | some (n, d) =>
    let a := s.decDpa port n + (addr - d.base)
    let b := s.decBerth port n
    let trusted : Bool := match s.berth? b with | some e => e.trusted && e.locked && e.running | none => false
    let link : Bool := match NMap.get? (s.cport port).ide 0 with | some i => i.running | none => false
    if s.sec.alarmLock ∨ a ≥ 0x70000000000 then .refused n
    else if trusted ∧ !(tee && link) then .refused n
    else match s.dramAddr 0 a with
      | none => .refused n
      | some pa => if s.present (homeOf pa) then .go pa (reqOf (72 + port) (agentOf b)) else .refused n

/-! ## Host accesses to device memory (R316) -/

/-- Whether a host request passes the ownership check (Table 10.3). -/
def State.hostOwn (s : State) (r : Req) (pa : Nat) (write : Bool) : Own := s.ownCheck r (s.pot (pa / 0x10000)) write

/-- Completes a host read with the 64-byte half that holds `pa`. -/
def State.hostData (s : State) (port pa : Nat) (u : Upset) : State :=
  let a := pa - pa % 64
  let line := lineOf pa
  let (bs, pz, s) := (s.drainLine line).homeLine line true u
  let half := (bs.drop (a - line)).take 64
  s.hostRsp port (half.map (·.2)) (pz.any fun k => decide (a - line ≤ 32 * k) && decide (32 * k < a - line + 64)) false

/-- An entry with a port's host bit. -/
def DirEnt.withHost (e : DirEnt) (port : Nat) (on : Bool) : DirEnt :=
  if port = 0 then { e with hs0 := on } else { e with hs1 := on }

/-- A host read for a shared copy, as RdS: an owning die keeps a clean copy. The Bool asks to try again. -/
def State.hostShared (s : State) (port line : Nat) (r : Req) : Bool × State :=
  match NMap.get? s.basin.dir line with
  | none =>
    let (room, s) := s.dirRoom line
    (!room, if room then s.putDir line (DirEnt.empty.withHost port true) else s)
  | some e => match e.state with
    | .busy => (true, s)
    | .owned n =>
      if n = 72 + port then (false, s)
      else if n < 72 then
        let s := (s.farWriteBack n line).setOwned n line false
        (false, s.putDir line ({ e with state := .shared, sharers := [n], lease := false }.withHost port true))
      else (true, s.biSnoop line e (n - 72) true r)
    | .shared => (false, s.putDir line (e.withHost port true))

/-- A host read for ownership, as RdX: every other copy is invalidated first. -/
def State.hostAny (s : State) (port line : Nat) (r : Req) : Bool × State :=
  let own : Bool := match NMap.get? s.basin.dir line with | some e => e.state == .owned (72 + port) | none => false
  if own then (false, s)
  else
    let s := match NMap.get? s.basin.dir line with
      | some e => if e.state = DirState.shared then s.putDir line (e.withHost port false) else s
      | none => s
    let (w, s) := s.recall line r
    if w then (true, s)
    else match NMap.get? s.basin.dir line with
      | some e => (false, s.grantX line e (72 + port))
      | none =>
        let (room, s) := s.dirRoom line
        (!room, if room then s.grantX line DirEnt.empty (72 + port) else s)

/-- HOST_MEM_RD: a refused read returns poison and is logged. -/
def execHostMemRd (port addr : Nat) (want : HostWant) (tee : Bool) (u : Upset) (s : State) : Out :=
  s.onPort port <|
  .next (match s.hostWay port addr tee with
    | .refused n => (s.hostNote addr n).hostRsp port (List.replicate 64 0) true false
    | .go pa r =>
      let line := lineOf pa
      match s.hostOwn r pa (want == .any) with
      | .refuse => (s.hostNote addr (r.node - 72)).hostRsp port (List.replicate 64 0) true false
      | .poison => s.hostRsp port (List.replicate 64 0) true false
      | .allow =>
        let (w, s) : Bool × State := match want with
          | .none => s.snoopCur line r
          | .shared => s.hostShared port line r
          | .any => s.hostAny port line r
        if w then s else s.hostData port pa u)

/-- HOST_MEM_WR: an owner's data is merged, and `keep` keeps its ownership; with no grant, the write is merged at the home in
grant order. A refused write is discarded and logged. -/
def execHostMemWr (port addr : Nat) (bytes : List (Nat × BitVec 8)) (keep tee : Bool) (s : State) : Out :=
  s.onPort port <| need (bytes.all fun b => decide (addr % 64 + b.1 < 64)) .noSuchUnit <|
  .next (match s.hostWay port addr tee with
    | .refused n => (s.hostNote addr n).hostRsp port [] false false
    | .go pa r =>
      let line := lineOf pa
      let at' := bytes.map fun b => (pa % 128 + b.1, b.2)
      match NMap.get? s.basin.dir line with
      | some e =>
        if e.state = .owned (72 + port) then
          let s := s.mergeLine line at' []
          (if keep then s else s.dirRemove line (72 + port)).hostRsp port [] false false
        else if e.state = .busy ∧ e.hostHolds port then (s.mergeLine line at' []).hostRsp port [] false false
        else go s r pa line at'
      | none => go s r pa line at')
where
  /-- A write with no grant, sector by sector. -/
  go (s : State) (r : Req) (pa line : Nat) (bs : List (Nat × Byte)) : State :=
    if s.hostOwn r pa true ≠ .allow then (s.hostNote addr (r.node - 72)).hostRsp port [] false false
    else
      let s := match NMap.get? s.basin.dir line with
        | some e => if e.state = DirState.shared then s.putDir line (e.withHost port false) else s
        | none => s
      let (w, s) := (List.range 4).foldl (fun (a : Bool × State) k =>
        let b := secBytes bs k
        if b = [] ∨ a.1 then a
        else
          let (_, w, s) := a.2.homeWrite r 0 0 (line + 32 * k) b false
          (w, s)) (false, s)
      if w then s else s.hostRsp port [] false false

/-- The snoop that a host has yet to answer for a line. -/
def State.biMsg (s : State) (port line : Nat) : Option Msg :=
  s.basin.net.find? fun m => (m.kind == .biSnpInv || m.kind == .biSnpShared) && m.dst == 72 + port && m.line == line

/-- BIRSP: it stands in for InvAck or FwdAck; the data it returns is merged. -/
def execBirsp (port line : Nat) (bytes : List (Nat × BitVec 8)) (s : State) : Out :=
  s.onPort port <| needSome (s.biMsg port line) .notInFlight fun m =>
  need (bytes.all fun b => decide (b.1 < 128)) .noSuchUnit <|
  .next ((s.dropMsg m).answer line (72 + port) bytes [] false false)

/-! ## Loss of a port (R328) -/

/-- Step 1 at one line: the host bit goes; a line that the host owned returns with the home's last data, poisoned. -/
def State.hostGone (s : State) (port line : Nat) (e : DirEnt) : State :=
  let bits := if port = 0 then e.hs0 else e.hs1
  let spoil (s : State) : State := (List.range 4).foldl (fun (s : State) k =>
    let (rd, s) := s.homeSector (line + 32 * k) (List.range 32) true {}
    s.homeMerge (line + 32 * k) ((List.range 32).map fun i => (i, byteAt rd.bytes i)) true) s
  if e.state = .owned (72 + port) then (spoil s).dirRemove line (72 + port)
  else if e.state = .busy ∧ e.hostHolds port then
    let s := match s.biMsg port line with | some m => s.dropMsg m | none => s
    (if bits then s else spoil s).answer line (72 + port) [] [] false false
  else if bits then s.putDir line (e.withHost port false)
  else s

/-- A port is lost: its host copies, requests and watches end, the accesses that wait on it fail with 0x3C01, and a Fatal record
is logged. -/
def State.portLost (s : State) (port : Nat) : State :=
  let s := s.basin.dir.foldl (fun (s : State) e => match NMap.get? s.basin.dir e.1 with
    | some d => s.hostGone port e.1 d
    | none => s) s
  let s := s.modPort port fun p => { p with
    up := false, lost := true, hcache := [], hreqs := [], atc := [], atsReqs := []
    viral := bitAt (Config.freeWord s.fresh).toNat 0 }
  let s := s.drawn 1
  let mine (ga : Nat) : Bool := isHost ga && ga / 2 ^ 70 - 1 == port
  let waits := s.basin.pend.filter fun p => decide (p.kind ≥ 3) && mine p.line
  let s := s.modBasin fun b => { b with pend := b.pend.filter fun p => !(decide (p.kind ≥ 3) && mine p.line) }
  let s := waits.foldl (fun (s : State) p => s.failAccess p.tid p.uid p.va 0x3C01) s
  let s := s.modEng fun e => { e with
    xfers := e.xfers.map fun x => if mine x.ats then { x with st := if x.st = 0 then 0x3C01 else x.st, dead := true } else x }
  let s := s.modLk fun l => { l with
    ctxs := NMap.mapV l.ctxs fun _ x => if x.port = some port then { x with watching := false } else x }
  s.cxlEvent 3 false (bytesOf 1 port)

/-- PORT_LOST: the link goes down. -/
def execPortLost (port : Nat) (s : State) : Out := s.onPort port (.next (s.portLost port))

/-- BISNP_TIMEOUT: a BISnp has had no answer for 50 ms (R316). -/
def execBisnpTimeout (port line : Nat) (s : State) : Out :=
  s.onPort port <| needSome (s.biMsg port line) .notInFlight fun _ => .next (s.portLost port)

/-- HOST_REQUEST_TIMEOUT: a request of the device to host memory has had no answer for 50 ms. -/
def execHostRequestTimeout (port : Nat) (s : State) : Out :=
  s.onPort port <| need (!(s.cport port).hreqs.isEmpty || !(s.cport port).atsReqs.isEmpty) .notInFlight <|
  .next (s.portLost port)

/-- IDE_INTEGRITY_FAILURE: the link stream is torn down and a Fatal record logged; in containment mode the failed data is
released as poison (R322). -/
def execIdeIntegrityFailure (port : Nat) (skid : Bool) (s : State) : Out :=
  s.onPort port <| need (match NMap.get? (s.cport port).ide 0 with | some i => i.running | none => false) .notPending <|
  let s := s.modPort port fun p => { p with ide := NMap.erase p.ide 0, rspPoison := if skid then p.rspPoison else true }
  .next ((s.cxlEvent 3 false (bytesOf 1 port)).portLost port)

/-- PERST: PERST# resets one port only; its link goes down. -/
def execPerst (port : Nat) (s : State) : Out :=
  s.atPort port <|
  let s := if (s.cport port).up then s.portLost port else s
  .next (s.modPort port fun _ => { CxlPort.init with lost := (s.cport port).lost })

/-- CXL_LINK_TRAIN: the port trains at a width and rate; a narrower or slower link is reported by a Warning record (R311). -/
def execCxlLinkTrain (port width rate : Nat) (flit256 : Bool) (s : State) : Out :=
  s.atPort port <| need ([1, 2, 4, 8, 16].contains width && [8, 16, 32, 64].contains rate && (flit256 || decide (rate ≤ 32)))
    .noSuchUnit <|
  need (s.pwr.standbyGood && !(s.cport port).up) .notPending <|
  let s := s.modPort port fun p => { p with up := true, lost := false, width := width, rate := rate, flit256 := flit256 }
  .next (if width < 16 ∨ rate < 64 then s.cxlEvent 1 false (bytesOf 1 port ++ bytesOf 1 width ++ bytesOf 1 rate) else s)

/-- Whether the boot has reached LINKS (R414). -/
def State.linksUp (s : State) : Bool := s.pwr.boot == .links || s.pwr.boot == .service

/-- CONFIG_REQUEST: a read of configuration space; before LINKS, Configuration Request Retry Status (R414). The class code is
R312's; the rest of the space is the CXL specification's, and depends on Memory_Active, which SERVICE sets. -/
def execConfigRequest (port offset : Nat) (s : State) : Out :=
  s.atPort port <| need (decide (offset < 4096) && offset % 4 == 0) .noSuchUnit <|
  .next (
    if !s.linksUp then s.hostRsp port [] false true
    else
      let k := port + (if s.pwr.boot == .service then 2 else 0)
      s.hostRsp port (if offset = 8 then [Config.cxlByte 0 k 8, 0x00, 0x00, 0x12]
        else (List.range 4).map fun i => Config.cxlByte 0 k (offset + i)) false false)

/-! ## Berth windows (R323 to R325) -/

/-- Whether a host access to a trusted berth's window breaks its TEE rule. -/
def State.teeBreaks (s : State) (berth : Nat) (tee : Bool) : Bool := match s.berth? berth with
  | some e => e.trusted && e.locked && e.running && !tee
  | none => false

/-- COUNTER_FETCHADD: an increment at the counter's home, and the old value; any other access to a counter word is refused. -/
def execCounterFetchadd (src : WinSrc) (berth offset bytes : Nat) (kind : WinOp) (value : BitVec 64) (s : State) : Out :=
  need (decide (berth < 255) && decide (0x1000 ≤ offset) && decide (offset < 0x3000)) .noSuchUnit <|
  let add (s : State) : Option Word × State :=
    if kind = .add ∧ bytes = 8 then s.winAdd berth offset value else (none, s.winRefused berth)
  match src with
  | .host port tee =>
    s.onPort port <| .next (
      if s.teeBreaks berth tee then ((s.winRefused berth).hostNote offset 255).hostRsp port [] false true
      else match add s with
        | (some v, s) => s.hostRsp port (bytesOf 8 v.toNat) false false
        | (none, s) => s.hostRsp port [] false true)
  | .thread b => .next (if b = berth then (add s).2 else s.winRefused berth)
  | .erhar b => .next (if b = berth then (add s).2 else s.winRefused berth)

/-! ## Address translation (R319) -/

/-- ATS_INVALIDATION: the entries go, once every request that used them has completed. -/
def execAtsInvalidation (port pasid iova len : Nat) (s : State) : Out :=
  s.onPort port <|
  let hit (e : AtcEnt) : Bool := e.pasid == pasid && decide (iova < (e.page + 1) * 4096) && decide (e.page * 4096 < iova + len)
  let used := (s.cport port).atc.any fun e => hit e && (s.cport port).hreqs.any fun q => q.1 / 4096 == e.hpa
  .next (if used then s else s.modPort port fun p => { p with atc := p.atc.filter fun e => !hit e })

/-- Wakes the accesses of threads that wait on a host line or translation. -/
def State.hostWake (s : State) (key : Nat) (kinds : List Nat) (st : Status) : State :=
  let w := s.basin.pend.filter fun p => kinds.contains p.kind && p.line == key
  let s := s.modBasin fun b => { b with pend := b.pend.filter fun p => !(kinds.contains p.kind && p.line == key) }
  w.foldl (fun (s : State) p => if st = 0 then s.performAccess p.tid p.uid p.access else s.failAccess p.tid p.uid p.va st) s

/-- ATS_COMPLETION: the entry is kept, 4,096 to a port, or the translation is refused, which raises PAGE. -/
def execAtsCompletion (port pasid iova : Nat) (hpa : Option Nat) (write : Bool) (s : State) : Out :=
  s.onPort port <|
  let q := (pasid, iova / 4096)
  let key := (1 + port) * 2 ^ 70 + iova / 4096
  need ((s.cport port).atsReqs.contains q) .notInFlight <|
  let s := s.modPort port fun p => { p with atsReqs := p.atsReqs.filter (· != q) }
  .next (match hpa with
    | some h =>
      let e : AtcEnt := { pasid := pasid, page := iova / 4096, hpa := h / 4096, write := write }
      (s.modPort port fun p => { p with atc := (p.atc ++ [e]).drop (p.atc.length + 1 - 4096) }).hostWake key [5] 0
    | none =>
      (s.modEng fun e => { e with xfers := e.xfers.map fun x => if x.ats = key then { x with atsBad := true } else x }).hostWake
        key [5] 0x2103)

/-! ## The host cache (R320, R321) -/

/-- Makes room in a set of 16 ways: a line that is not pinned goes, its dirty data to the host. -/
def CxlPort.room (p : CxlPort) (line : Nat) : CxlPort :=
  let set := p.hcache.filter fun e => e.1 / 64 % 2048 == line / 64 % 2048
  if NMap.has p.hcache line ∨ set.length < 16 then p
  else match set.find? fun e => !e.2.pinned with
    | some e => { p with hcache := NMap.erase p.hcache e.1 }
    | none => p

/-- CXL_CACHE_RESPONSE: data or ownership arrives, bytes written meanwhile stay, and the waiting accesses go on. An error
completion or poison poisons the line (0x3C02). -/
def execCxlCacheResponse (port line : Nat) (data : List (BitVec 8)) (ok own : Bool) (s : State) : Out :=
  s.onPort port <| need ((s.cport port).hreqs.any fun q => q.1 == line) .notInFlight <|
  let l := NMap.getD (s.cport port).hcache line HcLine.empty
  let fill := (List.range 64).foldl (fun (m : NMap CByte) i => match NMap.get? m i with
    | some c => if c.dirty then m else NMap.put m i { val := byteAt data i, dirty := false }
    | none => NMap.put m i { val := byteAt data i, dirty := false }) l.bytes
  let s := s.modPort port fun p =>
    let p := p.room line
    { p with
      hreqs := p.hreqs.filter fun q => !(q.1 == line && (own || !q.2 || !ok))
      hcache := NMap.put p.hcache line { l with bytes := fill, own := l.own || own, poison := !ok } }
  .next (s.hostWake ((1 + port) * 2 ^ 70 + line) (if own ∨ !ok then [3, 4] else [3]) (if ok then 0 else 0x3C02))

/-- HOST_CACHE_SNOOP: the line yields its ownership, or goes; writes that still wait for ownership stay and ask again. A pinned
line that goes is lost to the snoop (R321). -/
def execHostCacheSnoop (port line : Nat) (exclusive : Bool) (s : State) : Out :=
  s.onPort port <| needSome (NMap.get? (s.cport port).hcache line) .notInFlight fun l =>
  .next (
    if !exclusive then s.modPort port fun p => { p with
      hcache := NMap.put p.hcache line { l with
        own := false, bytes := if l.own then NMap.mapV l.bytes fun _ c => { c with dirty := false } else l.bytes } }
    else if !l.own ∧ l.bytes.any fun c => c.2.dirty then s.modPort port fun p => { p with
      hcache := NMap.put p.hcache line { HcLine.empty with bytes := NMap.keep l.bytes fun _ c => c.dirty } }
    else s.modPort port fun p => { p with hcache := NMap.erase p.hcache line })

/-! ## IDE and TDISP (R322, R323) -/

/-- Whether an SPDM session is established. -/
def State.sessionUp (s : State) : Bool := s.sec.spdm.toList.any fun c => c.sessions.any fun x => x.2.1

/-- IDE_KM: streams 0 for CXL.cachemem and 1 to 8 for CXL.io; a key is programmed, taken into use, switched, or stopped, over an
SPDM session. -/
def execIdeKm (port stream : Nat) (op : IdeKmOp) (s : State) : Out :=
  s.onPort port <| need (decide (stream < 9)) .noSuchUnit <| need s.sessionUp .notPending <|
  let i := NMap.getD (s.cport port).ide stream { keyed := false, keySet := 0, running := false }
  let put (x : IdeStream) : Out := .next (s.modPort port fun p => { p with ide := NMap.put p.ide stream x })
  match op with
  | .program => put { i with keyed := true }
  | .go => need i.keyed .notPending (put { i with running := true })
  | .refresh => need (i.keyed && i.running) .notPending (put { i with keySet := 1 - i.keySet })
  | .stop => .next (s.modPort port fun p => { p with ide := NMap.erase p.ide stream })

/-- TDISP: the interface of a trusted berth is locked, then runs; a stop unlocks it. -/
def execTdisp (port berth : Nat) (op : TdispOp) (s : State) : Out :=
  s.onPort port <| needSome ((s.berth? berth).filter (·.trusted)) .notPending fun e =>
  let put (f : Berth → Berth) : Out := .next (s.modBerth berth f)
  match op with
  | .lock => need (!e.locked) .notPending (put fun e => { e with locked := true })
  | .start => need (e.locked && !e.running) .notPending (put fun e => { e with running := true })
  | .stop => put fun e => { e with locked := false, running := false }

/-! ## The CXL primary mailbox (R313, R327) -/

/-- A command of the primary mailbox of C0; its reply and CXL return code. -/
def State.primary (s : State) (r : Nat × List Byte × (CxlSt → CxlSt)) : Out :=
  s.onPort 0 (.next (s.modCxl fun c => { r.2.2 c with reply := r.2.1, replyStatus := r.1 }))

/-- Number of an event log. -/
def CxlLog.num : CxlLog → Nat
  | .informational => 0
  | .warning => 1
  | .failure => 2
  | .fatal => 3

/-- IDENTIFY_CXL. -/
def execIdentifyCxl (s : State) : Out := s.primary (0, (List.range 67).map (Config.cxlByte 1 0), id)

/-- A record in the CXL layout (log entry 31): UUID, length, handle, time, body. -/
def CxlRec.bytes (r : CxlRec) : List Byte :=
  ((List.range 16).map (Config.cxlByte 4 (if r.dram then 1 else 0))) ++ [0x80] ++ bytesOf 3 0 ++ bytesOf 2 r.handle ++ bytesOf 2 0 ++
  bytesOf 8 r.time ++ bytesOf 16 0 ++ (r.body ++ List.replicate 80 0).take 80

/-- GET_EVENT_RECORDS. -/
def execGetEventRecords (log : CxlLog) (s : State) : Out :=
  let l := s.cxl.logs.toList.getD (CxlLog.num log) []
  let missed := s.cxl.overflow.toList.getD (CxlLog.num log) 0
  s.primary (0, bytesOf 1 (if missed > 0 then 1 else 0) ++ bytesOf 1 0 ++ bytesOf 2 (Nat.min 0xFFFF missed) ++ bytesOf 16 0 ++
    bytesOf 2 l.length ++ bytesOf 10 0 ++ (l.map CxlRec.bytes).flatten, id)

/-- CLEAR_EVENT_RECORDS: the named records, or all of a log for none named; a handle that is not there clears nothing. -/
def execClearEventRecords (log : CxlLog) (handles : List Nat) (s : State) : Out :=
  let n := CxlLog.num log
  let l := s.cxl.logs.toList.getD n []
  if handles.all fun h => l.any fun r => r.handle == h then
    let rest := if handles.isEmpty then [] else l.filter fun r => !handles.contains r.handle
    s.primary (0, [], fun c => { c with
      logs := c.logs.setIfInBounds n rest, overflow := c.overflow.setIfInBounds n 0 })
  else s.primary (0x0E, [], id)

/-- GET_EVENT_INTERRUPT_POLICY. -/
def execGetEventInterruptPolicy (s : State) : Out := s.primary (0, (s.cxl.policy.map (bytesOf 1)).flatten, id)

/-- SET_EVENT_INTERRUPT_POLICY: one setting for each log. -/
def execSetEventInterruptPolicy (pol : List Nat) (s : State) : Out :=
  if pol.length = 4 then s.primary (0, [], fun c => { c with policy := pol.map (· % 256) }) else s.primary (2, [], id)

/-- GET_LOG. -/
def execGetLog (uuid offset len : Nat) (s : State) : Out :=
  s.primary (0, (List.range len).map fun i => Config.cxlByte 2 uuid (offset + i), id)

/-- GET_SUPPORTED_LOGS. -/
def execGetSupportedLogs (s : State) : Out := s.primary (0, (List.range 8).map (Config.cxlByte 3 0), id)

/-- SET_TIMESTAMP: recorded only (R388). -/
def execSetTimestamp (ns : BitVec 64) (s : State) : Out := s.primary (0, [], fun c => { c with timestamp := ns })

end Sys2Proof.Machine
end

