-- ==== Sys2Proof/Machine/Mbox.lean ====
section
/-! DEFINITION. Answers of the Kiltor mailboxes and the end of background operations (R331, R334). -/

namespace Sys2Proof.Machine

/-- A request's field: `n` bytes of its payload from offset `off` (R338). -/
def MbReq.num (r : MbReq) (off n : Nat) : Nat := rdLE r.payload off n

/-- The mailbox's own berth: 0 the operator's (R332). -/
def mbBerth : Mbox → Nat := mbKey

/-- Applies NOTIFY (Table 13.1): the operator's raises an MSI-X vector of C0 if bit 0 is set, or always at the end of a
background operation; a berth's adds to a counter of a context of that berth. -/
def State.mbNotify (s : State) (mb : Mbox) (w : Word) (bg : Bool) : State := match mb with
  | .op =>
    if bg then s.modCxl fun c => { c with msix := c.msix ++ [2] }
    else if Word.bit w 0 then s.modCxl fun c => { c with msix := c.msix ++ [1] }
    else s
  | .berth b =>
    let ctx := Word.fld w 13 4
    if Word.bit w 15 && (s.ctx? ctx).any (·.berth == b) then
      s.addCtr ctx (Word.fld w 3 0) (BitVec.ofNat 64 (Word.fld w 63 16))
    else s

/-- The response stands in the page, OWNER clears, and NOTIFY is applied (R331 steps 5 and 6). -/
def State.mbAnswer (s : State) (mb : Mbox) (st : Status) (rsp : List Byte) (bg : Nat) : State :=
  let k := mbKey mb
  let w : Word := BitVec.ofNat 64 ((s.mbPage k).num 0x10 8)
  let s := s.modPage k fun p =>
    { ((((((p.set 0x100 rsp).set 0x0E (bytesOf 2 rsp.length)).set 0x0A (bytesOf 2 st.toNat)).set 0x28 (bytesOf 4 bg)).set 0x20
        (bytesOf 8 s.clk.now)).set 0 (bytesOf 4 0)) with
      req := none, stage := false, work := [] }
  s.mbNotify mb w false

/-- A background operation. -/
def State.bg? (s : State) (id : Nat) : Option Bg := s.mbx.bgs.find? fun g => g.id == id

/-- Changes a background operation. -/
def State.modBg (s : State) (id : Nat) (f : Bg → Bg) : State :=
  s.modMbx fun m => { m with bgs := m.bgs.map fun g => if g.id == id then f g else g }

/-- Whether a result is still kept: fewer than 64 later operations of its mailbox have ended (R334). -/
def keptBg (bgs : List Bg) (g : Bg) : Bool :=
  !g.ended || decide ((bgs.filter fun h => h.ended && h.mb == g.mb && decide (h.endOrder > g.endOrder)).length < 64)

/-- A background operation ends (R334): its result stands, its request's NOTIFY is applied again, and results older than 64 of
the same mailbox go. -/
def State.bgEnd (s : State) (id : Nat) (st : Status) (rsp : List Byte) : State :=
  match s.bg? id with
  | none => s
  | some g =>
    if g.ended then s
    else
      let s := s.modMbx fun m =>
        let bgs := m.bgs.map fun h => if h.id == id then
          { h with ended := true, status := st, rsp := rsp, progress := 1000, tDone := s.clk.now, endOrder := m.ends + 1 } else h
        { m with ends := m.ends + 1, bgs := bgs.filter (keptBg bgs) }
      s.mbNotify g.mb g.req.notify true

/-- Starts a background operation and answers 0x0901 with its BG_ID (R334). -/
def State.bgStart (s : State) (mb : Mbox) (req : MbReq) (aux : List Nat) : State :=
  let id := s.mbx.nextBg
  let g : Bg := { id := id, mb := mb, req := req, ended := false, status := 0x0901, progress := 0, tDone := 0, rsp := []
                  endOrder := 0, aux := aux, since := s.clk.now }
  let s := s.modMbx fun m => { m with bgs := m.bgs ++ [g], nextBg := m.nextBg + 1 }
  s.mbAnswer mb 0x0901 [] id

/-- A berth that owns nothing yet: kind, priority and quota to be set. -/
def Berth.blank (now : Nat) : Berth :=
  { state := .active, kind := 0, trusted := false, opEntry := false, prioMax := 7, quota := 0, dies := [], ownedAt := [], rowCap := 0
    growPolicy := 0, spill := [], faultqEntries := 0, handlerEntry := none, faultqVa := 0, faultqSize := 0, faultq := []
    handlerTid := none, pasid := none, regions := [], pool := none, saveList := [], loadList := []
    account := { Account.zero with tCreated := now }, rotation := 0, slots := Vector.replicate 64 none, cargoMapped := false
    windows := [], locked := false, running := false, mapPages := [], moorLeak := [] }

end Sys2Proof.Machine
end

