-- ==== Sys2Proof/Machine/Boot.lean ====
section
/-! DEFINITION. The root of trust's checks of firmware images (R395 to R397), alarms (R406), device reset and the start of a full
bring-up (R408). -/

namespace Sys2Proof.Machine

/-! ## Firmware images -/

/-- Whether key slot `k` of a family is valid: its hash is non-zero and it is not revoked (R392). -/
def slotValid (hash : Vector (BitVec 384) 4) (revoke : BitVec 4) (k : Nat) : Bool :=
  decide (k < 4) && hash.toList.getD k 0 != 0 && !bitAt revoke.toNat k

/-- The signed header of an image. -/
def imgHeader (img : List Byte) : List Byte := img.take 1024

/-- The body of an image (R395). -/
def imgBody (img : List Byte) : List Byte := (img.drop 1024).take (rdLE img 0x1C 4)

/-- Whether an image carries a directive: revocations, ADVANCE_SVN, or bits to blow (R397). -/
def imgDirects (img : List Byte) : Bool := !zeroAt img 0x16 5 || rdLE img 6 2 % 2 == 1

/-- The fuses once an image's directives have been applied (R397). Blown fuses stay blown. -/
def Fuses.apply (f : Fuses) (img : List Byte) : Fuses :=
  { f with
    revokeRsa := f.revokeRsa ||| BitVec.ofNat 4 (rdLE img 0x16 1)
    revokeSlh := f.revokeSlh ||| BitVec.ofNat 4 (rdLE img 0x17 1)
    svn := if rdLE img 6 2 % 2 = 1 then Nat.max f.svn (rdLE img 0x10 4) else f.svn
    alarmPolicy := f.alarmPolicy ||| BitVec.ofNat 2 (rdLE img 0x18 1)
    debugPolicy := f.debugPolicy ||| BitVec.ofNat 2 (rdLE img 0x19 1)
    berthReduce := f.berthReduce ||| BitVec.ofNat 8 (rdLE img 0x1A 1) }

/-- MAGIC, HDR_VERSION, reserved fields and length of an image (R396 check 1, Table 16.3). -/
def imgForm (img : List Byte) : Bool :=
  img.take 4 == [0x58, 0x5A, 0x4B, 0x46] && rdLE img 4 2 == 1 && decide (rdLE img 6 2 < 2) && decide (rdLE img 0x16 1 < 16) &&
  decide (rdLE img 0x17 1 < 16) && decide (rdLE img 0x18 1 < 4) && decide (rdLE img 0x19 1 < 4) && zeroAt img 0x1B 1 &&
  zeroAt img 0x208 504 && decide (rdLE img 0x10 4 ≤ 128) && img.length == 1024 + rdLE img 0x1C 4 + 384 + 16224

/-- The checks of R396, in their order: 0, 0x4B03, or 0x4B04 for an image below the counter. -/
def Fuses.checkImage (f : Fuses) (img : List Byte) : Status :=
  let n := rdLE img 0x1C 4
  let rk := rdLE img 0x14 1
  let sk := rdLE img 0x15 1
  let rh := f.rsaHash.toList.getD rk 0
  let sh := f.slhHash.toList.getD sk 0
  let g := f.apply img
  if imgForm img &&
     Config.sha384 (imgBody img) == BitVec.ofNat 384 (rdLE img 0x28 48) &&
     (slotValid f.rsaHash f.revokeRsa rk && Config.sha384 ((img.drop 0x58).take 384) == rh) &&
     (slotValid f.slhHash f.revokeSlh sk && Config.sha384 ((img.drop 0x1D8).take 48) == sh) &&
     Config.rsaVerify rh (imgHeader img) ((img.drop (1024 + n)).take 384) &&
     Config.slhVerify sh (imgHeader img) ((img.drop (1024 + n + 384)).take 16224) &&
     (!bitAt (rdLE img 0x16 1) rk && !bitAt (rdLE img 0x17 1) sk &&
      (List.range 4).any (slotValid f.rsaHash g.revokeRsa) && (List.range 4).any (slotValid f.slhHash g.revokeSlh)) &&
     (!imgDirects img || rdLE img 0x20 8 == f.dsn.toNat)
  then (if rdLE img 0x10 4 < f.svn then 0x4B04 else 0)
  else 0x4B03

/-- Applies an accepted image's directives, unless an alarm has locked the device (R397). -/
def State.directives (s : State) (img : List Byte) : State :=
  if s.sec.alarmLock then s
  else
    s.modSec fun x => { x with fuses := x.fuses.apply img }

/-! ## Attestation count (R402) -/

/-- Counts a change of a measurement block. -/
def State.measured (s : State) : State := s.modSec fun x => { x with measGen := x.measGen + 1 }

/-- Whether a debug token is in force. -/
def State.unlocked (s : State) : Bool := match s.sec.debugUntil with
  | some t => decide (s.clk.now < t)
  | none => false

/-- Ends a debug unlock; measurement block 4 changes. -/
def State.debugEnd (s : State) : State :=
  if s.sec.debugUntil.isSome then (s.modSec fun x => { x with debugUntil := none, debugScope := 0 }).measured else s

/-! ## Alarms (R406) -/

/-- The alarm level that the fuses ask for; 0 reads as 1 (Table 16.1). -/
def Fuses.level (f : Fuses) : Nat := Nat.max 1 f.alarmPolicy.toNat

/-- Ends the repair in progress and forgets the waiting ones (Table 17.3). -/
def State.repairStop (s : State) (st : Status) : State :=
  let s := match s.panel.repair with
    | some r => (match r.bg with | some g => s.bgEnd g st [] | none => s)
    | none => s
  s.modPanel fun p => { p with repair := none, repairQ := [] }

/-- Abandons a firmware switch that has not ended. -/
def State.switchStop (s : State) (st : Status) : State :=
  if s.mbx.switching then
    let s := s.modMbx fun m => { m with switching := false }
    (s.modSec fun x => { x with fwState := 0 }).bgEnd s.sec.switchBg st []
  else s

/-- A sensor trips: alarm level 1 (Table 16.6). A second cause adds nothing. Levels 2 and 3 follow by their own commands. -/
def State.raiseAlarm (s : State) (cause : Nat) : State :=
  if s.sec.alarmLock then s
  else
    let s := s.modSec fun x => { x with alarmLock := true, alarmCause := cause, alarmLevel := 1 }
    let s := s.modPwr fun p => { p with
      alarmN := true, boot := if p.boot = .service ∨ p.boot = .stopped then p.boot else .locked }
    let s := s.modLk fun l => { l with takes := false }
    let s := s.lk.cmds.foldl (fun (s : State) c => if c.phase.started then s.failCmd c.ctx c.seq 0x4B05 else s) s
    let s := ((s.debugEnd.switchStop 0x4B05).repairStop 0x4B05).measured
    s.cxlEvent 3 false (bytesOf 1 cause)

/-! ## Device reset and the start of a bring-up (R408) -/

/-- What a port keeps over a device reset: its link (R382). -/
def CxlPort.afterReset (p : CxlPort) : CxlPort :=
  { CxlPort.init with up := p.up, lost := p.lost, width := p.width, rate := p.rate, flit256 := p.flit256 }

/-- A device reset. Kept are the waiting commands, the pins and sensors, the alarm, the fuses, the firmware store (images,
certificates, retirement list, repair list), what DRAM holds, the CXL links and the I3C address; all else takes its reset
value, the time base among it (R387). -/
def State.deviceReset (s : State) : State :=
  let z := State.reset
  { z with
    pending := s.pending
    fresh := s.fresh
    panel := { z.panel with fusedStandby := s.panel.fusedStandby, grades := s.panel.grades }
    mem := { z.mem with dram := s.mem.dram, sect := s.mem.sect, repairs := s.mem.repairs }
    cxl := { z.cxl with ports := s.cxl.ports.map CxlPort.afterReset }
    mbx := { z.mbx with
      resetting := s.mbx.resetting
      pages := if s.mbx.resetting then NMap.keep s.mbx.pages fun k _ => k == 0 else [] }
    rel := { z.rel with retired := s.rel.retired }
    pwr := { z.pwr with
      boot := s.pwr.boot, standbyGood := s.pwr.standbyGood, flow := s.pwr.flow, vr := s.pwr.vr, pwrGood := s.pwr.pwrGood
      modId := s.pwr.modId, dynAddr := s.pwr.dynAddr, thermTrip := s.pwr.thermTrip, alarmN := s.pwr.alarmN
      temp := s.pwr.temp, romRestarts := s.pwr.romRestarts }
    sec := { z.sec with
      fuses := s.sec.fuses, alarmLock := s.sec.alarmLock, alarmCause := s.sec.alarmCause, alarmLevel := s.sec.alarmLevel
      genNext := s.sec.genNext, active := s.sec.active, previous := s.sec.previous } }

/-- A full bring-up starts: device reset, and the root of trust leaves reset. -/
def State.bringUpStart (s : State) : State :=
  s.deviceReset.modPwr fun p => { p with boot := .rom, romRestarts := 0 }

/-- Loss of standby power (R438, R442): only fuses, the firmware store and the straps remain; the alarm lock and the thermal trip
end, and what the stacks held is lost. -/
def State.standbyOff (s : State) : State :=
  let z := State.reset
  { z with
    pending := s.pending
    fresh := s.fresh
    panel := { z.panel with fusedStandby := s.panel.fusedStandby, grades := s.panel.grades }
    mem := { z.mem with repairs := s.mem.repairs }
    rel := { z.rel with retired := s.rel.retired }
    pwr := { z.pwr with standbyGood := false, modId := s.pwr.modId }
    sec := { z.sec with fuses := s.sec.fuses, active := s.sec.active, previous := s.sec.previous } }

end Sys2Proof.Machine
end

