-- ==== Sys2Proof/Machine/Maps.lean ====
section
/-! DEFINITION. Kiltor firmware's changes of berth maps and page ownership (R243 to R252, R337, R340, R361). A map is kept as its
leaves, by 64 KiB page number of the virtual address: page address, level (1 1 GiB, 2 2 MiB, 3 64 KiB), WRITE and EXEC. Its tables
stand in SYSTEM pages in 4 KiB blocks (log entry 9). -/

namespace Sys2Proof.Machine

/-- The least number from `i`, among the next `fuel`, that satisfies `p`. -/
def searchUp (p : Nat → Bool) : Nat → Nat → Option Nat
  | 0, _ => none
  | fuel + 1, i => if p i then some i else searchUp p fuel (i + 1)

/-! ## Leaves and tables -/

/-- A map's leaves. -/
abbrev Leaves := NMap (Nat × Nat × Bool × Bool)

/-- 64 KiB pages of a leaf at a level. -/
def leafPages (level : Nat) : Nat := leafSize level / 0x10000

/-- Whether the pages [lo, hi) meet a leaf. -/
def leafMeets (lo hi : Nat) (e : Nat × (Nat × Nat × Bool × Bool)) : Bool :=
  decide (e.1 < hi) && decide (lo < e.1 + leafPages e.2.2.1)

/-- The leaf that maps a virtual page: its key and contents. -/
def leafAt (m : Leaves) (vp : Nat) : Option (Nat × (Nat × Nat × Bool × Bool)) := m.find? (leafMeets vp (vp + 1))

/-- The page address that a virtual page maps to. -/
def pageAt (m : Leaves) (vp : Nat) : Option Nat := (leafAt m vp).map fun e => e.2.1 + (vp - e.1) * 0x10000

/-- Splits the leaves that [lo, hi) covers in part into 64 KiB leaves. -/
def leafCut (m : Leaves) (lo hi : Nat) : Leaves :=
  m.foldl (fun (acc : Leaves) e =>
    if leafMeets lo hi e && !(decide (lo ≤ e.1) && decide (e.1 + leafPages e.2.2.1 ≤ hi)) then
      (List.range (leafPages e.2.2.1)).foldl (fun (acc : Leaves) i =>
        NMap.put acc (e.1 + i) (e.2.1 + i * 0x10000, 3, e.2.2.2.1, e.2.2.2.2)) acc
    else NMap.put acc e.1 e.2) []

/-- The leaves of the cargo (R253 step 4): read-only, or read-write for the operator while it is LOADING (R342). -/
def State.cargoLeaves (s : State) : Leaves :=
  (List.range s.bth.cargoPages.length).filterMap fun i => (s.bth.cargoPages[i]?).map fun p =>
    (s.bth.cargoVa / 0x10000 + i, (p, 3, decide (s.bth.cargoState = .loading), false))

/-- Every leaf of a berth's map. -/
def State.leaves (s : State) (b : Nat) : Leaves := match s.berth? b with
  | some e => if e.cargoMapped then NMap.putAll e.mapPages s.cargoLeaves else e.mapPages
  | none => []

/-- Numbers without repeats, rising, from a list that is already rising. -/
def distinct : List Nat → List Nat
  | [] => []
  | [a] => [a]
  | a :: b :: t => if a = b then distinct (b :: t) else a :: distinct (b :: t)

/-- The tables that leaves need, as (level, address prefix): the root, then levels 1 to 3 (R250). -/
def mapTables (m : Leaves) : List (Nat × Nat) :=
  let deep (l : Nat) : List Nat := (m.filter fun e => decide (l ≤ e.2.2.1)).map (·.1)
  (0, 0) :: ((distinct ((deep 1).map (· / 2 ^ 23))).map fun p => (1, p)) ++
  ((distinct ((deep 2).map (· / 2 ^ 14))).map fun p => (2, p)) ++ (distinct ((deep 3).map (· / 2 ^ 5))).map fun p => (3, p)

/-- Address prefix of the table of level `l` that holds a virtual page's entry, and its index there. -/
def mapSlot (l vp : Nat) : Nat × Nat :=
  if l = 0 then (0, vp / 2 ^ 23) else if l = 1 then (vp / 2 ^ 23, vp / 2 ^ 14 % 512)
  else if l = 2 then (vp / 2 ^ 14, vp / 2 ^ 5 % 512) else (vp / 2 ^ 5, vp % 32)

/-- First virtual page under a table's prefix. -/
def prefixPage (l p : Nat) : Nat := if l = 1 then p * 2 ^ 23 else if l = 2 then p * 2 ^ 14 else p * 2 ^ 5

/-- Table blocks of one die: its SYSTEM region above the POT. -/
def blocksPerDie : Nat := 15616

/-- Address of a table block: the dies in service in turn, 61 MiB each above the 3 MiB POT. -/
def State.blockAddr (s : State) (u : Nat) : Option Nat :=
  (s.diesIn[u / blocksPerDie]?).map fun d => dramBase d + 0xBFC300000 + u % blocksPerDie * 0x1000

/-- `n` free table blocks, lowest first. -/
def State.freeBlocks (s : State) (n : Nat) : List Nat :=
  let used := (s.bth.tables.map (·.2)).flatten
  ((List.range (used.length + n)).filter fun u => !used.contains u).take n

/-- Empties a table block: its sectors take stored-zero form and leave the home part. -/
def State.blockClear (s : State) (a : Nat) : State :=
  let out (x : Nat) : Bool := !(decide (a ≤ x) && decide (x < a + 0x1000))
  let s := s.modBasin fun b => { b with
    home := NMap.keep b.home fun x _ => out x, homePoison := NMap.keep b.homePoison fun x _ => out x }
  s.modMem fun m => { m with dram := NMap.keep m.dram fun x _ => out x, sect := NMap.keep m.sect fun x _ => out x }

/-- A map entry's word (R250). -/
def mapWord (a : Nat) (leaf w x : Bool) : Nat := a + 1 + (if leaf then 2 else 0) + (if w then 4 else 0) + (if x then 8 else 0)

/-- The entries of one table, as (index, word): the tables below it and its leaves. -/
def tableEntries (m : Leaves) (addr : List ((Nat × Nat) × Nat)) (l p : Nat) : List (Nat × Nat) :=
  (addr.filterMap fun t =>
    let at' := mapSlot l (prefixPage t.1.1 t.1.2)
    if t.1.1 = l + 1 ∧ at'.1 = p then some (at'.2, mapWord t.2 false false false) else none) ++
  m.filterMap fun e =>
    let at' := mapSlot l e.1
    if e.2.2.1 = l ∧ at'.1 = p then some (at'.2, mapWord e.2.1 true e.2.2.2.1 e.2.2.2.2) else none

/-- Writes a berth's map into one bank: tables, ROOT, and the TLB entries of the bank go (R251). None where the table region is
full. -/
def State.mapBuild (s : State) (b : Nat) (bank : Bool) : Option State :=
  let key := b * 2 + (if bank then 1 else 0)
  let m := s.leaves b
  let ts := mapTables m
  let s := s.modBth fun x => { x with tables := NMap.erase x.tables key }
  let us := s.freeBlocks ts.length
  match us.mapM s.blockAddr with
  | none => none
  | some as =>
    let addr := ts.zip as
    let s := s.modBth fun x => { x with tables := NMap.put x.tables key us }
    let s := as.foldl State.blockClear s
    let s := addr.foldl (fun (s : State) t =>
      (tableEntries m addr t.1.1 t.1.2).foldl (fun (s : State) e =>
        (s.paWrite .firmware (t.2 + 8 * e.1) (bytesOf 8 e.2)).2.2) s) s
    some ((s.setRfld (bmapBase b + (if bank then 8 else 0)) 42 11 (as.headD 0 / 0x800)).tlbDrop b bank)

/-- A bank's regions become those of the other bank. -/
def Berth.copyRegions (e : Berth) (dst : Bool) : Berth :=
  let mine := NMap.keep e.regions fun k _ => decide (32 ≤ k) != dst
  { e with regions := NMap.putAll mine (mine.map fun r => (r.1 % 32 + (if dst then 32 else 0), r.2)) }

/-- Brings the old bank of a berth up to date once OLD_BUSY has cleared (R337 steps 3 and 4), its regions too (R292). -/
def State.mapSync (s : State) (b : Nat) : State :=
  if s.bth.mapStale.contains b ∧ !s.bmapOld b then
    let s := s.modBth fun x => { x with mapStale := x.mapStale.filter (· != b) }
    let s := s.modBerth b fun e => e.copyRegions (!s.activeBank b)
    (s.mapBuild b (!s.activeBank b)).getD s
  else s

/-- Whether both banks of a berth agree, so that its map can be changed. -/
def State.mapReady (s : State) (b : Nat) : Bool := !s.bth.mapStale.contains b && !s.bmapOld b

/-- Whether the table region has room for both banks of a berth's map, one after the other. -/
def State.mapFits (s : State) (b : Nat) : Bool :=
  let n := (mapTables (s.leaves b)).length
  let others := sumNat ((s.bth.tables.filter fun t => t.1 / 2 != b).map fun t => t.2.length)
  let old := (NMap.getD s.bth.tables (b * 2 + (if s.activeBank b then 1 else 0)) []).length
  decide (others + n + Nat.max n old ≤ blocksPerDie * s.diesIn.length)

/-- Steps 1 and 2 of R337 for a change of what a berth maps: the inactive bank is written and committed. None where the table
region is full. -/
def State.mapCommit (s : State) (b : Nat) : Option State :=
  let bank := !s.activeBank b
  if s.mapFits b then
    (s.mapBuild b bank).map fun s =>
      let s := (s.setRbit (bmapBase b + 0x10) 0 bank).bmapCommitW b
      (s.modBth fun x => { x with mapStale := insertNat b x.mapStale }).mapSync b
  else none

/-- Both banks of a new berth's map, empty. -/
def State.mapInit (s : State) (b : Nat) : State :=
  let s := (s.mapBuild b false).getD s
  (s.mapBuild b true).getD s

/-! ## Pages -/

/-- First page number of a die. -/
def firstPage (d : Nat) : Nat := dramBase d / 0x10000

/-- Pages of a die outside its device table region. -/
def diePages : Nat := 786432 - 1024

/-- The pages a berth owns (R241), every one of which has a POT entry of its own. -/
def State.pagesOf (s : State) (b : Nat) : List Nat :=
  (s.mem.pot.filter fun e => e.2.owner == b && (e.2.state == .owned || e.2.state == .quarantined)).map (·.1)

/-- The lowest aligned run of `n` ZEROED pages of a die (R340). -/
def State.zeroedRun (s : State) (d n : Nat) : Option Nat :=
  (searchUp (fun i => (List.range n).all fun j => (s.pot (firstPage d + i * n + j)).state == .zeroed) (diePages / n) 0).map
    fun i => firstPage d + i * n

/-- An OWNED entry. -/
def PotEnt.own (b : Nat) (ro guard : Bool) : PotEnt :=
  { owner := b, state := .owned, guard := guard, ro := ro, mooring := false, spill := false, code := false }

/-- Gives a run of pages one POT entry. -/
def State.setPots (s : State) (page n : Nat) (e : PotEnt) : State :=
  (List.range n).foldl (fun s i => s.setPot (page + i) e) s

/-- Takes one leaf of `n` pages on a die; its first page. -/
def State.takeOn (s : State) (d n : Nat) (e : PotEnt) : Option (Nat × State) :=
  (s.zeroedRun d n).map fun p => (p, s.setPots p n e)

/-- The dies of a list in turn from the one at `start`, cyclically. -/
def turnFrom (ds : List Nat) (start : Nat) : List Nat := (ds.filter (start ≤ ·)) ++ ds.filter (· < start)

/-- Takes `k` leaves round-robin over dies, each on the first in turn that has room, after the die of the leaf before (R340):
their first pages in order, and the next turn. -/
def State.takeRound (ds : List Nat) (n : Nat) (e : PotEnt) : Nat → Nat → State → Option (List Nat × Nat × State)
  | 0, rot, s => some ([], rot, s)
  | k + 1, rot, s =>
    match (turnFrom ds rot).find? fun d => (s.zeroedRun d n).isSome with
    | none => none
    | some d =>
      match s.takeOn d n e with
      | none => none
      | some (p, s) => (State.takeRound ds n e k (d + 1) s).map fun r => (p :: r.1, r.2)

/-- Takes `k` leaves on one die. -/
def State.takeDie (d n : Nat) (e : PotEnt) : Nat → State → Option (List Nat × State)
  | 0, s => some ([], s)
  | k + 1, s => match s.takeOn d n e with
    | none => none
    | some (p, s) => (State.takeDie d n e k s).map fun r => (p :: r.1, r.2)

/-- Drops every copy of a page's bytes from L1s, far and home parts (BASIN_MAINT, R248). -/
def State.dropPage (s : State) (page : Nat) : State :=
  let out (a : Nat) : Bool := a / 0x10000 != page
  s.modBasin fun b => { b with
    l1 := NMap.keep b.l1 fun k _ => out (keyAddr k), l1Poison := NMap.keep b.l1Poison fun k _ => out (keyAddr k)
    far := NMap.keep b.far fun k _ => out (keyAddr k), farPoison := NMap.keep b.farPoison fun k _ => out (keyAddr k)
    farLines := NMap.keep b.farLines fun k _ => out (keyAddr k)
    home := NMap.keep b.home fun a _ => out a, homePoison := NMap.keep b.homePoison fun a _ => out a
    homeLines := NMap.keep b.homeLines fun a _ => out a
    dir := NMap.keep b.dir fun a _ => out a, updq := b.updq.filter fun q => out q.line }

/-- Lines of pages that the host holds, or that a transaction holds busy (R318). -/
def State.heldLines (s : State) (pages : List Nat) : List Nat :=
  (s.basin.dir.filter fun e => pages.contains (e.1 / 0x10000) &&
    (e.2.state == .busy || e.2.hostHolds 0 || e.2.hostHolds 1)).map (·.1)

/-- Releases pages to ZEROED (R248, R318): host copies are recalled first, and until they are back nothing is zeroed (false). A
tenant's page that is out of use stays so: it is WITHDRAWN (R361). -/
def State.releasePages (s : State) (pages : List Nat) : Bool × State :=
  let held := s.heldLines pages
  if held.isEmpty then
    (true, pages.foldl (fun (s : State) p =>
      let bad := (s.pot p).state == .quarantined && (s.pot p).owner != 255
      ((s.dropPage p).zeroPage p).setPot p { PotEnt.own 0 false false with
        state := if bad then .withdrawn else .zeroed }) s)
  else (false, held.foldl (fun (s : State) l => (s.recall l (reqOf 76 .firmware)).2) s)

/-! ## Withdrawn pages (R361) -/

/-- The berths whose maps name a page. -/
def State.mappers (s : State) (page : Nat) : List Nat :=
  (s.bth.berths.filter fun e => (e.2.mapPages.any fun l => decide (l.2.1 / 0x10000 ≤ page) &&
      decide (page < l.2.1 / 0x10000 + leafPages l.2.2.1)) ||
    (e.2.cargoMapped && s.bth.cargoPages.contains (page * 0x10000))).map (·.1)

/-- A map with one page's leaf pointed at another page. -/
def repoint (m : Leaves) (old new : Nat) : Leaves :=
  match m.find? fun l => decide (l.2.1 / 0x10000 ≤ old) && decide (old < l.2.1 / 0x10000 + leafPages l.2.2.1) with
  | none => m
  | some l =>
    let vp := l.1 + (old - l.2.1 / 0x10000)
    let m := leafCut m vp (vp + 1)
    match leafAt m vp with
    | some q => NMap.put m vp (new * 0x10000, 3, q.2.2.2.1, q.2.2.2.2)
    | none => m

/-- Writes back and drops what the basins hold of a page, so that its stack holds it whole. -/
def State.flushPage (s : State) (page : Nat) : State :=
  let lo := page * 0x10000
  let hi := lo + 0x10000
  let s := s.diesIn.foldl (fun s d => (s.cores d).foldl (fun s g => (s.l1Flush (d * 32 + g) lo hi).2) s) s
  let s := s.diesIn.foldl (fun s d => (s.farFlush d lo hi).2) s
  let s := (sortNat ((s.basin.home.filter fun e => e.1 / 0x10000 == page).map fun e => secOf e.1)).foldl State.homeClean s
  s.dropPage page

/-- Copies a page's stored sectors to another page of the die, corrected or poisoned as decoded, with its POT entry. -/
def State.copyPage (s : State) (old new : Nat) : State :=
  let s := (s.mem.sect.filter fun c => c.1 / 0x10000 == old).foldl (fun (s : State) c => (s.sectRewrite c.1 []).2) s
  let mv (a : Nat) : Nat := a - old * 0x10000 + new * 0x10000
  let s := s.modMem fun m => { m with
    dram := (m.dram.filter fun c => c.1 / 0x10000 == old).foldl (fun d c => NMap.put d (mv c.1) c.2) m.dram
    sect := (m.sect.filter fun c => c.1 / 0x10000 == old).foldl (fun d c => NMap.put d (mv c.1) c.2) m.sect
    spentSec := (m.spentSec.filter fun c => c.1 / 0x10000 == old).foldl (fun d c => NMap.put d (mv c.1) c.2) m.spentSec }
  s.setPot new (s.pot old)

/-- Whether no access of a berth is in progress. -/
def State.mapQuiet (s : State) (b : Nat) : Bool :=
  (s.eng.xfers.all fun x => x.berth != b) && s.thr.threads.all fun e => e.2.berth != b || e.2.wait != .memory

/-- Whether a page's state and use let R361 move it. -/
def PotEnt.moves (e : PotEnt) : Bool :=
  (e.state == .owned || e.state == .loading) && !e.mooring && !e.spill && !e.code

/-- Whether a page can be taken out of use now: one that moves waits for the accesses in progress under its maps, and for host
copies, which are recalled. -/
def State.withdrawReady (s : State) (page : Nat) : Bool :=
  !(s.pot page).moves ||
  ((s.mappers page).all fun b => s.mapReady b && s.mapQuiet b) && (s.heldLines [page]).isEmpty

/-- Recalls what keeps a page from being taken out of use. -/
def State.withdrawAsk (s : State) (page : Nat) : State :=
  let s := (s.mappers page).foldl State.mapSync s
  if (s.pot page).moves then (s.heldLines [page]).foldl (fun (s : State) l => (s.recall l (reqOf 76 .firmware)).2) s else s

/-- Takes a page of a row without a spare out of use (R361): copied and re-pointed, or quarantined where it is referred to by
physical address or its die has no ZEROED page left. -/
def State.withdrawPage (s : State) (page : Nat) : State :=
  let e := s.pot page
  let gone : PotEnt := { PotEnt.own 0 false false with state := .withdrawn }
  if e.state = .free ∨ e.state = .zeroed ∨ e.state = .withdrawn then s.setPot page gone
  else if !e.moves then s.setPot page { e with state := .quarantined }
  else match s.zeroedRun (homeOf (page * 0x10000)) 1 with
    | none => s.setPot page { e with state := .quarantined }
    | some new =>
      let bs := s.mappers page
      let s := (s.flushPage page).copyPage page new
      let s := s.modBth fun x => { x with
        cargoPages := x.cargoPages.map fun p => if p = page * 0x10000 then new * 0x10000 else p
        berths := NMap.mapV x.berths fun _ b => { b with mapPages := repoint b.mapPages page new } }
      let s := bs.foldl (fun (s : State) b => (s.mapCommit b).getD s) s
      (s.zeroPage page).setPot page gone

end Sys2Proof.Machine
end

