-- ==== Sys2Proof/Machine/Power.lean ====
section
/-! DEFINITION. Supply, coolant and temperature events, forcing and droop, the power cap, the module stop and energy (R376 to R386,
R438 to R445). -/

namespace Sys2Proof.Machine

/-! ## Forcing (R379) -/

/-- Starts the return of a die from forcing, if nothing forces it any more. -/
def State.rampStart (s : State) (d : Nat) : State :=
  if s.forced d then s
  else (s.modPwr fun p => { p with ramp := NMap.put p.ramp d (s.clk.now + 1000000, 12) }).effSet d

/-- Sets or clears a forcing bit of CLK_STAT on a die (Table 15.4). -/
def State.force (s : State) (bit : Nat) (on : Bool) (d : Nat) : State :=
  let was := s.forced d
  let s := s.setRbit (dieBase d + 0x308) bit on
  if on then (s.modPwr fun p => { p with ramp := NMap.erase p.ramp d }).effSet d
  else if was then s.rampStart d
  else s

/-- The same on every die in service. -/
def State.forceAll (s : State) (bit : Nat) (on : Bool) : State := s.diesIn.foldl (fun s d => s.force bit on d) s

/-- The dies that firmware holds 2 steps lower for 60 s (R376, R379). -/
def State.holdLower (s : State) (ds : List Nat) : State :=
  s.modPwr fun p => { p with lowerUntil := ds.foldl (fun m d => NMap.put m d (s.clk.now + 60000000000)) p.lowerUntil }

/-- Firmware puts every compute rail at the set point of ratio 12, or of the ratios in effect (R375, R381). -/
def State.rails (s : State) (low : Bool) : State :=
  s.modPwr fun p => { p with
    railSet := s.diesIn.foldl (fun m d =>
      let c := dieBase d + 0x300
      NMap.put m d (Config.curveMv d (if low then 12 else Nat.max (s.rfld c 35 30) (s.rfld c 29 24)))) p.railSet }

/-- VR_ALERT_N: a fall forces every region to ratio 12; more than 10 within 1 s hold the common ratio 2 steps lower. -/
def execVrAlertN (s : State) : Out :=
  need s.pwr.standbyGood .blockDown <| need (!s.pwr.vr) .notArmed <|
  let ts := s.clk.now :: s.pwr.vrTimes.filter fun t => decide (s.clk.now < t + 1000000000)
  let s := s.modPwr fun p => { p with vr := true, vrTimes := ts }
  let s := (s.forceAll 18 true).cxlEvent 1 false []
  .next (if ts.length > 10 then (s.holdLower s.diesIn).event 9 80 0xFFFF 0 0 else s)

/-- VR_ALERT_N_RELEASE: high for 1 ms. -/
def execVrAlertNRelease (s : State) : Out :=
  need s.pwr.standbyGood .blockDown <| need s.pwr.vr .notArmed <|
  .next ((s.modPwr fun p => { p with vr := false }).forceAll 18 false)

/-- FLOW_OK: a fall forces every region to ratio 12, lowers the rails and starts the 2 s timer. -/
def execFlowOk (s : State) : Out :=
  need s.pwr.standbyGood .blockDown <| need s.pwr.flow .notArmed <|
  let s := s.modPwr fun p => { p with flow := false, flowFellAt := some s.clk.now }
  .next (((s.forceAll 19 true).rails true).cxlEvent 1 false [])

/-- FLOW_OK_RELEASE: high for 100 ms. It releases the forcing unless the stop has begun. -/
def execFlowOkRelease (s : State) : Out :=
  need s.pwr.standbyGood .blockDown <| need (!s.pwr.flow) .notArmed <|
  let s := s.modPwr fun p => { p with flow := true, flowFellAt := none }
  .next (if s.pwr.stopping ∨ s.pwr.boot = .stopped then s else (s.forceAll 19 false).rails false)

/-! ## Droop (R376) -/

/-- DROOP_DETECT: the region's effective ratio drops to 12. -/
def execDroopDetect (die : Nat) (east : Bool) (s : State) : Out :=
  let r := die * 2 + (if east then 1 else 0)
  need (s.present die) .noSuchUnit <| need (s.pwr.boot != .stopped) .blockDown <|
  need (!NMap.has s.pwr.droopSince r) .notArmed <|
  let old := (NMap.getD s.pwr.droopCnt r []).filter fun t => decide (s.clk.now < t + 1000000000)
  let s := s.modPwr fun p => { p with
    droopSince := NMap.put p.droopSince r s.clk.now, droopCeil := NMap.put p.droopCeil r 12
    droopCnt := NMap.put p.droopCnt r (s.clk.now :: old) }
  .next (s.effSet die)

/-- DROOP_RECOVER: the supply has been above the threshold for `ns`, at least 50; the ratio returns by 4 each 10 ns. A stretch of
more than 10 µs is logged and holds the die 2 steps lower. -/
def execDroopRecover (die : Nat) (east : Bool) (ns : Nat) (s : State) : Out :=
  let r := die * 2 + (if east then 1 else 0)
  needSome (NMap.get? s.pwr.droopSince r) .notArmed fun since =>
  need (decide (50 ≤ ns) && decide (since + ns ≤ s.clk.now)) .notArmed <|
  let len := s.clk.now - since
  let s := s.modPwr fun p => { p with droopSince := NMap.erase p.droopSince r, droopCeil := NMap.put p.droopCeil r 16 }
  let s := s.effSet die
  .next (if len > 10000 then
      (s.event 7 (s.siteNum die) (if east then 1 else 0) 0 (BitVec.ofNat 64 len)).holdLower [die]
    else s)

/-! ## The power cap (R377, R378) -/

/-- The ratio that the controller gives a region: the common ratio, 2 steps lower where it is held, at most the die's limit and
thermal cap. -/
def State.capRatio (s : State) (r d : Nat) (east : Bool) : Nat :=
  let low := match NMap.get? s.pwr.lowerUntil d with | some t => decide (s.clk.now < t) | none => false
  let st := dieBase d + 0x308
  let limit := Nat.min (NMap.getD s.pwr.ratioMax d 46) (if east then s.rfld st 35 30 else s.rfld st 29 24)
  Nat.max 12 (Nat.min (Nat.min (if low then r - 2 else r) limit) (NMap.getD s.pwr.thermCap d 46))

/-- The limit of a region: the lower of RATIO_LIMIT's and its grade. -/
def State.capLimit (s : State) (d : Nat) (east : Bool) : Nat :=
  let st := dieBase d + 0x308
  Nat.min (NMap.getD s.pwr.ratioMax d 46) (if east then s.rfld st 35 30 else s.rfld st 29 24)

/-- Firmware's commit of CLK_CTL on a die, with the rail moved in the order of R375: the shadow and the active set take it. -/
def State.capCommit (s : State) (r d : Nat) : State :=
  let rw := s.capRatio r d false
  let re := s.capRatio r d true
  let lw := s.capLimit d false
  let le := s.capLimit d true
  let a := dieBase d + 0x300
  let set (w : Word) (lo : Nat) : Word :=
    Word.setFld (Word.setFld w (lo + 5) lo rw) (lo + 11) (lo + 6) re
  let lim (w : Word) (lo : Nat) : Word :=
    Word.setFld (Word.setFld w (lo + 5) lo lw) (lo + 11) (lo + 6) le
  let s := s.setReg a (lim (set (lim (set (s.reg a) 0) 12) 24) 36)
  let s := s.modPwr fun p => { p with
    lastCommit := NMap.put p.lastCommit d s.clk.now
    railSet := NMap.put p.railSet d (Config.curveMv d (if s.pwr.flow then Nat.max rw re else 12)) }
  let s := s.setRbit (dieBase d + 0x308) 16 (decide (NMap.getD s.pwr.thermCap d 46 < r))
  s.effSet d

/-- The firmware thermal cap of a die after one step (R383): 2 down while it falls, 1 up while the die is below 95 °C. -/
def State.thermStep (s : State) (d : Nat) : State :=
  let c := NMap.getD s.pwr.thermCap d 46
  let c := if NMap.has s.pwr.falling d then Nat.max 12 (c - 2) else if NMap.getD s.pwr.temp d 0 < 380 then Nat.min 46 (c + 1) else c
  s.modPwr fun p => { p with thermCap := NMap.put p.thermCap d c }

/-- Whether a predicted power fits the budget of R377: the ceiling, the target and 19,800 W. `prev` is the sum of the n - 1 most
recent steps, `old` the step before them; the target is compared without rounding. -/
def fits (cap n prev old : Nat) (w : Nat) : Bool :=
  decide ((w : Int) ≤ cap * n - prev) && decide (500 * ((w : Int) - cap) ≤ cap * n - (prev + old)) && decide (w ≤ 19800)

/-- The highest common ratio from 46 down to 13 that fits; 12 if none does. -/
def capPick (cap n prev old : Nat) (pred : List Nat) : Nat :=
  (((List.range 34).map fun i => 46 - i).find? fun c =>
    match pred[c - 12]? with | some w => fits cap n prev old w | none => false).getD 12

/-- CAP_CONTROL_STEP: the module's power in the last millisecond and the predicted power at ratios 12 to 46. -/
def execCapControlStep (watts : Nat) (pred : List Nat) (s : State) : Out :=
  need (s.pwr.boot == .service && !s.pwr.stopping) .blockDown <| need (!s.mbx.switching) .notPending <|
  let n := s.pwr.windowMs
  let hist := (watts :: s.pwr.history).take 10000
  let prev := sumNat (hist.take (n - 1))
  let old := hist.getD (n - 1) 0
  let r := Nat.min (capPick s.pwr.capW n prev old pred) (s.pwr.rPrev + 2)
  let s := s.modPwr fun p => { p with history := hist, rPrev := r }
  let s := if fits s.pwr.capW n prev old (pred.getD 0 0) then s else (s.gcnt 0 10 1).event 8 80 0xFFFF 0 0
  let s := s.diesIn.foldl State.thermStep s
  .next (s.diesIn.foldl (fun s d => s.capCommit r d) s)

/-- CONTROLLER_ABSENT: no commit for 10 ms, outside a firmware switch, lowers both ratios to 32 or below. -/
def execControllerAbsent (die : Nat) (s : State) : Out :=
  need (s.present die) .noSuchUnit <|
  need (!s.mbx.switching && decide (NMap.getD s.pwr.lastCommit die 0 + 10000000 ≤ s.clk.now)) .notArmed <|
  let a := dieBase die + 0x300
  let s := s.setRfld a 29 24 (Nat.min 32 (s.rfld a 29 24))
  let s := s.setRfld a 35 30 (Nat.min 32 (s.rfld a 35 30))
  .next (s.effSet die)

/-! ## The stopped state (R381, R382, R384, R442) -/

/-- Whether the compute rails are on, so that a stop or a trip has work to end. -/
def State.railsOn (s : State) : Bool := s.pwr.boot == .links || s.pwr.boot == .service

/-- The stop begins: no entries are taken, nothing is dispatched, threads are suspended and running tiles abandoned. -/
def State.stopBegin (s : State) : State :=
  let s := s.modLk fun l => { l with takes := false }
  let s := s.modEng fun e => { e with eng := [], copies := [] }
  let s := s.modPwr fun p => { p with stopping := true, flowFellAt := none, ramp := [] }
  s.diesIn.foldl State.effSet s

/-- What the dies hold is gone with their clocks: caches, messages, buffers and the writes held for a stack. -/
def State.clocksOff (s : State) : State :=
  let z := State.reset
  let s := s.modBasin fun _ => z.basin
  let s := s.modMem fun m => { m with stopReads := [], stopWrites := [], blocked := [], margining := [] }
  let s := s.modEng fun e => { e with eng := [], copies := [], xfers := [] }
  let s := s.modThr fun x => { x with threads := [] }
  let s := (s.repairStop 0x2904).switchStop 0x2904
  let s := s.modLk fun l => { l with takes := false }
  s.modPwr fun p => { p with
    boot := .stopped, stopping := false, railSet := [], ramp := [], droopSince := [], droopCeil := [], flowFellAt := none }

/-- The write-backs of a stop: L1s, far parts, then FLUSH_HOME on every slice. -/
def State.stopFlush (s : State) : State :=
  let s := s.diesIn.foldl (fun s d => (s.cores d).foldl (fun s g => (s.l1Flush (d * 32 + g) 0 allMem).2) s) s
  let s := s.diesIn.foldl (fun s d => (s.farFlush d 0 allMem).2) s
  s.diesIn.foldl (fun s d => (s.drainSlices d none).flushHome d none) s

/-- FLOW_STOP: FLOW_OK has been low for 2 s. -/
def execFlowStop (s : State) : Out :=
  need (s.railsOn && !s.pwr.stopping) .blockDown <|
  needSome s.pwr.flowFellAt .notArmed fun t =>
  need (decide (t + 2000000000 ≤ s.clk.now)) .notArmed <| .next s.stopBegin

/-- MODULE_STOP_DONE: everything dirty is written back, Erhar ports are forced down, stacks enter self-refresh and the dies'
clocks stop. A rise that came meanwhile starts a bring-up. -/
def execModuleStopDone (s : State) : Out :=
  need s.pwr.stopping .notPending <|
  let s := s.stopFlush
  let s := (List.range 36).foldl (fun s p => s.erhForceW p true) s
  let s := s.clocksOff.cxlEvent 3 false []
  .next (if s.pwr.riseHeld ∧ !s.pwr.thermTrip then s.bringUpStart else s)

/-- PWR_GOOD_IN falls (R442): the stop runs at once, unless one has begun already. -/
def State.powerFall (s : State) : State :=
  let s := s.modPwr fun p => { p with riseHeld := false }
  if s.railsOn ∧ !s.pwr.stopping then s.stopBegin.rails true else s

/-- PWR_GOOD_IN_FALL. -/
def execPwrGoodInFall (s : State) : Out :=
  need s.pwr.standbyGood .blockDown <| need s.pwr.pwrGood .notArmed <|
  .next (s.modPwr fun p => { p with pwrGood := false }).powerFall

/-- INPUT_UNDERVOLTAGE: treated as a fall of PWR_GOOD_IN while that is high (R439). -/
def execInputUndervoltage (s : State) : Out :=
  need s.pwr.standbyGood .blockDown <| need s.pwr.pwrGood .notArmed <| .next s.powerFall

/-- PWR_GOOD_IN_RISE: starts a full bring-up; held during a trip or a stop; a bring-up that waits for it goes on (R442, R443). -/
def execPwrGoodInRise (s : State) : Out :=
  need s.pwr.standbyGood .blockDown <| need (!s.pwr.pwrGood) .notArmed <|
  let s := s.modPwr fun p => { p with pwrGood := true }
  .next (
    if s.pwr.thermTrip ∨ s.pwr.stopping then s.modPwr fun p => { p with riseHeld := true }
    else if s.pwr.boot = .rom ∨ s.pwr.boot = .waitTray then s
    else s.bringUpStart)

/-- STANDBY_POWER_GOOD: MOD_ID is sampled and a full bring-up starts. -/
def execStandbyPowerGood (modId : BitVec 6) (s : State) : Out :=
  need (!s.pwr.standbyGood) .notArmed <|
  .next ((s.modPwr fun p => { p with standbyGood := true, modId := modId }).bringUpStart)

/-- STANDBY_POWER_LOST. -/
def execStandbyPowerLost (s : State) : Out := need s.pwr.standbyGood .notArmed <| .next s.standbyOff

/-! ## Temperature (R383, R384, R443) -/

/-- A thermal trip: clocks stop with no write-back, and a Fatal record reports the trip and the temperature. -/
def State.trip (s : State) (unit : Nat) (quarterC : Int) : State :=
  let s := s.modPwr fun p => { p with thermTrip := true, coolSince := none }
  let s := if s.railsOn then s.clocksOff else s
  s.cxlEvent 3 false (bytesOf 1 unit ++ bytesOf 2 (ofSigned 16 quarterC))

/-- A die's response to its sample (Table 15.7). -/
def State.dieHeat (s : State) (d : Nat) (q : Int) : State :=
  let s := s.setRfld (dieBase d + 0x308) 63 48 (ofSigned 16 q)
  let s := s.modPwr fun p => { p with
    falling := if q > 400 then NMap.put p.falling d () else if q ≤ 392 then NMap.erase p.falling d else p.falling }
  if q ≥ 440 ∧ !s.rbit (dieBase d + 0x308) 17 then s.force 17 true d
  else if q < 420 ∧ s.rbit (dieBase d + 0x308) 17 then s.force 17 false d
  else s

/-- TEMP_SAMPLE of a die, or of gatehouse `unit - 72`, in quarters of a degree. -/
def execTempSample (unit : Nat) (quarterC : Int) (s : State) : Out :=
  need (decide (unit < 76)) .noSuchUnit <| need s.pwr.standbyGood .blockDown <|
  let old := NMap.getD s.pwr.temp unit 0
  let s := s.modPwr fun p => { p with temp := NMap.put p.temp unit quarterC }
  let s := s.modPwr fun p => { p with
    coolSince := if p.temp.all fun e => decide (e.2 < 380) then some (p.coolSince.getD s.clk.now) else none }
  let s := if unit < 72 then (if s.present unit ∧ s.railsOn then s.dieHeat unit quarterC else s)
    else if quarterC ≥ 420 ∧ old < 420 then s.cxlEvent 1 false (bytesOf 1 unit ++ bytesOf 2 (ofSigned 16 quarterC)) else s
  let s := if quarterC ≥ 460 ∧ !s.pwr.thermTrip then s.trip unit quarterC else s
  .next (if quarterC < -80 ∨ quarterC > 520 then s.raiseAlarm 3 else s)

/-- THERM_TRIP_RELEASE: every sensor below 95 °C for 1 s; a held rise starts the bring-up. -/
def execThermTripRelease (s : State) : Out :=
  need s.pwr.thermTrip .notPending <| needSome s.pwr.coolSince .notArmed fun t =>
  need (decide (t + 1000000000 ≤ s.clk.now)) .notArmed <|
  let s := s.modPwr fun p => { p with thermTrip := false }
  .next (if s.pwr.riseHeld then s.bringUpStart else s)

/-! ## Energy (R385, R386) -/

/-- Credits energy to a command, in nJ. -/
def State.credit (s : State) (c : Cmd) (nJ : Nat) : State := s.modCmd c.ctx c.seq fun c => { c with energyNJ := c.energyNJ + nJ }

/-- Credits energy to the operator's account; whole microjoules move to its ENERGY_UJ. -/
def State.opCredit (s : State) (nJ : Nat) : State :=
  s.modBth fun b =>
    let n := b.opEnergyNJ + nJ
    { b with opEnergyNJ := n % 1000, opAccount := { b.opAccount with energyUJ := b.opAccount.energyUJ + n / 1000 } }

/-- ENERGY_INTERVAL: a die's measured energy is apportioned by the commands' activity (a free value: the fused coefficients are
not published, log entry 18) and their shares of the idle energy; the rest is the operator's. A gatehouse's (`die - 72`) is the
operator's whole. -/
def execEnergyInterval (die nJ : Nat) (s : State) : Out :=
  need (s.present die || (decide (72 ≤ die) && decide (die < 76))) .noSuchUnit <| need (s.pwr.boot != .stopped) .blockDown <|
  let st := dieBase die + 0x308
  let cs := s.cmdsOn die
  let act := (List.range cs.length).map fun i => (Config.freeWord (s.fresh + i)).toNat
  let idle := Config.idleModel (NMap.getD s.pwr.temp die 0) (s.rfld st 41 36) (s.rfld st 47 42)
  let tot := sumNat act + idle
  let parts := (List.range cs.length).filterMap fun i => (cs[i]?).map fun c =>
    let held := (bitsOf 16 c.claim).length * 32 + c.threads
    (c, if tot = 0 then 0 else nJ * (act.getD i 0 * 1024 + idle * held) / (1024 * tot))
  let s := parts.foldl (fun s p => s.credit p.1 p.2) (s.drawn cs.length)
  .next (s.opCredit (nJ - sumNat (parts.map (·.2))))

/-- REMOTE_ENERGY_GATHER: energy spent for other dies goes to commands in proportion to the remote bytes that each requested since
the last gathering; the rest is the operator's. -/
def execRemoteEnergyGather (nJ : Nat) (s : State) : Out :=
  need (s.pwr.boot == .service) .blockDown <|
  let cs := s.lk.cmds
  let part (c : Cmd) : Nat := c.counts.remoteBytes - c.remoteAt
  let tot := sumNat (cs.map part)
  let share (c : Cmd) : Nat := if tot = 0 then 0 else nJ * part c / tot
  let s := cs.foldl (fun (s : State) c => (s.credit c (share c)).modCmd c.ctx c.seq fun q => { q with remoteAt := q.counts.remoteBytes }) s
  .next (s.opCredit (nJ - sumNat (cs.map share)))

/-! ## I3C (R445) -/

/-- I3C_DYNAMIC_ADDRESS: SETDASA reaches a module with a static address (MOD_ID 0 to 47), ENTDAA one without. -/
def execI3cDynamicAddress (setdasa : Bool) (addr : Nat) (s : State) : Out :=
  need s.pwr.standbyGood .blockDown <| need (decide (addr < 128)) .noSuchUnit <|
  need (s.pwr.dynAddr.isNone && setdasa == decide (s.pwr.modId.toNat < 48)) .notPending <|
  .next (s.modPwr fun p => { p with dynAddr := some addr })

end Sys2Proof.Machine
end

