-- ==== Sys2Proof/Machine/Trust.lean ====
section
/-! DEFINITION. The root of trust's watch on fuses and sensors (R393, R406), debug (R405), the end of a firmware switch (R397), PLDM
updates (R407), and the SPDM responder (R398 to R402). -/

namespace Sys2Proof.Machine

/-! ## Alarms -/

/-- FUSE_REREAD: the fuse rows are read again; copies that differ or parity that fails trip the fuse sensor. -/
def execFuseReread (anomaly : Bool) (s : State) : Out :=
  need s.pwr.standbyGood .blockDown <| .next (if anomaly then s.raiseAlarm 5 else s)

/-- TAMPER_TRIP: a sensor of Table 16.5 trips. -/
def execTamperTrip (cause : Nat) (s : State) : Out :=
  need (decide (1 ≤ cause) && decide (cause ≤ 5)) .noSuchUnit <| need s.pwr.standbyGood .blockDown <| .next (s.raiseAlarm cause)

/-- ALARM_ERASE: level 2 erases key slots 1 to 255. -/
def execAlarmErase (s : State) : Out :=
  need (s.sec.alarmLock && s.sec.alarmLevel == 1 && decide (2 ≤ s.sec.fuses.level)) .notPending <|
  .next (s.modSec fun x => { x with alarmLevel := 2, keys := NMap.keep x.keys fun k _ => k == 0 })

/-- ALARM_KILL: level 3 blows KILL; a fuse that does not read back is an anomaly, which a second cause adds nothing to. -/
def execAlarmKill (readBack : Bool) (s : State) : Out :=
  need (s.sec.alarmLock && s.sec.alarmLevel == 2 && decide (3 ≤ s.sec.fuses.level)) .notPending <|
  let s := s.modSec fun x => { x with
    alarmLevel := 3, fuses := { x.fuses with kill := x.fuses.kill || readBack }, identity := false }
  .next (if readBack then s else s.raiseAlarm 5)

/-! ## Debug and firmware -/

/-- DEBUG_UNLOCK_EXPIRE. -/
def execDebugUnlockExpire (s : State) : Out :=
  needSome s.sec.debugUntil .notPending fun t => need (decide (t ≤ s.clk.now)) .notArmed <| .next s.debugEnd

/-- The bytes of the staging area. -/
def State.stagedImage (s : State) : List Byte := (List.range s.sec.stagedTotal).map fun i => NMap.getD s.sec.staged i 0

/-- FW_SWITCH_END: the new image runs, the one it replaces becomes the previous image, and the root of trust applies the new one's
directives before the background operation ends. -/
def execFwSwitchEnd (s : State) : Out :=
  need s.mbx.switching .notPending <|
  let img := if s.sec.switchSlot = 0 then s.stagedImage else s.sec.previous
  let s := s.modSec fun x => { x with active := img, previous := x.active, fwState := 0 }
  let s := (s.measured.directives img).modMbx fun m => { m with switching := false }
  .next (s.bgEnd s.sec.switchBg 0 (bytesOf 8 (rdLE img 8 8)))

/-- Whether some background operation runs; a die repair is one (R416). -/
def State.bgRuns (s : State) : Bool := s.panel.repair.isSome || s.mbx.bgs.any fun g => !g.ended

/-- PLDM_FIRMWARE_UPDATE: the checks of FW_ACTIVATE; in RECOVERY an accepted image starts a full bring-up (R413). Under an alarm
lock, and where FW_ACTIVATE would fail, the update is refused. -/
def execPldmFirmwareUpdate (image : List (BitVec 8)) (s : State) : Out :=
  need s.pwr.standbyGood .blockDown <|
  let ok := s.sec.fuses.checkImage image = 0 ∧ !s.sec.alarmLock
  .next (
    if ok ∧ s.pwr.boot = .recovery then (s.modSec fun x => { x with active := image }).bringUpStart
    else if ok ∧ s.pwr.boot = .service ∧ !s.bgRuns ∧ !s.mbx.switching then
      let s := s.modSec fun x => { x with
        staged := (List.range image.length).map fun i => (i, byteAt image i)
        stagedTotal := image.length, switchSlot := 0, switchBg := 0, fwState := 3 }
      s.modMbx fun m => { m with switching := true }
    else s)

/-! ## Attestation -/

/-- The bytes of a finishing bank of a die (R68). -/
def State.finBankBytes (s : State) (d bank : Nat) : List Byte := (List.range 0x8000).map fun i => s.finByte d (bank * 0x8000 + i)

/-- Number of a cargo state (Table 16.4). -/
def CargoState.code : CargoState → Nat
  | .none => 0
  | .loading => 1
  | .sealed => 2

/-- A measurement block (Table 16.4). -/
def State.measBlock (s : State) (i : Nat) : List Byte := match i with
  | 1 => bytesOf 48 Config.romHash.toNat
  | 2 => bytesOf 48 (Config.sha384 (imgHeader s.sec.active)).toNat
  | 3 => bytesOf 8 (s.fusePolicy &&& 0xC00FFFFFFF000000).toNat
  | 4 => bytesOf 1 (if s.unlocked then 1 else 0) ++ bytesOf 4 (if s.unlocked then s.sec.debugScope.toNat else 0)
  | 5 => bytesOf 48 (match s.bth.convoy with | some c => c.hash.toNat | none => 0)
  | 6 => bytesOf 48 (if s.bth.cargoState = .sealed then s.bth.cargoHash.toNat else 0) ++ bytesOf 1 (CargoState.code s.bth.cargoState)
  | 7 => bytesOf 48 (Config.sha384 ((List.range 72).map fun d =>
      bytesOf 2 (s.rfld (dieBase d + 0x200) 47 32) ++ bytesOf 48 (Config.sha384 (s.finBankBytes d (s.finBank d))).toNat).flatten).toNat
  | _ => []

/-- Number of a transport: DOE of C0, of C1, MCTP. -/
def spdmNum : SpdmTr → Nat
  | .doe p => p
  | .mctp => 2

/-- The connection of a transport. -/
def State.spdm? (s : State) (tr : SpdmTr) : Spdm := s.sec.spdm.toList.getD (spdmNum tr) Spdm.init

/-- A request reaches the responder; without an identity it is answered with an error (R399, R413). `f` gives the response,
none for an error, and the connection after it. -/
def State.spdmReq (s : State) (tr : SpdmTr) (f : Spdm → Option (List Byte) × Spdm) : Out :=
  need (decide (spdmNum tr < 3)) .noSuchUnit <|
  need (s.pwr.standbyGood && (match tr with | .doe p => (s.cport p).up | .mctp => true)) .blockDown <|
  let (r, c) := if s.sec.identity then f (s.spdm? tr) else (none, s.spdm? tr)
  .next (s.modSec fun x => { x with
    spdm := x.spdm.setIfInBounds (spdmNum tr) c, response := r.getD [], spdmError := r.isNone })

/-- A request that needs negotiated algorithms. -/
def Spdm.ready (c : Spdm) : Bool := c.version && c.caps && c.algs

/-- GET_VERSION: starts the connection again. -/
def execGetVersion (tr : SpdmTr) (s : State) : Out :=
  s.spdmReq tr fun c => (some (Config.spdmBytes 1 0), { c with version := true, caps := false, algs := false, dhe := false })

/-- GET_CAPABILITIES. -/
def execGetCapabilities (tr : SpdmTr) (s : State) : Out :=
  s.spdmReq tr fun c => if c.version then (some (Config.spdmBytes 2 0), { c with caps := true }) else (none, c)

/-- NEGOTIATE_ALGORITHMS: RSASSA-3072 and SHA-384 are needed; sessions need secp384r1 and AES-256-GCM also. -/
def execNegotiateAlgorithms (tr : SpdmTr) (rsapss3072 sha384 secp384 aes256gcm : Bool) (s : State) : Out :=
  s.spdmReq tr fun c =>
    if c.version && c.caps && rsapss3072 && sha384 then
      (some (Config.spdmBytes 3 (if secp384 && aes256gcm then 1 else 0)), { c with algs := true, dhe := secp384 && aes256gcm })
    else (none, c)

/-- GET_DIGESTS. -/
def execGetDigests (tr : SpdmTr) (s : State) : Out :=
  s.spdmReq tr fun c => (if c.ready then some (Config.spdmBytes 4 0) else none, c)

/-- GET_CERTIFICATE: part of the RSA chain in slot 0 or of the SLH-DSA chain in slot 1 (R398). -/
def execGetCertificate (tr : SpdmTr) (slot offset len : Nat) (s : State) : Out :=
  s.spdmReq tr fun c => (if c.ready ∧ slot < 2 then some (((Config.spdmBytes 5 slot).drop offset).take len) else none, c)

/-- CHALLENGE: both signatures over the transcript (R400). -/
def execChallenge (tr : SpdmTr) (slot : Nat) (nonce : BitVec 256) (s : State) : Out :=
  s.spdmReq tr fun c =>
    (if c.ready ∧ slot < 2 then some (Config.spdmBytes 6 (nonce.toNat * 2 + slot)) else none, c)

/-- GET_MEASUREMENTS: the number of blocks (0), one block, or all (0xFF), of one snapshot, with MEAS_GEN (R402) and, where asked,
the signatures. -/
def execGetMeasurements (tr : SpdmTr) (op : Nat) (nonce : BitVec 256) (sign : Bool) (s : State) : Out :=
  let gen := bytesOf 8 s.sec.measGen
  let sig := if sign then Config.spdmBytes 7 nonce.toNat else []
  s.spdmReq tr fun c =>
    (if !c.ready then none
      else if op = 0 then some (bytesOf 1 7 ++ gen ++ sig)
      else if op = 0xFF then some (((List.range 7).map fun i => s.measBlock (i + 1)).flatten ++ gen ++ sig)
      else if op ≤ 7 then some (s.measBlock op ++ gen ++ sig)
      else none, c)

/-- KEY_EXCHANGE: a session that FINISH completes. -/
def execKeyExchange (tr : SpdmTr) (reqId : Nat) (s : State) : Out :=
  s.spdmReq tr fun c =>
    if c.ready ∧ c.dhe then
      (some (Config.spdmBytes 8 (reqId * 2 ^ 32 + c.nextSession)),
        { c with sessions := c.sessions ++ [(c.nextSession, false, 0)], nextSession := c.nextSession + 1 })
    else (none, c)

/-- FINISH: the session is established, or ends where the requester's MAC fails. -/
def execFinish (tr : SpdmTr) (session : Nat) (macOk : Bool) (s : State) : Out :=
  s.spdmReq tr fun c =>
    if c.sessions.any fun x => x.1 == session && !x.2.1 then
      if macOk then
        (some (Config.spdmBytes 9 session), { c with
          sessions := c.sessions.map fun x => if x.1 == session then (x.1, true, x.2.2) else x })
      else (none, { c with sessions := c.sessions.filter fun x => x.1 != session })
    else (none, c)

/-- KEY_UPDATE: the keys of one direction or of both move on. -/
def execKeyUpdate (tr : SpdmTr) (session : Nat) (both : Bool) (s : State) : Out :=
  s.spdmReq tr fun c =>
    if c.sessions.any fun x => x.1 == session && x.2.1 then
      (some (Config.spdmBytes 10 session), { c with sessions := c.sessions.map fun x =>
        if x.1 == session then (x.1, x.2.1, x.2.2 + (if both then 2 else 1)) else x })
    else (none, c)

/-- END_SESSION. -/
def execEndSession (tr : SpdmTr) (session : Nat) (s : State) : Out :=
  s.spdmReq tr fun c =>
    if c.sessions.any fun x => x.1 == session then
      (some (Config.spdmBytes 11 session), { c with sessions := c.sessions.filter fun x => x.1 != session })
    else (none, c)

end Sys2Proof.Machine
end

