-- ==== Sys2Proof/Machine/BringUp.lean ====
section
/-! DEFINITION. Full bring-up (R408 to R415), in-service die repair (R416 to R420) and management restarts (R422). -/

namespace Sys2Proof.Machine

/-! ## Maps (R12 to R16, R20, R372) -/

/-- ENG_GRADE of a site: its fused grades (Table 15.2). -/
def State.gradeWord (s : State) (site : Nat) : Word :=
  BitVec.ofNat 64 (sumNat ((List.range 20).map fun k => NMap.getD s.panel.grades (site * 20 + k) 0 % 8 * 2 ^ (3 * k)))

/-- Position for logical unit `i` of a row of `n` slots of which `bad` are excluded: the good slots in ascending order (R20). -/
def posOf (n i none : Nat) (bad : Nat → Bool) : Nat := ((List.range n).filter fun p => !bad p).getD i none

/-- Writes a die's ENG_GRADE, ENG_MAP, CORE_MAP and region grades for the site that runs it; `badE` and `badC` are the slots
that fail test, as (site, slot). -/
def State.mapUnits (s : State) (badE badC : List (Nat × Nat)) (d : Nat) : State :=
  let t := s.siteNum d
  let s := s.setReg (dieBase d + 0x310) (s.gradeWord t)
  let eng (j : Nat) : Nat := posOf 5 (j % 4) 7 fun p => s.slotBad 0 t (j / 4 * 5 + p) || badE.contains (t, j / 4 * 5 + p)
  let core (g : Nat) : Nat := posOf 9 (g % 8) 15 fun p => s.slotBad 1 t (g / 8 * 9 + p) || badC.contains (t, g / 8 * 9 + p)
  let em := sumNat ((List.range 16).map fun j => eng j * 2 ^ (3 * j))
  let cm (h : Nat) : Nat := sumNat ((List.range 16).map fun g => core (h * 16 + g) * 2 ^ (4 * g))
  let s := ((s.setReg (dieBase d + 0x100) (BitVec.ofNat 64 em)).setReg (dieBase d + 0x108) (BitVec.ofNat 64 (cm 0))).setReg
    (dieBase d + 0x110) (BitVec.ofNat 64 (cm 1))
  (s.setRfld (dieBase d + 0x308) 29 24 (s.regionGrade d false)).setRfld (dieBase d + 0x308) 35 30 (s.regionGrade d true)

/-- PANEL_ROW_MAPr of the present site states (Table 1.1). -/
def State.rowMapWord (s : State) (r : Nat) : Word :=
  let col (p : SiteState → Bool) : List Nat := (List.range 10).filter fun c => p (s.site (r * 10 + c))
  let isIn (x : SiteState) : Bool := match x with | .inService _ => true | _ => false
  let stand := ((col fun x => x == .standby).head?).getD 15
  let cof (k : Nat) : Nat := match s.siteOf (9 * r + k) with | some t => t % 10 | none => 15
  BitVec.ofNat 64 (stand * 2 ^ 60 + maskOf (col isIn) * 2 ^ 50 + maskOf (col fun x => x == .failed) * 2 ^ 40 +
    sumNat ((List.range 9).map fun k => cof k * 2 ^ (4 * k)))

/-- Writes a row's PANEL_ROW_MAP (R16). -/
def State.putRowMap (s : State) (r : Nat) : State := s.setReg (0x70000001000 + r * 8) (s.rowMapWord r)

/-- The states of a row's sites at bring-up (R12, R13): ten good sites leave the fused column standing by; fewer leave none. -/
def rowSites (r fused : Nat) (good : List Nat) : List (Nat × SiteState) :=
  let run := if good.length = 10 then good.filter (· != fused) else good.take 9
  (List.range 10).map fun c =>
    (r * 10 + c,
      match run.findIdx? (· == c) with
      | some k => SiteState.inService (9 * r + k)
      | none => if good.contains c then SiteState.standby else SiteState.failed)

/-! ## Route tables (R235, R236, R239) -/

/-- Whether the site west or east of a site stands by or has failed, so that a bypass cut steps over it. -/
def State.skips (s : State) (t : Nat) : Bool := s.site t == .failed || s.site t == .standby

/-- Primary and alternate port code of a site's router toward column `c2` of row `r2`, or toward gatehouse `gh` (R235, R239). -/
def State.siteRoute (s : State) (t r2 c2 : Nat) (gh : Bool) : Nat × Nat :=
  let row := t / 10
  let col := t % 10
  let side := if row = 0 then 2 else 1
  let tc := if gh then (if col ≤ 4 then 4 else 5) else c2
  let east := decide (col < tc) || (gh && col == 4)
  if !gh ∧ col = c2 then
    (if r2 < row then 1 else 2, if col = 9 ∨ col = 4 then 4 else 3)
  else if east then
    if gh ∧ col = 4 then (3, 4)
    else
      let by2 : Bool := if col = 3 then !gh && decide (tc ≥ 5) && s.site (t + 1) == .failed || gh && s.site (t + 1) == .failed
        else decide (col ≠ 4 ∧ col < 8 ∧ tc ≥ col + 2) && s.skips (t + 1)
      let byp := if col = 4 ∨ col ≥ 8 then (if col = 4 then 4 else side) else 5
      if by2 then (5, 3) else (3, byp)
  else
    if gh ∧ col = 5 then (4, 3)
    else
      let by2 : Bool := if col = 6 then !gh && decide (tc ≤ 4) && s.site (t - 1) == .failed || gh && s.site (t - 1) == .failed
        else decide (col ≠ 5 ∧ col > 1 ∧ tc + 2 ≤ col) && s.skips (t - 1)
      let byp := if col = 5 ∨ col ≤ 1 then (if col = 5 then 3 else side) else 6
      if by2 then (6, 4) else (4, byp)

/-- A router's entry for a destination: alternate and primary codes in their bit places (R236); 15 is none. -/
def State.routeWord (s : State) (r dst : Nat) : Nat :=
  let put (x : Nat × Nat) : Nat := x.2 * 2 ^ 8 + x.1 * 2 ^ 4
  let local' := put (0, 15)
  if r = dst then local'
  else if 72 ≤ r ∧ r < 76 then
    let g := r - 72
    let ns (h : Nat) : Nat := put (if h < g then (1, 3) else (2, 5))
    if dst ≥ 72 then ns (dst - 72)
    else match s.siteOf dst with
      | none => put (15, 15)
      | some t =>
        if t / 20 ≠ g then ns (t / 20)
        else
          let k := t / 10 % 2 * 2 + (if t % 10 ≤ 4 then 0 else 1)
          put (if s.site (t / 10 * 10 + (if t % 10 ≤ 4 then 4 else 5)) == .failed then (7 + k, 3 + k) else (3 + k, 7 + k))
  else match s.routerSite r with
    | none => put (15, 15)
    | some h =>
      if dst ≥ 72 then put (s.siteRoute h (h / 10) 0 true)
      else match s.siteOf dst with
        | none => put (15, 15)
        | some t => if t = h then local' else put (s.siteRoute h (t / 10) (t % 10) false)

/-- The routers: every die in service, the gatehouses, and the other sites under their apertures. -/
def State.routers (s : State) : List Nat :=
  ((List.range 80).map s.siteRouter) ++ [72, 73, 74, 75]

/-- Writes a router's entry for a destination in a bank. -/
def State.putRoute (s : State) (bank : Bool) (r dst : Nat) : State :=
  let a := routerBase r + 0x7400 + (if bank then 0x100 else 0) + dst * 2
  let lo := 8 * (a % 8)
  s.setRfld (a - a % 8) (lo + 15) lo (s.routeWord r dst)

/-- Firmware writes every router's first bank at bring-up (log entry 32). -/
def State.routeInit (s : State) : State :=
  s.routers.foldl (fun s r => (List.range 76).foldl (fun s d => s.putRoute false r d) s) s

/-- Firmware swaps the route tables with one destination's entries changed (R236, R419 step 6): the inactive bank takes a copy of
the active one with those entries, and every router commits it. -/
def State.routeSwap (s : State) (dst : Nat) : State :=
  s.routers.foldl (fun s r =>
    let c := routerBase r + 0x7600
    let old := s.rbit c 16
    let bank (b : Bool) : Nat := routerBase r + 0x7400 + (if b then 0x100 else 0)
    let s := (List.range 19).foldl (fun (s : State) i => s.setReg (bank (!old) + i * 8) (s.reg (bank old + i * 8))) s
    let s := s.putRoute (!old) r dst
    (s.setRbit c 16 (!old)).setRbit c 0 (!old)) s

/-! ## Bring-up -/

/-- CUTS to LINKS of Table 17.2: the sites are tested and numbered, units mapped, stacks zeroed, and cuts and Erhar ports begin to
train. -/
def State.bringUpMap (s : State) (env : BringUpIn) : State :=
  let dead := env.failedSites ++ (s.rel.retired.filter (·.1 == 2)).map (·.2.1)
  let good (r : Nat) : List Nat := (List.range 10).filter fun c => !dead.contains (r * 10 + c)
  let s := s.modPanel fun p => { p with
    sites := ((List.range 8).map fun r => rowSites r (p.fusedStandby.toList.getD r 0) (good r)).flatten
    fencedGh := env.badGatehouses.filter fun g => decide (1 ≤ g ∧ g ≤ 3) }
  let s := (List.range 8).foldl State.putRowMap s
  let s := s.diesIn.foldl (fun s d => s.mapUnits env.badEngines env.badCores d) s
  let s := s.routeInit
  let s := s.routers.foldl (fun s r => (List.range 10).foldl (fun s p =>
    if s.hasCut r p && !s.cutFailedEnd r p then s.cutStart r p else s) s) s
  let s := (List.range 36).foldl (fun s p => if s.panel.fencedGh.contains (p / 9) then s else s.erhStart p) s
  let s := s.modMem fun m => { m with
    dram := [], sect := [], pot := [], zeroedAtBringUp := true, repairs := m.repairs.map fun r => { r with fused := true } }
  let s := s.modSec fun x => { x with keys := [(0, x.genNext)], genNext := x.genNext + 1 }
  let s := s.modBth fun b => { b with berths := [(0, { Berth.blank s.clk.now with quota := 2 ^ 32 - 1 })] }
  let s := s.diesIn.foldl (fun (s : State) d =>
    let s := s.modPwr fun p => { p with lastCommit := NMap.put p.lastCommit d s.clk.now }
    let s := if s.pwr.vr then s.force 18 true d else s
    s.dieHeat d (NMap.getD s.pwr.temp d 0)) s
  ((s.rails true).mapInit 0).modPwr fun p => { p with boot := .links }

/-- ROM of Table 17.2: fuses are read, the image is verified and its directives applied, and firmware starts. Any state but
WAIT_TRAY is an exit of R413. -/
def State.bringUpRom (s : State) (env : BringUpIn) : State :=
  let exit (b : Boot) (s : State) : State := s.modPwr fun p => { p with boot := b }
  if s.sec.alarmLock then exit .locked s
  else if env.fuseAnomaly then s.raiseAlarm 5
  else
    let s := s.modSec fun x => { x with published := x.fuses.publish }
    let ok := s.sec.fuses.checkImage s.sec.active = 0
    if !ok ∧ s.sec.fuses.checkImage s.sec.previous ≠ 0 then exit .recovery s
    else
      let s := if ok then s
        else (s.modSec fun x => { x with active := x.previous, previous := x.active }).cxlEvent 2 false []
      let s := s.directives s.sec.active
      exit (if env.badGatehouses.contains 0 ∨ env.clusters < 2 then .failed else .waitTray) s

/-- FULL_BRING_UP: from ROM or WAIT_TRAY as far as LINKS; it waits in WAIT_TRAY for FLOW_OK and PWR_GOOD_IN. -/
def execFullBringUp (env : BringUpIn) (s : State) : Out :=
  need (s.pwr.standbyGood && !s.pwr.thermTrip && (s.pwr.boot == .rom || s.pwr.boot == .waitTray)) .blockDown <|
  let s := if s.pwr.boot = .rom then s.bringUpRom env else s
  .next (if s.pwr.boot = .waitTray ∧ s.pwr.flow ∧ s.pwr.pwrGood then s.bringUpMap env else s)

/-- IDENTITY_DERIVED: SERVICE is entered and the lock-keepers take entries; without a match, or once KILL is blown, the identity is
absent and the mismatch is logged (R399, R413). A DEVICE_RESET that waits is answered. -/
def execIdentityDerived (ok : Bool) (s : State) : Out :=
  need (s.pwr.boot == .links && !s.pwr.stopping) .blockDown <|
  let have' := ok && !s.sec.fuses.kill
  let s := s.modSec fun x => { x with identity := have' }
  let s := if have' then s else s.cxlEvent 2 false (bytesOf 1 5)
  let s := (s.modPwr fun p => { p with boot := .service, romRestarts := 0 }).modLk fun l => { l with takes := !s.sec.alarmLock }
  .next (if s.mbx.resetting then (s.modMbx fun m => { m with resetting := false }).mbAnswer .op 0 [] 0 else s)

/-! ## Management restarts (R422) -/

/-- KILTOR_WATCHDOG: a cluster hangs; the management restarts. -/
def execKiltorWatchdog (gh : Nat) (s : State) : Out :=
  need (decide (gh < 4) && !s.panel.fencedGh.contains gh) .noSuchUnit <| need s.pwr.standbyGood .blockDown <|
  .next (s.modPwr fun p => { p with restartDue := true })

/-- MANAGEMENT_RESTART: the clusters run the active image again; everything else runs on. During bring-up, bring-up starts again,
and the third time fails (R413). The restart after three within 1 hour runs the previous image where that is accepted. -/
def execManagementRestart (s : State) : Out :=
  need s.pwr.restartDue .notPending <|
  let s := s.modPwr fun p => { p with restartDue := false }
  .next (
    if s.pwr.boot = .service ∨ s.pwr.boot = .stopped then
      let hour := s.pwr.restarts.filter fun t => decide (s.clk.now ≤ t + 3600000000000)
      let s := s.modPwr fun p => { p with restarts := s.clk.now :: hour }
      let s := s.sign { Sig.blank with mech := 0x15, unitKind := 8, site := 80, severity := 1 }
      if hour.length ≥ 3 ∧ s.sec.fuses.checkImage s.sec.previous = 0 then
        ((s.modSec fun x => { x with active := x.previous, previous := x.active }).measured).cxlEvent 2 false []
      else s
    else if s.pwr.boot = .recovery ∨ s.pwr.boot = .locked ∨ s.pwr.boot = .failed then s
    else
      let s := s.sign { Sig.blank with mech := 0x15, unitKind := 8, site := 80, severity := 1 }
      let n := s.pwr.romRestarts + 1
      if n ≥ 3 then s.modPwr fun p => { p with romRestarts := n, boot := .failed }
      else s.bringUpStart.modPwr fun p => { p with romRestarts := n })

/-! ## In-service die repair (R416 to R420) -/

/-- Ends the repair in progress and starts the next one that waits. -/
def State.repairDone (s : State) (st : Status) (rsp : List Byte) : State :=
  let bg := s.panel.repair.bind (·.bg)
  let s := s.modPanel fun p => { p with repair := none }
  let s := match bg with | some g => s.bgEnd g st rsp | none => s
  s.repairNext

/-- REPAIR_PHASE_A_DONE: the standby is tested and zeroed and copying begins; one that fails its test becomes FAILED (Table 17.3). -/
def execRepairPhaseADone (testOk : Bool) (s : State) : Out :=
  needSome (s.panel.repair.filter (·.phase == 1)) .notPending fun r =>
  .next (
    if testOk then s.modPanel fun p => { p with repair := some { r with phase := 2 } }
    else
      let s := s.modPanel fun p => { p with sites := NMap.put p.sites r.newSite .failed }
      (s.putRowMap (r.newSite / 10)).repairDone 0x3002 [])

/-- 128 MiB in pages. -/
def dirtyMax : Nat := 2048

/-- REPAIR_PASS_END: Phase C follows a pass that leaves 128 MiB or less dirty, or the mirrored pass that follows a fourth pass
which does not (R418). Phases: 2 B, 3 C, 4 mirrored. -/
def execRepairPassEnd (dirtyPages : List Nat) (s : State) : Out :=
  needSome (s.panel.repair.filter fun r => r.phase == 2 || r.phase == 4) .notPending fun r =>
  let dirty := if r.phase = 4 then [] else dirtyPages
  let phase := if r.phase = 4 ∨ dirty.length ≤ dirtyMax then 3 else if r.passes + 1 ≥ 4 then 4 else 2
  let s := s.modPanel fun p => { p with repair := some { r with phase := phase, passes := r.passes + 1, dirty := dirty } }
  .next (match r.bg with | some g => s.modBg g fun b => { b with progress := if phase = 3 then 999 else 500 } | none => s)

/-- Whether a page's state is copied (R418). -/
def PotState.copied : PotState → Bool
  | .owned => true
  | .loading => true
  | .quarantined => true
  | .system => true
  | _ => false

/-- Registers of a site's router and margining block, which stay with the site when its die moves. -/
def siteOwned (off : Nat) : Bool := off == 0x6000 || (decide (0x7000 ≤ off) && decide (off < 0x7608))

/-- Moves the site-owned registers and cut ports of a repair: the old site's to its aperture, the new site's to the die. -/
def State.moveRouter (s : State) (d o n : Nat) : State :=
  let key (a : Nat) : Nat :=
    if dieBase d ≤ a ∧ a < dieBase d + 0x100000000 ∧ siteOwned (a - dieBase d) then siteBase o + (a - dieBase d)
    else if siteBase n ≤ a ∧ a < siteBase n + 0x100000000 ∧ siteOwned (a - siteBase n) then dieBase d + (a - siteBase n)
    else a
  let port (k : Nat) : Nat := if k / 16 = d then (80 + o) * 16 + k % 16 else if k / 16 = 80 + n then d * 16 + k % 16 else k
  { s with
    regs := s.regs.foldl (fun m e => NMap.put m (key e.1) e.2) []
    cut := { s.cut with ports := s.cut.ports.foldl (fun m e => NMap.put m (port e.1) e.2) [] } }

/-- The tallies after a repair: a cut bundle's go with its site, and a DRAM row's are those of the new site's stack, none. -/
def tallyMove (d o n : Nat) (l : List (UnitKey × List Nat)) : List (UnitKey × List Nat) :=
  (l.filter fun e => !(e.1.1 == 3 && e.1.2.1 / 64 == d)).map fun e =>
    if e.1.1 = 4 then ((4, if e.1.2.1 = d then 80 + o else if e.1.2.1 = 80 + n then d else e.1.2.1, e.1.2.2), e.2) else e

/-- Stops what runs on a die that moves (R419 steps 1 and 2): its commands with 0x3002, a REPLAYABLE one for a repair replay; its
tiles, transfers and threads are not carried over, and a fault handler starts again at its entry point. -/
def State.freezeDie (s : State) (d : Nat) : State :=
  let s := (s.cmdsOn d).foldl (fun (s : State) c => s.replayCmd c.ctx c.seq 0x3002 false) s
  let s := s.modEng fun e => { e with
    eng := NMap.keep e.eng fun _ r => r.tile.die != d
    copies := e.copies.filter fun q => q.tile.die != d
    tileq := e.tileq.filter fun q => q.die != d
    reruns := e.reruns.filter fun q => q.die != d
    xfers := e.xfers.filter fun x => x.die != d }
  s.modThr fun x => { x with
    threads := NMap.mapV (NMap.keep x.threads fun tid t => dieOfThr tid != d || t.handler) fun tid t =>
      if dieOfThr tid = d then
        { Thread.start t.uid t.berth t.ctx t.seq t.ktid t.ktcnt t.harbour true t.convoy
            (((s.berth? t.berth).bind (·.handlerEntry)).getD 0) 0 with wait := .handlerIdle }
      else t
    tickets := x.tickets.map fun k =>
      if x.threads.any fun e => dieOfThr e.1 == d && e.2.uid == k.uid then { k with done := true } else k }

/-- The pages that the new site could not be given from an unreadable old one: every sector becomes stored poison; cargo pages are
quarantined (Table 17.3). -/
def State.poisonPage (s : State) (page : Nat) : State :=
  let e := s.pot page
  let s := (List.range 2048).foldl (fun (s : State) i => s.dramPut (page * 0x10000 + i * 32) (List.replicate 32 0) true) s
  if e.owner = 255 ∧ e.state = .owned then s.setPot page { e with state := .quarantined } else s

/-- The pages of a die whose POT entry stands in memory or whose bytes are listed. -/
def State.diePages (s : State) (d : Nat) : List Nat :=
  sortNat (((s.mem.pot.map (·.1)).filter fun p => homeOf (p * 0x10000) == d) ++
    ((s.mem.dram.filter fun c => homeOf c.1 == d).map fun c => c.1 / 0x10000) ++
    ((s.mem.sect.filter fun c => homeOf c.1 == d).map fun c => c.1 / 0x10000))

/-- What the new site's stack holds (R418): copied pages, corrected or poisoned as they are read, others zeroed; `lost` pages, which
could not be read, are poison. -/
def State.copyStack (s : State) (d : Nat) (lost : Nat → Bool) : State :=
  (s.diePages d).foldl (fun (s : State) p =>
    if !(s.pot p).state.copied then s.zeroPage p
    else if lost p then s.poisonPage p
    else (s.mem.sect.filter fun c => c.1 / 0x10000 == p).foldl (fun (s : State) c => (s.sectRewrite c.1 []).2) s) s

/-- REPAIR_SWITCH: Phase C of R419 in its order, at the end of copying or, where the old site cannot be read, at once. -/
def execRepairSwitch (oldReadable : Bool) (s : State) : Out :=
  needSome (s.panel.repair.filter fun r => r.phase == 3 || (decide (r.phase ≥ 2) && !oldReadable)) .notPending fun r =>
  let d := r.die
  let s := s.freezeDie d
  let s := if oldReadable then
      let s := (s.cores d).foldl (fun s g => (s.l1Flush (d * 32 + g) 0 allMem).2) s
      ((s.cleanFar d none).drainSlices d none).flushHome d none
    else s
  let lost (p : Nat) : Bool := !oldReadable && (r.passes == 0 || r.dirty.contains p)
  let s := s.copyStack d lost
  let s := s.moveRouter d r.oldSite r.newSite
  let s := s.modPanel fun p => { p with
    sites := NMap.put (NMap.put p.sites r.oldSite .failed) r.newSite (.inService d) }
  let s := s.modRel fun x => { x with
    retired := x.retired ++ [(2, r.oldSite, 0)]
    retiring := x.retiring.filter fun q => q.1 != d
    tallies := tallyMove d r.oldSite r.newSite x.tallies
    testing := NMap.erase x.testing d }
  let s := ((s.putRowMap (d / 9)).mapUnits [] [] d).routeSwap d
  let s := s.modBasin fun b => { b with
    l1 := NMap.keep b.l1 fun k _ => keyUnit k / 32 != d
    far := NMap.keep b.far fun k _ => keyUnit k != d
    farLines := NMap.keep b.farLines fun k _ => keyUnit k != d
    home := NMap.keep b.home fun a _ => homeOf a != d
    homeLines := NMap.keep b.homeLines fun a _ => homeOf a != d
    pend := b.pend.filter fun p => p.die != d }
  let s := s.effSet d
  .next (s.repairDone 0 (bytesOf 1 r.newSite))

end Sys2Proof.Machine
end

