-- ==== Sys2Proof/Machine/Rows.lean ====
section
/-! DEFINITION. Row repair (R220, R361), the re-lading of quarantined cargo pages (R365), and the draining of traces (R432). -/

namespace Sys2Proof.Machine

/-! ## Row repair -/

/-- The first address of the 128 KiB block that holds a row (R205). -/
def rowBlock (die layer bank row : Nat) : Nat := dramBase die + layer * 2 ^ 32 + row * 2 ^ 23 + bank * 2 ^ 17

/-- The 64 sectors of a row. -/
def rowSectors (die chan layer bank row : Nat) : List Nat :=
  ((List.range 4096).map fun i => rowBlock die layer bank row + 32 * i).filter fun a => chanOf a == chan

/-- The lowest unused spare of a bank and layer of a site's channel, of 4. -/
def State.spareRow (s : State) (site chan layer bank : Nat) : Option Nat :=
  (List.range 4).find? fun k => s.mem.repairs.all fun r =>
    !(r.site == site && r.chan == chan && r.layer == layer && r.bank == bank && r.spare == k)

/-- What a retirement's read of one sector adds to the repair's log entry: a corrected position, or one more poisoned. -/
def Decode.noted (o : Decode) (n : List Nat × Nat) : List Nat × Nat := match o with
  | .dataFixed p _ => (n.1 ++ [p], n.2)
  | .zerosFixed p => (n.1 ++ [p], n.2)
  | .detected => (n.1, n.2 + 1)
  | _ => n

/-- Rewrites a row's sectors as they decode, without signatures or tallies; the corrections and poisonings found. -/
def State.rowRewrite (s : State) (secs : List Nat) (u : Upset) : (List Nat × Nat) × State :=
  secs.foldl (fun (a : (List Nat × Nat) × State) sa =>
    let (o, s) := a.2.sectRewrite sa u.dram
    (o.noted a.1, s)) (([], 0), s)

/-- The row repair over: the row blocks nothing more. -/
def State.rowFree (s : State) (b : Nat × Nat × Nat × Nat × Nat) : State :=
  s.modMem fun m => { m with blocked := m.blocked.filter (· != b) }

/-- A row moved to spare `k`, its repair listed. -/
def State.rowSpared (s : State) (die chan layer bank row k : Nat) (u : Upset) : State :=
  let r := s.rowRewrite (rowSectors die chan layer bank row) u
  State.rowFree (r.2.modMem fun m => { m with repairs := m.repairs ++
    [{ die := die, site := s.siteNum die, chan := chan, layer := layer, bank := bank, row := row, spare := k, fused := false
       time := s.clk.now, fixed := r.1.1, poisoned := r.1.2 }] }) (die, chan, layer, bank, row)

/-- A row no spare takes: its two pages are withdrawn, once nothing of them is in use (R361). -/
def State.rowSpareless (s : State) (die chan layer bank row : Nat) (u : Upset) : State :=
  let page := rowBlock die layer bank row / 0x10000
  if s.withdrawReady page && s.withdrawReady (page + 1) then
    State.rowFree (((s.rowRewrite (rowSectors die chan layer bank row) u).2.withdrawPage page).withdrawPage (page + 1))
      (die, chan, layer, bank, row)
  else (s.withdrawAsk page).withdrawAsk (page + 1)

/-- ROW_RETIRE_DONE: the row moves to a spare and the repair is listed; without a spare its two pages are withdrawn, once nothing
of them is in use (R361). -/
def execRowRetireDone (die chan layer bank row : Nat) (u : Upset) (s : State) : Out :=
  need (s.mem.blocked.contains (die, chan, layer, bank, row)) .notPending <|
  .next (match s.spareRow (s.siteNum die) chan layer bank with
    | some k => s.rowSpared die chan layer bank row k u
    | none => s.rowSpareless die chan layer bank row u)

/-! ## Shared cargo repair (R365) -/

/-- Whether a row of a page waits for its repair. -/
def State.pageBlocked (s : State) (page : Nat) : Bool :=
  s.mem.blocked.any fun b => rowBlock b.1 b.2.2.1 b.2.2.2.1 b.2.2.2.2 / 0x20000 == page / 2

/-- Whether some row of a page has a full tally and no spare took it. -/
def State.pageSpareless (s : State) (page : Nat) : Bool :=
  let a := page * 0x10000
  let d := homeOf a
  (List.range 64).any fun c =>
    let k : UnitKey := (3, d * 64 + c, layerOf a * 64 + bankOf a, rowOf a)
    decide (s.tallyCount k ≥ 3) && s.mem.repairs.all fun r =>
      !(r.site == s.siteNum d && r.chan == c && r.layer == layerOf a && r.bank == bankOf a && r.row == rowOf a)

/-- Writes a re-laden page in whole sectors and sets it OWNED by the cargo, RO and mend. -/
def State.ladePage (s : State) (page : Nat) (data : List Byte) : State :=
  let s := s.setPot page (PotEnt.own 255 true false)
  (List.range 2048).foldl (fun (s : State) i =>
    (s.dramPut (page * 0x10000 + 32 * i) ((data.drop (32 * i)).take 32) false).modMem fun m =>
      { m with spentSec := NMap.erase m.spentSec (page * 0x10000 + 32 * i) }) s

/-- A re-lading that fails: tried three times, then the page stays quarantined, a Failure record is logged and the commands held
for quarantined cargo fail (R365). -/
def State.ladeFailed (s : State) (i : Nat) : State :=
  let n := NMap.getD s.bth.relading i 0 + 1
  if n < 3 then s.modBth fun b => { b with relading := NMap.put b.relading i n }
  else
    let s := (s.modBth fun b => { b with relading := NMap.erase b.relading i }).cxlEvent 2 false (bytesOf 8 i)
    (s.lk.cmds.filter fun c => c.trigger == 0x3707).foldl (fun (s : State) c => s.failCmd c.ctx c.seq 0x3707) s

/-- A re-lading is over. -/
def State.laden (s : State) (page : Nat) : State := s.modBth fun b => { b with relading := NMap.erase b.relading page }

/-- A page laden at ZEROED page `new`: the mappings follow it, and the old page is WITHDRAWN. -/
def State.ladeMoved (s : State) (page p new : Nat) (bs : List Nat) (data : List Byte) : State :=
  let s := (s.ladePage new data).modBth fun b => { b with cargoPages := b.cargoPages.set page (new * 0x10000) }
  let s := bs.foldl (fun (s : State) b => (s.mapCommit b).getD s) s
  State.laden ((s.zeroPage p).setPot p { PotEnt.own 0 false false with state := .withdrawn }) page

/-- A re-lading whose source is read: its pages must carry the hash of the seal; one whose row no spare took moves to a ZEROED
page. -/
def State.ladeWith (s : State) (page p : Nat) (bs : List Nat) (moves : Bool) (data : List Byte) : State :=
  if data.length ≠ 0x10000 ∨ Config.sha384 data ≠ NMap.getD s.bth.pageHashes page 0 then s.ladeFailed page
  else if !moves then State.laden (s.ladePage p data) page
  else match s.zeroedRun (homeOf (p * 0x10000)) 1 with
    | none => s.ladeFailed page
    | some new => s.ladeMoved page p new bs data

/-- CARGO_RELADE: cargo page `page` from what its source gave, none where that is out of reach. A row repair of the page comes
first; a page in a row without a spare is laden to another page of its die. -/
def execCargoRelade (page : Nat) (source : Option (List (BitVec 8))) (s : State) : Out :=
  needSome s.bth.cargoPages[page]? .noSuchUnit fun pa =>
  let p := pa / 0x10000
  let bs := (s.bth.berths.filter fun e => e.2.cargoMapped).map (·.1)
  let moves := s.pageSpareless p
  need ((s.pot p).state == .quarantined && s.bth.cargoState == .sealed) .notPending <|
  .next (
    if s.pageBlocked p then s
    else if moves && !bs.all s.mapReady then bs.foldl State.mapSync s
    else match source with
      | none => (s.dropPage p).ladeFailed page
      | some data => (s.dropPage p).ladeWith page p bs moves data)

/-! ## Trace -/

/-- TRACE_DRAIN: a buffer of 128 records or more is drained; command ends drain of themselves (R432). -/
def execTraceDrain (die : Nat) (s : State) : Out :=
  needSome (NMap.get? s.rel.traces die) .noSuchUnit fun t =>
  need (t.enabled && decide (t.recs.length ≥ 128)) .notArmed <| .next (s.traceDrain die)

end Sys2Proof.Machine
end

