-- ==== Sys2Proof/Machine/Accept.lean ====
section
/-! DEFINITION. How Kiltor firmware accepts and checks mailbox requests (R331 to R337, R344, R345, R382, R414). -/

namespace Sys2Proof.Machine

/-! ## The opcodes (Tables 13.2 to 13.10) -/

/-- What the tables say of an opcode: the mailboxes it is open to, its fields as (offset, size), where it names a BERTH, the bits
that are reserved within fields as (offset, size, permitted bits), and the size of the entries that follow a variable one. -/
structure OpInfo where
  op : Bool
  berth : Bool
  fields : List (Nat × Nat)
  berthAt : Option Nat
  bits : List (Nat × Nat × Nat)
  tail : Option Nat
deriving DecidableEq, Repr

/-- An opcode of the operator mailbox alone. -/
def opO (fields : List (Nat × Nat)) (bits : List (Nat × Nat × Nat)) : OpInfo :=
  { op := true, berth := false, fields := fields, berthAt := none, bits := bits, tail := none }

/-- An opcode of both mailboxes. -/
def opOB (fields : List (Nat × Nat)) (berthAt : Option Nat) (bits : List (Nat × Nat × Nat)) : OpInfo :=
  { op := true, berth := true, fields := fields, berthAt := berthAt, bits := bits, tail := none }

/-- Reserved bits of a die mask at an offset (R338). -/
def dieMaskBits (off : Nat) : List (Nat × Nat × Nat) := [(off + 8, 8, 0xFF)]

/-- Opcodes 0x01xx. -/
def opDevice : Nat → Option OpInfo
  | 0x0100 => some (opOB [] none [])
  | 0x0102 => some (opOB [(0, 4)] none [])
  | 0x0103 => some (opOB [(0, 4)] none [])
  | 0x0110 => some (opOB [(0, 1), (1, 1), (4, 4), (8, 8), (16, 8), (24, 8)] (some 1)
      [(8, 8, 0x7FFFFFF), (16, 8, 0x7FFFFFF), (24, 8, 0xFFFFFFFF000000FF)])
  | 0x0111 => some (opO [(0, 1), (4, 4), (8, 8), (16, 8), (24, 8), (32, 8)]
      [(8, 8, 0x8000000003FF03FF), (24, 8, 0xFF), (32, 8, 0xFFFFF0000)])
  | 0x0112 => some (opO [(0, 8), (8, 4)] [])
  | 0x0120 => some (opO [(0, 4)] [])
  | _ => none

/-- Opcodes 0x02xx. -/
def opBerths : Nat → Option OpInfo
  | 0x0200 => some (opO [(0, 1), (1, 1), (2, 1), (3, 1), (4, 4), (8, 16), (24, 2), (26, 1), (28, 4), (32, 4)]
      ((2, 1, 3) :: dieMaskBits 8))
  | 0x0201 => some (opO [(0, 1)] [])
  | 0x0202 => some (opOB [(0, 1)] (some 0) [])
  | 0x0203 => some (opOB [(0, 1)] (some 0) [])
  | 0x0204 => some (opO [(0, 1), (1, 1), (2, 2), (4, 1), (8, 4)] [])
  | 0x0205 => some (opO [(0, 1), (1, 1), (2, 1), (4, 4)] [])
  | 0x0206 => some { opOB [(0, 1), (8, 8), (16, 4)] none [] with op := false }
  | 0x0207 => some { opOB [(0, 8), (8, 8), (16, 4)] none [] with op := false }
  | 0x0208 => some (opOB [(0, 1)] (some 0) [])
  | 0x0210 => some (opOB [(0, 1), (2, 1), (3, 1), (4, 1), (8, 8), (16, 4)] (some 0) [])
  | 0x0211 => some (opOB [(0, 2)] none [])
  | 0x0212 => some (opOB [(0, 2)] none [])
  | 0x0220 => some (opOB [(0, 1), (1, 1), (2, 1), (3, 1), (4, 4), (8, 8)] (some 0) [(3, 1, 15)])
  | 0x0221 => some (opOB [(0, 1), (4, 4), (8, 8)] (some 0) [])
  | 0x0222 => some (opOB [(0, 1), (3, 1), (4, 4), (8, 8)] (some 0) [(3, 1, 15)])
  | 0x0230 => some (opOB [(0, 1), (4, 4), (8, 16)] (some 0) (dieMaskBits 8))
  | 0x0231 => some (opOB [(0, 1), (4, 4)] (some 0) [])
  | 0x0232 => some (opOB [(0, 1)] (some 0) [])
  | _ => none

/-- Opcodes 0x03xx. -/
def opCargo : Nat → Option OpInfo
  | 0x0300 => some (opO [(0, 4), (8, 8), (16, 16), (32, 8)] (dieMaskBits 16))
  | 0x0301 => some (opO [(0, 4), (4, 4), (8, 1), (9, 1), (12, 4), (16, 8)] [])
  | 0x0302 => some (opO [] [])
  | 0x0303 => some (opOB [(0, 1)] (some 0) [])
  | 0x0304 => some (opOB [(0, 1)] (some 0) [])
  | 0x0305 => some (opO [] [])
  | 0x0306 => some (opOB [] none [])
  | 0x0310 => some (opO [(0, 8), (8, 8), (16, 4), (20, 4), (24, 1), (26, 2)] [])
  | 0x0311 => some (opO [] [])
  | _ => none

/-- Opcodes 0x04xx to 0x07xx. -/
def opUpkeep : Nat → Option OpInfo
  | 0x0400 => some (opO [(0, 4), (4, 4)] [])
  | 0x0401 => some (opOB [] none [])
  | 0x0402 => some (opO [(0, 16), (16, 1)] (dieMaskBits 0))
  | 0x0403 => some (opO [(0, 1), (1, 1), (2, 1)] [])
  | 0x0500 => some (opO [(0, 8), (8, 1)] [])
  | 0x0501 => some (opO [(0, 1), (1, 1), (2, 2), (4, 4)] [])
  | 0x0502 => some (opO [(0, 1), (1, 1), (2, 2), (4, 4)] [])
  | 0x0503 => some (opO [(0, 1)] [])
  | 0x0504 => some (opO [(0, 1)] [])
  | 0x0505 => some (opO [(0, 1), (1, 1), (2, 2), (4, 4)] [])
  | 0x0506 => some (opO [(0, 4)] [])
  | 0x0600 => some (opOB [] none [])
  | 0x0601 => some (opO [] [])
  | 0x0602 => some (opO [(0, 8), (8, 4)] [])
  | 0x0700 => some (opOB [(0, 1), (1, 1), (2, 2), (4, 1)] none [])
  | 0x0701 => some (opOB [(0, 1), (1, 1), (8, 8), (16, 4), (20, 4)] none [(20, 4, 0x7F)])
  | 0x0702 => some (opO [(0, 8), (8, 4)] [])
  | 0x0703 => some (opO [(0, 8)] [])
  | 0x0704 => some (opOB [(0, 2)] none [])
  | _ => none

/-- Opcodes 0x08xx and 0x09xx. -/
def opLinks : Nat → Option OpInfo
  | 0x0800 => some (opO [(0, 4)] [(0, 4, 0x8003FFFF)])
  | 0x0801 => some { opO [(0, 1), (2, 2), (4, 2)] [] with tail := some 4 }
  | 0x0802 => some (opO [] [])
  | 0x0803 => some (opO [(0, 1), (1, 1)] [])
  | 0x0805 => some (opO [(0, 1), (1, 1), (2, 1), (4, 2)] [(4, 2, 0x1FF)])
  | 0x0806 => some (opO [(0, 1), (4, 4), (8, 4), (12, 4)] [])
  | 0x0807 => some (opOB [(0, 1), (1, 1), (2, 1), (4, 4), (8, 8), (16, 8), (24, 8)] (some 0) [])
  | 0x0808 => some (opOB [(0, 1), (1, 1), (2, 1), (3, 1), (8, 8), (16, 8), (24, 8)] (some 0) [(2, 1, 3)])
  | 0x0809 => some (opO [(0, 1), (4, 4)] [(4, 4, 0x800FFFFF)])
  | 0x080A => some (opOB [(0, 2), (8, 64)] none [])
  | 0x080B => some (opO [(0, 1), (1, 1), (2, 1), (3, 1)] [])
  | 0x0900 => some { opO [(0, 4), (4, 4)] [] with tail := some 1 }
  | 0x0901 => some (opO [(0, 1)] [])
  | 0x0902 => some (opOB [] none [])
  | 0x0903 => some (opO [(0, 1), (8, 8)] [])
  | 0x0904 => some (opO [(0, 1), (1, 1), (2, 1)] [])
  | 0x0905 => some (opO [(0, 1)] [])
  | _ => none

/-- The entry of an opcode; none where the tables list none. -/
def opInfo (c : Nat) : Option OpInfo := match c / 0x100 with
  | 1 => opDevice c
  | 2 => opBerths c
  | 3 => opCargo c
  | 4 => opUpkeep c
  | 5 => opUpkeep c
  | 6 => opUpkeep c
  | 7 => opUpkeep c
  | _ => opLinks c

/-- The fixed length of a request: the highest offset plus size (R333). -/
def OpInfo.len (i : OpInfo) : Nat := i.fields.foldl (fun n f => Nat.max n (f.1 + f.2)) 0

/-- The length of a request of this payload; a variable one has 1 to 512 route entries, or 1 to 3,832 bytes of an image. -/
def OpInfo.lenOk (i : OpInfo) (payload : List Byte) : Bool := match i.tail with
  | none => payload.length == i.len
  | some 4 => decide (8 ≤ payload.length) && payload.length == 8 + 4 * rdLE payload 4 2
  | some _ => decide (9 ≤ payload.length) && decide (payload.length ≤ 8 + 3832)

/-- Whether a byte of a payload belongs to a field. -/
def OpInfo.covers (i : OpInfo) (k : Nat) : Bool :=
  (i.tail.isSome && decide (8 ≤ k)) || i.fields.any fun f => decide (f.1 ≤ k) && decide (k < f.1 + f.2)

/-- Whether the reserved bytes and bits of a payload are zero (R4, R333). -/
def OpInfo.clean (i : OpInfo) (payload : List Byte) : Bool :=
  ((List.range payload.length).all fun k => i.covers k || byteAt payload k == 0) &&
  i.bits.all fun b => rdLE payload b.1 b.2.1 &&& b.2.2 == rdLE payload b.1 b.2.1

/-! ## Locks (R335) -/

/-- Numbers of the objects that requests change: berths as they are, then dies, sites, cargo, firmware image, collective groups and
contexts. -/
def objDie (d : Nat) : Nat := 300 + d
/-- A site. -/
def objSite (t : Nat) : Nat := 400 + t
/-- The cargo. -/
def objCargo : Nat := 500
/-- The firmware image. -/
def objImage : Nat := 501
/-- A collective group. -/
def objGroup (g : Nat) : Nat := 1000 + g
/-- A context. -/
def objCtx (c : Nat) : Nat := 10000 + c

/-- Every die. -/
def objDies : List Nat := (List.range 72).map objDie

/-- The die or site that DRAM_INIT and DRAM_MARGIN name. -/
def objTarget (n : Nat) : Nat := if n < 72 then objDie n else objSite (n - 0x80)

/-- The objects that a request changes. -/
def reqObjs (mb : Mbox) (r : MbReq) : List Nat :=
  let f := r.num
  match r.opcode.toNat with
  | 0x0110 => [f 1 1]
  | 0x0111 => objDies
  | 0x0112 => objDies
  | 0x0200 => f 0 1 :: (bitsOf 72 (f 8 16)).map objDie
  | 0x0201 => [f 0 1]
  | 0x0202 => [f 0 1]
  | 0x0204 => [f 0 1]
  | 0x0205 => [f 0 1, f 1 1, objDie (f 2 1)]
  | 0x0206 => [mbBerth mb]
  | 0x0207 => [mbBerth mb]
  | 0x0210 => [f 0 1]
  | 0x0211 => [objCtx (f 0 2)]
  | 0x0212 => [objCtx (f 0 2)]
  | 0x0220 => [f 0 1]
  | 0x0221 => [f 0 1]
  | 0x0222 => [f 0 1]
  | 0x0230 => [f 0 1]
  | 0x0231 => [f 0 1]
  | 0x0232 => [f 0 1]
  | 0x0300 => [objCargo]
  | 0x0301 => [objCargo]
  | 0x0302 => [objCargo]
  | 0x0303 => [f 0 1, objCargo]
  | 0x0304 => [f 0 1, objCargo]
  | 0x0305 => [objCargo]
  | 0x0310 => [objCargo]
  | 0x0311 => [objCargo]
  | 0x0402 => (bitsOf 72 (f 0 16)).map objDie
  | 0x0403 => [objDie (f 0 1)]
  | 0x0505 => [objDie (f 1 1)]
  | 0x0700 => [objDie (f 0 1)]
  | 0x0701 => [objDie (f 0 1)]
  | 0x0806 => [f 0 1]
  | 0x0807 => [f 0 1]
  | 0x0808 => [f 0 1]
  | 0x0809 => [f 0 1]
  | 0x080A => [objGroup (f 0 2)]
  | 0x0900 => [objImage]
  | 0x0901 => [objImage]
  | 0x0903 => [objTarget (f 0 1)]
  | 0x0904 => [objTarget (f 0 1)]
  | 0x0905 => [objDie (f 0 1)]
  | _ => []

/-- The objects of a running operation, those of its request; one on a context also finds its berth held. -/
def State.held (s : State) (skip : Bg → Bool) (o : Nat) : Bool :=
  s.mbx.bgs.any fun g => !g.ended && !skip g && (reqObjs g.mb g.req).contains o

/-- Whether an object of a request is held by a background operation (R335). A context is held with its berth. A reset or a
destruction is not kept out by operations that its berth's own mailbox started: it ends them (R336). -/
def State.reqHeld (s : State) (mb : Mbox) (r : MbReq) : Bool :=
  let code := r.opcode.toNat
  let own (g : Bg) : Bool := decide (code = 0x0201 ∨ code = 0x0202) && g.mb == .berth (r.num 0 1)
  let ctxs : List Nat := if code = 0x0211 ∨ code = 0x0212 then
      match s.ctx? (r.num 0 2) with | some c => [c.berth] | none => [] else []
  (reqObjs mb r ++ ctxs).any (s.held own)

/-! ## Acceptance -/

/-- Whether the mailbox exists. -/
def mbExists : Mbox → Bool
  | .op => true
  | .berth b => decide (1 ≤ b) && decide (b ≤ 254)

/-- Whether Kiltor firmware runs and takes requests: not before it starts, not without an image (R413), not while it hangs or
switches (R345). -/
def State.mbRuns (s : State) : Bool :=
  s.pwr.standbyGood && !s.pwr.restartDue && !s.mbx.switching && !s.mbx.resetting &&
  match s.pwr.boot with
  | .rom => false
  | .recovery => false
  | .failed => false
  | _ => true

/-- The status with which a request fails in the device's state (R337, R382, R414) or its berth's (R336); 0 where it is served. -/
def State.mbState (s : State) (mb : Mbox) (code : Nat) : Status :=
  if s.sec.alarmLock && !(code == 0x0100 || code == 0x0600) then 0x4B05
  else if s.pwr.boot = .stopped ∧ !([0x0100, 0x0600, 0x0401, 0x0500, 0x0902, 0x0120].contains code) then 0x2901
  else if s.pwr.boot ≠ .stopped ∧ s.pwr.boot ≠ .service ∧ !([0x0100, 0x0902, 0x0600, 0x0500].contains code) then 0x2901
  else match mb with
    | .op => 0
    | .berth b => if s.berthActive b || [0x0100, 0x0102, 0x0203, 0x0208].contains code then 0 else 0x2901

/-- The status with which a request fails before firmware acts on it, 0 where it is served: opcode, mailbox, state, length,
reserved bytes, berth (log entry 33). -/
def State.mbCheck (s : State) (mb : Mbox) (r : MbReq) : Status :=
  let code := r.opcode.toNat
  match opInfo code with
  | none => 0x6901
  | some i =>
    let open' := match mb with | .op => i.op | .berth _ => i.berth
    let st := s.mbState mb code
    if !open' then 0x4901
    else if st ≠ 0 then st
    else if !i.lenOk r.payload then 0x6902
    else if !i.clean r.payload then 0x6001
    else match mb, i.berthAt with
      | .berth b, some k => if r.num k 1 = b then 0 else 0x4901
      | _, _ => 0

/-- Firmware copies a page's request, stamps it, and either keeps it or answers it at once (R331 steps 4 and 5, R333). -/
def State.mbAccept (s : State) (mb : Mbox) : State :=
  let k := mbKey mb
  let p := s.mbPage k
  let r : MbReq := { opcode := BitVec.ofNat 16 (p.num 8 2), seq := BitVec.ofNat 32 (p.num 4 4), notify := BitVec.ofNat 64 (p.num 0x10 8)
                     payload := p.get 0x100 (p.num 0x0C 2) }
  let s := s.modPage k fun p =>
    { ((p.set 0x18 (bytesOf 8 s.clk.now)).set 0x30 (bytesOf 8 s.fwVersion.toNat)) with
      req := some r }
  let st := s.mbCheck mb r
  if st = 0 then s else s.mbAnswer mb st [] 0

/-- MAILBOX_OWNER_SET: the caller sets OWNER, and firmware that runs accepts the request. A page whose OWNER was set meanwhile is
accepted; where a request is already in progress, or cannot be accepted yet, the write is discarded and counted. A FREE berth's
page takes nothing. -/
def execMailboxOwnerSet (mb : Mbox) (s : State) : Out :=
  need (mbExists mb) .noSuchUnit <| need s.pwr.standbyGood .blockDown <|
  let k := mbKey mb
  let p := s.mbPage k
  .next (
    if mb ≠ .op ∧ (s.berth? k).all (·.state == .free) then s.winRefused k
    else if p.owned && (p.req.isSome || !s.mbRuns) then s.mbWrite k 0 [1]
    else
      let s := s.modPage k fun p => p.set 0 [1]
      if s.mbRuns then s.mbAccept mb else s)

/-- MAILBOX_ACCEPT_TIMEOUT: a page has waited for 100 ms outside a switch; the management restarts (R345, R422). -/
def execMailboxAcceptTimeout (mb : Mbox) (s : State) : Out :=
  need (mbExists mb) .noSuchUnit <|
  need (s.pwr.standbyGood && (s.mbPage (mbKey mb)).owned && (s.mbPage (mbKey mb)).req.isNone && !s.mbx.switching &&
    !s.mbx.resetting) .notPending <|
  .next (s.modPwr fun p => { p with restartDue := true })

/-! ## Acting on a request -/

/-- Acts on a mailbox's accepted request of one opcode. The device's state counts now; a request whose object is held fails with
0x5901. One whose map change is committed goes on. -/
def State.onReq (s : State) (mb : Mbox) (code : Nat) (f : MbReq → State) : Out :=
  need (mbExists mb) .noSuchUnit <|
  need s.mbRuns .blockDown <|
  needSome ((s.mbPage (mbKey mb)).req.filter (·.opcode.toNat == code)) .noRequest fun r =>
  .next (
    if (s.mbPage (mbKey mb)).stage then f r
    else if s.mbState mb code ≠ 0 then s.mbAnswer mb (s.mbState mb code) [] 0
    else if s.reqHeld mb r then s.mbAnswer mb 0x5901 [] 0
    else f r)

/-- Background operations of a mailbox that run. -/
def State.bgCount (s : State) (mb : Mbox) : Nat := (s.mbx.bgs.filter fun g => !g.ended && g.mb == mb).length

/-- Starts a valid request's background operation, a ninth of its mailbox apart (R334). -/
def State.bgBegin (s : State) (mb : Mbox) (r : MbReq) (aux : List Nat) : State :=
  if s.bgCount mb ≥ 8 then s.mbAnswer mb 0x5902 [] 0 else s.bgStart mb r aux

/-- Fails a request. -/
def State.mbFail (s : State) (mb : Mbox) (st : Status) : State := s.mbAnswer mb st [] 0

/-- Answers a request with success. -/
def State.mbOk (s : State) (mb : Mbox) (rsp : List Byte) : State := s.mbAnswer mb 0 rsp 0

end Sys2Proof.Machine
end

