-- ==== Sys2Proof/Machine/MbxDevice.lean ====
section
/-! DEFINITION. Mailbox operations on the device (Table 13.2, R334, R338, R339). -/

namespace Sys2Proof.Machine

/-- A response: fields (offset, size, value) in rising order, zero between them (R338). -/
def rspOf (fields : List (Nat × Nat × Nat)) : List Byte :=
  fields.foldl (fun l f => l ++ List.replicate (f.1 - l.length) 0 ++ bytesOf f.2.1 f.2.2) []

/-- Code of a boot state (Table 17.1). -/
def Boot.code : Boot → Nat
  | .rom => 1
  | .waitTray => 2
  | .cuts => 3
  | .dieTest => 4
  | .dram => 5
  | .map => 6
  | .links => 7
  | .service => 8
  | .stopped => 9
  | .recovery => 10
  | .locked => 11
  | .failed => 12

/-- BOOT_STATE: an alarm lock reads as LOCKED (R406). -/
def State.bootCode (s : State) : Nat := if s.sec.alarmLock ∧ s.pwr.boot ≠ .stopped then 11 else s.pwr.boot.code

/-- PART, "XZ9-P72", as a little-endian number. -/
def partNum : Nat := ofBytes [0x58, 0x5A, 0x39, 0x2D, 0x50, 0x37, 0x32]

/-- The status of a request whose named memory cannot be read or written: 0x4104 (R332); poison and a lost port keep theirs. -/
def namedSt (st : Status) : Status := if st = 0x3701 ∨ st = 0x3707 ∨ st = 0x3C01 ∨ st = 0x3C02 then st else 0x4104

/-- IDENTIFY. -/
def execIdentify (mb : Mbox) (s : State) : Out :=
  s.onReq mb 0x0100 fun _ => s.mbOk mb (rspOf
    [(0, 16, partNum), (16, 8, s.sec.fuses.dsn.toNat), (24, 8, s.fwVersion.toNat), (32, 1, Word.fld s.fusePolicy 35 28),
     (33, 1, s.diesIn.length), (34, 1, s.bootCode), (40, 8, (s.reg (ghBase 0 + 0x20000)).toNat), (48, 8, s.clk.now)])

/-- The operation that a BG_ID names: unknown and forgotten ones are out of range, another mailbox's is not permitted. -/
def State.namedBg (s : State) (mb : Mbox) (id : Nat) : Status × Option Bg := match s.bg? id with
  | none => (0x6903, none)
  | some g => if g.mb = mb then (0, some g) else (0x4901, none)

/-- BG_STATUS. -/
def execBgStatus (mb : Mbox) (s : State) : Out :=
  s.onReq mb 0x0102 fun r => match s.namedBg mb (r.num 0 4) with
    | (_, some g) => s.mbOk mb (rspOf
        [(0, 2, if g.ended then g.status.toNat else 0x0901), (4, 4, g.progress), (8, 8, if g.ended then g.tDone else 0)] ++
        (if g.ended then g.rsp else []))
    | (st, none) => s.mbFail mb st

/-! ## Set-all operations (R339) -/

/-- Whether a berth owns every page from `lo` to `hi` of the address space. -/
def State.ownsPages (s : State) (b lo hi : Nat) : Bool :=
  decide (lo ≤ hi) && (List.range (hi + 1 - lo)).all fun i =>
    (List.range 16).all fun j => match s.dramAddr 0 ((lo + i) * 0x10000 + j * 0x1000) with
      | some pa => (s.pot (pa / 0x10000)).owner == b && (s.pot (pa / 0x10000)).state == .owned
      | none => false

/-- The berth that a window is assigned to. -/
def State.windowOf (s : State) (w : Nat) : Option Nat := (s.bth.berths.find? fun e => e.2.windows.contains w).map (·.1)

/-- Assigns a window to a berth, 255 to none. -/
def State.assignWindow (s : State) (w b : Nat) : State :=
  s.modBth fun x => { x with berths := NMap.mapV x.berths fun k e =>
    { e with windows := if k = b then insertNat w e.windows else e.windows.filter (· != w) } }

/-- Holds the starts of commands of the named berths, 255 for all. -/
def State.holdStarts (s : State) (bs : List Nat) : State := s.modLk fun l => { l with held := l.held ++ bs }

/-- Ends such a hold. -/
def State.freeStarts (s : State) (bs : List Nat) : State :=
  s.modLk fun l => { l with held := bs.foldl (fun h b => removeFirst (· == b) h) l.held }

/-- Whether a started command of the named berths, 255 for all, is not complete; a waiting passage has not started. -/
def State.heldRun (s : State) (bs : List Nat) : Bool :=
  s.lk.cmds.any fun c => c.phase.started && c.phase != .roll && (bs.contains 255 || bs.contains c.berth)

/-- WINDOW_SET_ALL: its berth and the one that had the window before are held. -/
def execWindowSetAll (mb : Mbox) (s : State) : Out :=
  s.onReq mb 0x0110 fun r =>
    let w := r.num 0 1
    let b := r.num 1 1
    let at' : Word := BitVec.ofNat 64 (r.num 24 8)
    let old := (s.windowOf w).toList.filter (· != b)
    let mine : Bool := match mb with
      | .op => true
      | .berth k => s.windowOf w == some k &&
        (!Word.bit at' 63 || (!Word.bit at' 62 && s.ownsPages k (r.num 8 8) (r.num 16 8)))
    if w > 15 ∨ Word.fld at' 38 37 = 3 ∨ Word.fld at' 43 40 ≥ 14 then s.mbFail mb 0x6903
    else if !mine then s.mbFail mb 0x4901
    else if s.bgCount mb ≥ 8 then s.mbFail mb 0x5902
    else (s.holdStarts (b :: old)).bgBegin mb r (b :: old)

/-- The end of a WINDOW_SET_ALL: the window is committed on every die together. -/
def bgWindow (g : Bg) (s : State) : Out :=
  need (!s.heldRun g.aux) .notArmed <|
  let w := g.req.num 0 1
  let b := g.req.num 1 1
  let set : Word × Word × Word := (BitVec.ofNat 64 (g.req.num 8 8), BitVec.ofNat 64 (g.req.num 16 8),
    Word.setFld (BitVec.ofNat 64 (g.req.num 24 8)) 7 0 b)
  let s := s.diesIn.foldl (fun (s : State) d =>
    let a := winBase d w
    let s := ((s.setReg a set.1).setReg (a + 8) set.2.1).setReg (a + 0x10) set.2.2
    if s.tileBusy d then
      (s.modBasin fun x => { x with winPending := NMap.put x.winPending (d * 16 + w) set }).setRbit (a + 0x18) 48 true
    else s.winApply d w set) s
  .next (((s.assignWindow w b).freeStarts g.aux).bgEnd g.id 0 [])

/-- SPREAD_SET_ALL: no command starts on any die. -/
def execSpreadSetAll (mb : Mbox) (s : State) : Out :=
  s.onReq mb 0x0111 fun r =>
    let w (off : Nat) : Word := BitVec.ofNat 64 (r.num off 8)
    let ok := s.diesIn.all fun d => !Word.bit (w 8) 63 || s.sprOk d (r.num 0 1) (w 8) (w 16) (w 24) (w 32)
    if r.num 0 1 > 7 ∨ !ok then s.mbFail mb 0x6903
    else if s.bgCount mb ≥ 8 then s.mbFail mb 0x5902
    else (s.holdStarts [255]).bgBegin mb r [255]

/-- The end of a SPREAD_SET_ALL: the set is committed on every die together (R209). -/
def bgSpread (g : Bg) (s : State) : Out :=
  need (!s.heldRun [255]) .notArmed <|
  let k := g.req.num 0 1
  let s := s.diesIn.foldl (fun (s : State) d =>
    let b := dieBase d + 0x5000 + k * 0x80
    ((List.range 4).foldl (fun (s : State) i => s.setReg (b + 8 * i) (BitVec.ofNat 64 (g.req.num (8 + 8 * i) 8))) s).spreadCommitW
      d k) s
  .next ((s.freeStarts g.aux).bgEnd g.id 0 [])

/-- Commits a finishing bank of a die. -/
def State.finSelect (s : State) (d : Nat) (bank : Bool) : State := (s.setRbit (dieBase d + 0x200) 0 bank).finCommit d

/-- FIN_IMAGE_SET_ALL: the image goes into every die's inactive bank and is committed; multi-die commands are held meanwhile.
The working data keep each die's bank. -/
def execFinImageSetAll (mb : Mbox) (s : State) : Out :=
  s.onReq mb 0x0112 fun r =>
    if s.bgCount mb ≥ 8 then s.mbFail mb 0x5902
    else match s.paRead .operator (r.num 0 8) 0x8000 with
      | (rd, s) =>
        if rd.wait then s
        else if rd.st ≠ 0 then s.mbFail mb (namedSt rd.st)
        else
          let aux := s.diesIn.map fun d => d * 2 + s.finBank d
          let s := s.diesIn.foldl (fun (s : State) d =>
            let bank := s.finBank d = 0
            (s.finWrite d (if bank then 0x8000 else 0) rd.bytes).finSelect d bank) s
          (s.modLk fun l => { l with holdMulti := true }).bgBegin mb r (ofBytes (rd.bytes.take 2) :: aux)

/-- The end of a FIN_IMAGE_SET_ALL, once every COMMIT_PENDING has cleared. -/
def bgFin (g : Bg) (s : State) : Out :=
  need (s.diesIn.all fun d => !NMap.has s.eng.finPending d) .notArmed <|
  .next ((s.modLk fun l => { l with holdMulti := false }).bgEnd g.id 0 (bytesOf 2 (g.aux.headD 0)))

/-- What a set-all leaves that ends without its commit: its holds go; pending finishing captures are dropped, and dies that have
switched return to their bank. -/
def State.setAllDrop (s : State) (g : Bg) : State :=
  if g.req.opcode = 0x0112 then
    (g.aux.drop 1).foldl (fun (s : State) x =>
      let d := x / 2
      let s := (s.modEng fun e => { e with finPending := NMap.erase e.finPending d }).setRbit (dieBase d + 0x200) 48 false
      if s.finBank d = x % 2 then s else s.finSelect d (x % 2 == 1)) (s.modLk fun l => { l with holdMulti := false })
  else s.freeStarts g.aux

/-- Offset of TIMEOUT_MS in a set-all's request; none for another opcode. -/
def setAllTmo (code : BitVec 16) : Option Nat :=
  if code = 0x0110 ∨ code = 0x0111 then some 4 else if code = 0x0112 then some 8 else none

/-- SET_ALL_TIMEOUT: TIMEOUT_MS is over; nothing is committed. -/
def execSetAllTimeout (bg : Nat) (s : State) : Out :=
  needSome ((s.bg? bg).filter (!·.ended)) .notPending fun g =>
  needSome (setAllTmo g.req.opcode) .notPending fun off =>
  need (decide (g.since + g.req.num off 4 * 1000000 ≤ s.clk.now)) .notArmed <|
  .next ((s.setAllDrop g).bgEnd bg 0x5903 [])

/-- DEVICE_RESET: a full bring-up, after which the page is answered. A thermal trip keeps the rails off. -/
def execDeviceReset (mb : Mbox) (s : State) : Out :=
  s.onReq mb 0x0120 fun r =>
    if r.num 0 4 ≠ 1 then s.mbFail mb 0x6903
    else if s.pwr.thermTrip then s.mbFail mb 0x2901
    else (s.modMbx fun m => { m with resetting := true }).bringUpStart

end Sys2Proof.Machine
end

