-- ==== Sys2Proof/Machine/MbxBerth.lean ====
section
/-! DEFINITION. Mailbox operations on berths and contexts (Table 13.3, R242, R336, R340). -/

namespace Sys2Proof.Machine

/-! ## Ending commands by a reset (R144, R242) -/

/-- A command as it stands in a record of an entry that never started (R141). -/
def Cmd.unstarted (c : Cmd) : Cmd :=
  { c with status := 0x2002, failed := true, cflags := 0, preempts := 0, replays := 0, preemptedNs := 0, energyNJ := 0 }

/-- A context is being reset: its counters are zero, entries of the ring that have not been taken are taken as cancelled, those
taken are cancelled, its running commands are stopped as R122 gives, and its passages end. -/
def State.haltBegin (s : State) (n : Nat) : State := match s.ctx? n with
  | none => s
  | some x =>
    let s := s.watchDrop x
    let s := (s.modCtx n fun x => { x with
      state := 4, ctrs := Vector.replicate 16 0, tries := 0, watching := false, pinned := false, sqHead := x.sqTail }).publish n
    let ring : List Cmd := (List.range (x.sqTail - x.sqHead)).map fun i =>
      (Cmd.fresh n (x.sqHead + i) x.berth s.clk.now (Vector.replicate 16 0)).unstarted
    let late (c : Cmd) : Bool := c.ctx == n && c.phase == .taken
    let gone (p : Passage) : Bool := s.lk.cmds.any fun c => late c && c.seq == p.seq && p.ctx == n
    let s := s.modBth fun b => { b with roll := b.roll.filter fun p => !gone p }
    let s := s.modLk fun l => { l with
      cmds := (l.cmds.map fun c => if late c && !c.failed then c.unstarted else c) ++ ring }
    let s := s.bth.roll.foldl (fun (s : State) p =>
      if p.ctx = n ∧ p.joined ∧ !p.ended then s.modPsg p.idx fun p => { p with ended := true, status := 0x2002 } else s) s
    s.lk.cmds.foldl (fun (s : State) c =>
      if c.ctx = n ∧ c.phase.started ∧ c.phase ≠ .roll then s.failCmd n c.seq 0x2002 else s) s

/-- Whether a convoy step runs. -/
def State.stepRuns (s : State) : Bool := s.lk.cmds.any fun c => c.opcode == 0x11 && c.phase.started

/-- Writes the records of a resetting context that can be written: commands that were ready, passages that had not joined, and
ended ones once no step runs. -/
def State.haltGo (s : State) (n : Nat) : State :=
  let s := (s.lk.cmds.filter fun c => c.ctx == n).foldl (fun (s : State) c =>
    match s.bth.roll.find? fun p => p.ctx == n && p.seq == c.seq with
    | some p =>
      if !p.joined then (s.endPassage { p with status := 0x2002 } 0x2002).2
      else if p.ended ∧ !s.stepRuns then ((s.endPassage p p.status).2).leakCheck p.berth
      else s
    | none =>
      if c.phase = .ready ∨ c.phase = .scheduled then
        let s := s.modLk fun l => { l with resvDies := NMap.keep l.resvDies fun _ q => q != (c.ctx, c.seq) }
        (s.complete c.unstarted 0x2002 s.clk.now 0 0).2
      else s) s
  s.pump n

/-- Whether some started command of a context has not completed. -/
def State.haltLeft (s : State) (n : Nat) : Bool := s.lk.cmds.any fun c => c.ctx == n && c.phase != .taken

/-- A reset context is active again, and its control block is read. -/
def State.haltEnd (s : State) (n : Nat) : State :=
  ((s.modCtx n fun x => { x with state := 1, ctrs := Vector.replicate 16 0 }).publish n).ctxRead n false

/-- A context and its slot are free. -/
def State.ctxFree (s : State) (n : Nat) : State := match s.ctx? n with
  | none => s
  | some x =>
    let s := s.modBerth x.berth fun e => { e with slots := e.slots.setIfInBounds x.slot none }
    s.modLk fun l => { l with ctxs := NMap.erase l.ctxs n, cmds := l.cmds.filter fun c => c.ctx != n }

/-- The contexts of a berth. -/
def State.ctxsOf (s : State) (b : Nat) : List Nat := (s.lk.ctxs.filter fun e => e.2.berth == b).map (·.1)

/-! ## Creating a berth -/

/-- A berth's programmable counters of a die: no event, zero, held by a berth (R427). -/
def State.pmcGive (s : State) (d b : Nat) : State :=
  (List.range 4).foldl (fun (s : State) i =>
    (s.setReg (dieBase d + 0x840 + i * 0x10) 0).setReg (dieBase d + 0x848 + i * 0x10) (BitVec.ofNat 64 (b * 2 ^ 16))) s

/-- The hardware thread that a berth's handler takes on a die (log entry 34): the highest free one of the highest core that no
other berth's threads use. -/
def State.handlerPlace (s : State) (b d : Nat) : Option Nat :=
  let ok (g : Nat) : Bool :=
    (s.thr.threads.all fun e => coreOfThr e.1 != d * 32 + g || e.2.berth == b) &&
    (s.cmdsOn d).all fun q => q.berth == b || !(s.cmdCores q d).contains g
  (s.cores d).reverse.findSome? fun g => if ok g then (s.freeThreads d g).getLast?.map (tidOf d g) else none

/-- Reserves a berth's handler thread on a hardware thread: asleep at its entry point. -/
def State.handlerStart (s : State) (b tid : Nat) : State :=
  let entry := ((s.berth? b).bind (·.handlerEntry)).getD 0
  let t := { Thread.start s.thr.nextUid b 0xFFFF 0 0 1 false true false entry 0 with wait := .handlerIdle }
  (s.modThr fun x => { x with nextUid := x.nextUid + 1, threads := NMap.put x.threads tid t }).modBerth b fun e =>
    { e with handlerTid := some tid }

/-- Spill pages of a berth on its dies (R340): spread evenly, the lowest-numbered dies taking the extra ones. -/
def State.spillTake (s : State) (b n : Nat) (ds : List Nat) : Option (List Nat × State) :=
  let e : PotEnt := { PotEnt.own b false false with spill := true }
  (List.range ds.length).foldlM (fun (a : List Nat × State) k =>
    let m := n / ds.length + (if k < n % ds.length then 1 else 0)
    (State.takeDie (ds.getD k 0) 1 e m a.2).map fun r => (a.1 ++ r.1, r.2)) ([], s)

/-- Status of the dies that a new space berth names. -/
def State.newDies (s : State) (ds : List Nat) : Status :=
  if !ds.all s.present then 0x3002
  else if ds.any fun d => s.bth.berths.any fun e => e.1 != 0 && e.2.dies.contains d then 0x2901
  else 0

/-- Builds a berth: its spill pages, its maps, a key, its dies' counters, an empty mailbox page, and on its lowest die its handler
thread; or the status that it fails with. -/
def State.berthBuild (s : State) (b spill : Nat) (e : Berth) : Status × State :=
  match s.spillTake b spill e.dies with
  | none => (0x2404, s)
  | some (pages, s1) =>
    let s1 := s1.modBth fun x => { x with berths := NMap.put x.berths b { e with spill := pages } }
    match (s1.mapBuild b false).bind fun s => s.mapBuild b true with
    | none => (0x2404, s)
    | some s2 =>
      let s3 := e.dies.foldl (fun (s : State) d => s.pmcGive d b) s2
      let s3 := s3.modSec fun x => { x with keys := NMap.put x.keys b x.genNext, genNext := x.genNext + 1 }
      let s3 := s3.modMbx fun m => { m with pages := NMap.erase m.pages b }
      match e.dies.head? with
      | none => (0, s3)
      | some d => match s3.handlerPlace b d with
        | none => (0x2901, s)
        | some tid => (0, s3.handlerStart b tid)

/-- BERTH_CREATE. -/
def execBerthCreate (mb : Mbox) (s : State) : Out :=
  s.onReq mb 0x0200 fun r =>
    let b := r.num 0 1
    let convoy := r.num 1 1 = 1
    let ds := bitsOf 72 (r.num 8 16)
    let spill := r.num 28 4
    let fq := r.num 32 4
    let bad := r.num 1 1 > 1 ∨ r.num 3 1 > 7 ∨ r.num 26 1 > 1 ∨
      (if convoy then r.num 24 2 = 0 ∨ r.num 24 2 > 8192 ∨ ds ≠ [] ∨ spill ≠ 0 ∨ fq ≠ 0
        else ds = [] ∨ (fq ≠ 0 ∧ (fq < 64 ∨ fq > 4096)))
    if b > Word.fld s.fusePolicy 35 28 then s.mbFail mb 0x4B02
    else if (s.berth? b).isSome then s.mbFail mb 0x2903
    else if bad then s.mbFail mb 0x6903
    else if s.newDies ds ≠ 0 then s.mbFail mb (s.newDies ds)
    else if spill > r.num 4 4 then s.mbFail mb 0x2404
    else
      match s.berthBuild b spill { Berth.blank s.clk.now with
        kind := r.num 1 1, trusted := bitAt (r.num 2 1) 0, opEntry := bitAt (r.num 2 1) 1, prioMax := r.num 3 1
        quota := r.num 4 4, dies := ds, ownedAt := ds.map fun d => (d, s.clk.now), rowCap := r.num 24 2
        growPolicy := r.num 26 1, faultqEntries := fq } with
      | (st, s) => if st = 0 then s.mbOk mb (bytesOf 8 (0x7F000000000 + b * 0x10000)) else s.mbFail mb st

/-! ## Reset and destruction -/

/-- Ends the background operations of a berth's own mailbox with a status; set-alls among them leave their holds. -/
def State.bgsEnd (s : State) (b : Nat) (st : Status) : State :=
  (s.mbx.bgs.filter fun g => !g.ended && g.mb == .berth b).foldl (fun (s : State) g =>
    let s := if (setAllTmo g.req.opcode).isSome then s.setAllDrop g else s
    s.bgEnd g.id st []) s

/-- Whether a page's request in progress concerns a berth: the berth's own, or an operator's that has begun. -/
def State.pageOn (s : State) (b k : Nat) : Bool := match (s.mbPage k).req with
  | none => false
  | some q => k == b || (k == 0 && (s.mbPage k).stage &&
      (reqObjs .op q).any fun o => o == b || (s.ctxsOf b).any fun n => objCtx n == o)

/-- A reset or destruction begins, after the berth's running foreground request. -/
def State.berthHalt (s : State) (mb : Mbox) (r : MbReq) (next : BerthState) : State :=
  let b := r.num 0 1
  let okState : Bool := match s.berth? b with
    | some e => e.state == .active || e.state == .resetting || (next == .destroying && e.state == .destroying)
    | none => false
  if b = 0 then s.mbFail mb 0x6903
  else if !okState then s.mbFail mb 0x2901
  else if [0, b].any fun k => k != mbKey mb && s.pageOn b k then s
  else if s.bgCount mb ≥ 8 then s.mbFail mb 0x5902
  else
    let s := (s.bgsEnd b 0x2002).modBerth b fun e => { e with state := next }
    let s := (s.ctxsOf b).foldl State.haltBegin s
    s.bgBegin mb r []

/-- BERTH_RESET. -/
def execBerthReset (mb : Mbox) (s : State) : Out := s.onReq mb 0x0202 fun r => s.berthHalt mb r .resetting

/-- BERTH_DESTROY. -/
def execBerthDestroy (mb : Mbox) (s : State) : Out := s.onReq mb 0x0201 fun r => s.berthHalt mb r .destroying

/-- Zeroes the holds of a die's engines with a tag (R242, R271). -/
def State.holdsZero (s : State) (d tag : Nat) : State :=
  (s.engines d).foldl (fun (s : State) j => match s.slotKey d j with
    | some k => s.holdZero k tag
    | none => s) s

/-- What a reset does once nothing of the berth runs: the pool whole, the holds zero with the berth's tag. -/
def State.berthClear (s : State) (b : Nat) : State := match s.berth? b with
  | none => s
  | some e =>
    let s := s.modBerth b fun e => { e with moorLeak := [], pool := e.pool.map fun p => { p with free := p.all } }
    e.dies.foldl (fun (s : State) d => s.holdsZero d b) s

/-- Commands of a berth's contexts go on ending; the Bool says that all have. -/
def State.berthQuiet (s : State) (b : Nat) : Bool × State :=
  let s := (s.ctxsOf b).foldl State.haltGo s
  ((s.ctxsOf b).all (fun n => !s.haltLeft n), s)

/-- The end of a BERTH_RESET. -/
def bgBerthReset (g : Bg) (s : State) : Out :=
  let b := g.req.num 0 1
  match s.berthQuiet b with
  | (false, s) => .next s
  | (true, s) =>
    let s := (s.berthClear b).modBerth b fun e => { e with state := .active }
    .next (((s.ctxsOf b).foldl State.haltEnd s).bgEnd g.id 0 [])

/-- A berth's number is free: its contexts, handler thread, key, map, span, groups, windows and mailbox page go. -/
def State.berthRemove (s : State) (b : Nat) : State := match s.berth? b with
  | none => s
  | some e =>
    let s := (s.ctxsOf b).foldl State.ctxFree s
    let s := e.dies.foldl (fun (s : State) d => s.pmcGive d 0) s
    let s := s.modThr fun x => { x with threads := NMap.keep x.threads fun _ t => !(t.handler && t.berth == b) }
    let s := s.modSec fun x => { x with keys := NMap.erase x.keys b }
    let s := s.modMbx fun m => { m with pages := NMap.erase m.pages b }
    let s := s.modErh fun x => { x with spans := NMap.erase x.spans b, groups := NMap.keep x.groups fun _ g => g.berth != b }
    let s := s.modBth fun x => { x with
      berths := NMap.erase x.berths b
      tables := NMap.erase (NMap.erase x.tables (2 * b)) (2 * b + 1)
      mapStale := x.mapStale.filter (· != b)
      seals := x.seals.filter fun q => q.1 != b
      nonces := NMap.erase x.nonces b }
    (((s.setReg (bmapBase b) 0).setReg (bmapBase b + 8) 0).tlbDrop b false).tlbDrop b true

/-- The end of a BERTH_DESTROY: a reset, then every page of the berth is zeroed. -/
def bgBerthDestroy (g : Bg) (s : State) : Out :=
  let b := g.req.num 0 1
  match s.berthQuiet b with
  | (false, s) => .next s
  | (true, s) =>
    match (s.berthClear b).releasePages (s.pagesOf b) with
    | (false, s) => .next s
    | (true, s) => .next ((s.berthRemove b).bgEnd g.id 0 [])

/-! ## Queries and limits -/

/-- BERTH_QUERY. -/
def execBerthQuery (mb : Mbox) (s : State) : Out :=
  s.onReq mb 0x0203 fun r =>
    let b := r.num 0 1
    match s.berth? b with
    | none => s.mbOk mb (rspOf [(0, 40, 0)])
    | some e => s.mbOk mb (rspOf
        [(0, 1, e.state.code), (1, 1, e.kind), (2, 1, e.prioMax), (4, 4, (s.pagesOf b).length), (8, 4, e.quota), (12, 4, s.poolFree b),
         (16, 16, maskOf e.dies), (32, 4, ((NMap.get? s.erh.spans b).map (·.id)).getD 0),
         (36, 4, match e.pasid with | some p => 2 ^ 31 + p | none => 0)])

/-- BERTH_LIMITS. -/
def execBerthLimits (mb : Mbox) (s : State) : Out :=
  s.onReq mb 0x0204 fun r =>
    let b := r.num 0 1
    match if b = 0 then none else s.berth? b with
    | none => s.mbFail mb 0x2901
    | some e =>
      if r.num 1 1 > 7 ∨ r.num 4 1 > 1 ∨ (e.kind = 1 ∧ (r.num 2 2 = 0 ∨ r.num 2 2 > 8192)) then s.mbFail mb 0x6903
      else (s.modBerth b fun e => { e with
        prioMax := r.num 1 1, rowCap := r.num 2 2, growPolicy := r.num 4 1, quota := r.num 8 4 }).mbOk mb []

/-- The 128 bytes of an account record (Table 10.6). -/
def Account.bytes (a : Account) (b kind now dieNs : Nat) : List Byte := rspOf
  [(0, 1, b), (1, 1, kind), (8, 8, a.tCreated), (16, 8, now), (24, 8, a.completed), (32, 8, a.failed), (40, 8, a.qwaitNs),
   (48, 8, a.preempts), (56, 8, a.preemptedNs), (64, 8, a.spillWaitNs), (72, 8, a.energyUJ), (80, 8, a.convoyRows),
   (88, 8, a.cargoDelayNs), (96, 4, a.cargoDelayEvents), (100, 4, a.moorEmpty), (104, 8, dieNs), (112, 4, a.snapshotLost),
   (116, 12, 0)]

/-- ACCOUNT_READ: the operator's own energy takes the remainders of the others' (R267, R386). -/
def execAccountRead (mb : Mbox) (s : State) : Out :=
  s.onReq mb 0x0208 fun r =>
    let b := r.num 0 1
    if b = 0 then
      let a := { s.bth.opAccount with energyUJ := s.bth.opAccount.energyUJ + s.bth.opEnergyNJ / 1000 }
      s.mbOk mb (a.bytes 0 0 s.clk.now 0)
    else match s.berth? b with
      | none => s.mbFail mb 0x2901
      | some e => s.mbOk mb (e.account.bytes b e.kind s.clk.now
          (e.account.dieNs + sumNat (e.ownedAt.map fun q => s.clk.now - q.2)))

/-! ## Lists and fault queues -/

/-- The entries of a save or load list (R341): device address, host address, bytes. -/
def moveEntries (bs : List Byte) : List (Nat × Nat × Nat) :=
  (List.range (bs.length / 24)).map fun i => (rdLE bs (24 * i) 8, rdLE bs (24 * i + 8) 8, rdLE bs (24 * i + 16) 8)

/-- MOVE_LIST_SET: the list is read now. -/
def execMoveListSet (mb : Mbox) (s : State) : Out :=
  s.onReq mb 0x0206 fun r =>
    let b := mbBerth mb
    if r.num 0 1 > 1 then s.mbFail mb 0x6903
    else match s.vaRead b (r.num 8 8) (24 * r.num 16 4) with
      | (rd, s) =>
        let es := moveEntries rd.bytes
        if rd.wait then s
        else if rd.st ≠ 0 then s.mbFail mb (namedSt rd.st)
        else if es.any fun e => e.2.2 % 0x10000 != 0 || e.1 % 0x10000 != 0 then s.mbFail mb 0x6903
        else (s.modBerth b fun x => if r.num 0 1 = 0 then { x with saveList := es } else { x with loadList := es }).mbOk mb []

/-- FAULT_SETUP. -/
def execFaultSetup (mb : Mbox) (s : State) : Out :=
  s.onReq mb 0x0207 fun r =>
    let b := mbBerth mb
    match s.berth? b with
    | none => s.mbFail mb 0x2901
    | some e =>
      let n := if r.num 16 4 = 0 then e.faultqEntries else r.num 16 4
      if e.kind = 1 then s.mbFail mb 0x4901
      else if n < 64 ∨ n > 4096 then s.mbFail mb 0x6903
      else
        let entry : Word := BitVec.ofNat 64 (r.num 0 8)
        let s := s.modBerth b fun e => { e with handlerEntry := some entry, faultqVa := r.num 8 8, faultqSize := n }
        let s := match e.handlerTid with
          | some h => s.modThread h fun t => if t.wait = Wait.handlerIdle then { t with pc := entry } else t
          | none => s
        s.mbOk mb []

/-! ## Contexts -/

/-- An active context with empty rings and counters of zero. -/
def Context.blank : Context :=
  { berth := 0, home := 72, sqLog2 := 6, cqLog2 := 6, rcbVa := 0, defaultDur := 0, slot := 0, state := 1, sqHead := 0, sqTail := 0
    cqHead := 0, cqTail := 0, cqNext := 0, written := [], ctrs := Vector.replicate 16 0, tries := 0, watching := false
    pinned := false, port := none }

/-- A context is made: its berth's slot names it, line 1 is written and the control block read. -/
def State.ctxMake (s : State) (n : Nat) (x : Context) : State :=
  let s := s.modLk fun l => { l with ctxs := NMap.put l.ctxs n x }
  let s := s.modBerth x.berth fun e => { e with slots := e.slots.setIfInBounds x.slot (some n) }
  (s.publish n).ctxRead n false

/-- CTX_CREATE: the control block is read and line 1 written. -/
def execCtxCreate (mb : Mbox) (s : State) : Out :=
  s.onReq mb 0x0210 fun r =>
    let b := r.num 0 1
    let home := r.num 2 1
    let sq := r.num 3 1
    let cq := r.num 4 1
    let va := r.num 8 8
    match s.berth? b with
    | none => s.mbFail mb 0x2901
    | some e =>
      if e.state ≠ .active then s.mbFail mb 0x2901
      else if (home ≥ 72 ∧ home ≠ 0xFF) ∨ (e.kind = 1 ∧ home ≠ 0xFF) ∨ sq < 6 ∨ sq > 16 ∨ cq < 6 ∨ cq > 16 ∨ va % 4096 ≠ 0 then
        s.mbFail mb 0x6903
      else if home < 72 ∧ b ≠ 0 ∧ !e.dies.contains home then s.mbFail mb 0x4001
      else if home < 72 ∧ !s.present home then s.mbFail mb 0x3002
      else match firstBelow 1024 fun n => (s.ctx? n).isNone, firstBelow 64 fun k => (e.slots.toList.getD k none).isNone with
        | some n, some k =>
          let (rd, s) := s.vaRead b va 16
          if rd.wait then s
          else if rd.st ≠ 0 then s.mbFail mb (namedSt rd.st)
          else (s.ctxMake n { Context.blank with
            berth := b, home := if home < 72 then home else 72, sqLog2 := sq, cqLog2 := cq, rcbVa := va, defaultDur := r.num 16 4
            slot := k }).mbOk mb (bytesOf 2 n ++ bytesOf 1 k)
        | _, _ => s.mbFail mb 0x2903

/-- Resets a context, and then frees it or makes it active; the request waits until its commands have ended. -/
def State.ctxHalt (s : State) (mb : Mbox) (r : MbReq) (free : Bool) : State :=
  let n := r.num 0 2
  let mine : Bool := match s.ctx? n, mb with
    | some x, .berth b => x.berth == b
    | some _, .op => true
    | none, _ => false
  if !mine then s.mbFail mb 0x4002
  else
    let s := if (s.mbPage (mbKey mb)).stage then s
      else (s.haltBegin n).modPage (mbKey mb) fun p => { p with stage := true }
    let s := s.haltGo n
    if s.haltLeft n then s
    else (if free then s.ctxFree n else s.haltEnd n).mbOk mb []

/-- CTX_RESET. -/
def execCtxReset (mb : Mbox) (s : State) : Out := s.onReq mb 0x0211 fun r => s.ctxHalt mb r false

/-- CTX_DESTROY. -/
def execCtxDestroy (mb : Mbox) (s : State) : Out := s.onReq mb 0x0212 fun r => s.ctxHalt mb r true

end Sys2Proof.Machine
end

