-- ==== Sys2Proof/Machine/MbxPages.lean ====
section
/-! DEFINITION. Mailbox operations on a berth's pages, moorings and regions (Tables 13.3 and 13.9, R268, R292, R319, R337, R340). -/

namespace Sys2Proof.Machine

/-- A change of a berth's map (R337). Once both banks agree, `change` gives the state whose map is committed, or the status of a
request that fails; the answer `fin` follows when the old bank is up to date. Until then the request waits. -/
def State.mapTurn (s : State) (mb : Mbox) (b : Nat) (change : State → Status × State) (fin : State → State) : State :=
  let go (s : State) : State :=
    let s := s.mapSync b
    if s.mapReady b then fin s else s
  if (s.mbPage (mbKey mb)).stage then go s
  else if !s.mapReady b then s.mapSync b
  else match change s with
    | (st, s') =>
      if st ≠ 0 then s.mbFail mb st
      else match s'.mapCommit b with
        | none => s.mbFail mb 0x2404
        | some s => go (s.modPage (mbKey mb) fun p => { p with stage := true })

/-! ## Pages -/

/-- Pages of a LEAF code. -/
def leafUnit (leaf : Nat) : Nat := if leaf = 0 then 1 else if leaf = 1 then 32 else 16384

/-- Takes the pages of a PAGES_ALLOC, from one die or round the dies, and enters them in the berth's map; 0x2404 where there are
too few. -/
def State.pagesTake (r : MbReq) (e : Berth) (s : State) : Status × State :=
  let die := r.num 1 1
  let u := leafUnit (r.num 2 1)
  let fl := r.num 3 1
  let n := r.num 4 4
  let ent := PotEnt.own (r.num 0 1) (bitAt fl 2) (bitAt fl 3)
  let got : Option (List Nat × Nat × State) :=
    if die = 0xFF then State.takeRound s.diesIn u ent (n / u) e.rotation s
    else (State.takeDie die u ent (n / u) s).map fun q => (q.1, e.rotation, q.2)
  match got with
  | none => (0x2404, s)
  | some (ps, rot, s) => (0, s.modBerth (r.num 0 1) fun e => { e with
      rotation := rot
      mapPages := (List.range ps.length).foldl (fun m i =>
        NMap.put m (r.num 8 8 / 0x10000 + i * u) (ps.getD i 0 * 0x10000, 3 - r.num 2 1, bitAt fl 0, bitAt fl 1)) e.mapPages })

/-- PAGES_ALLOC. -/
def execPagesAlloc (mb : Mbox) (s : State) : Out :=
  s.onReq mb 0x0220 fun r =>
    let b := r.num 0 1
    let die := r.num 1 1
    let u := leafUnit (r.num 2 1)
    let n := r.num 4 4
    let va := r.num 8 8
    let vp := va / 0x10000
    let fin (s : State) : State := s.mbOk mb (bytesOf 4 n)
    if (s.mbPage (mbKey mb)).stage then s.mapTurn mb b (fun s => (0, s)) fin
    else match s.berth? b with
    | none => s.mbFail mb 0x2901
    | some e =>
      if e.state ≠ .active then s.mbFail mb 0x2901
      else if r.num 2 1 > 2 ∨ n = 0 ∨ n % u ≠ 0 ∨ va % (u * 0x10000) ≠ 0 ∨ va + n * 0x10000 > 2 ^ 47 ∨ (die ≥ 72 ∧ die ≠ 0xFF) then
        s.mbFail mb 0x6903
      else if die ≠ 0xFF ∧ !s.present die then s.mbFail mb 0x3002
      else if (s.leaves b).any (leafMeets vp (vp + n)) then s.mbFail mb 0x2903
      else if (s.pagesOf b).length + n > e.quota then s.mbFail mb 0x2404
      else s.mapTurn mb b (State.pagesTake r e) fin

/-- The pages of a virtual range that a berth maps and owns, cargo apart: (virtual page, page). -/
def State.ownRange (s : State) (b vp n : Nat) : List (Nat × Nat) := match s.berth? b with
  | none => []
  | some e => (List.range n).filterMap fun i => (pageAt e.mapPages (vp + i)).bind fun a =>
      let p := s.pot (a / 0x10000)
      if p.owner = b ∧ (p.state = .owned ∨ p.state = .quarantined) then some (vp + i, a / 0x10000) else none

/-- A request on a virtual range of a berth's pages: its berth, first virtual page and the pages; the convoy program's image is
kept (R255). -/
def State.onRange (s : State) (mb : Mbox) (r : MbReq) (k : Nat → Nat → Nat → List (Nat × Nat) → State) : State :=
  let b := r.num 0 1
  let n := r.num 4 4
  let va := r.num 8 8
  let ps := s.ownRange b (va / 0x10000) n
  if (s.berth? b).isNone ∨ !s.berthActive b then s.mbFail mb 0x2901
  else if va % 0x10000 ≠ 0 ∨ n = 0 ∨ va + n * 0x10000 > 2 ^ 47 then s.mbFail mb 0x6903
  else if ps.any fun p => (s.pot p.2).code then s.mbFail mb 0x2901
  else k b (va / 0x10000) n ps

/-- Takes the pages of a range out of a berth's map; a mailbox notes them. -/
def State.pagesCut (k b vp n : Nat) (ps : List (Nat × Nat)) (s : State) : Status × State :=
  let s := s.modBerth b fun e => { e with
    mapPages := NMap.keep (leafCut e.mapPages vp (vp + n)) fun q x =>
      !(leafMeets vp (vp + n) (q, x) && ps.any fun p => p.1 == q || (decide (q ≤ p.1) && decide (p.1 < q + leafPages x.2.1))) }
  (0, s.modPage k fun p => { p with work := ps.map (·.2) })

/-- The pages that a mailbox has noted are zeroed, and its request is answered. -/
def State.pagesGone (mb : Mbox) (s : State) : State := match s.releasePages (s.mbPage (mbKey mb)).work with
  | (true, s) => s.mbOk mb []
  | (false, s) => s

/-- PAGES_FREE: unmapped first, then zeroed (R248); pages of the range that the berth does not map or own are passed over. -/
def execPagesFree (mb : Mbox) (s : State) : Out :=
  s.onReq mb 0x0221 fun r =>
    if (s.mbPage (mbKey mb)).stage then s.mapTurn mb (r.num 0 1) (fun s => (0, s)) (State.pagesGone mb)
    else s.onRange mb r fun b vp n ps => s.mapTurn mb b (State.pagesCut (mbKey mb) b vp n ps) (State.pagesGone mb)

/-- Gives the pages of a range the rights and the POT bits of FLAGS. -/
def State.pagesMark (fl b vp n : Nat) (ps : List (Nat × Nat)) (s : State) : Status × State :=
  let s := ps.foldl (fun (s : State) p => s.setPot p.2 { s.pot p.2 with ro := bitAt fl 2, guard := bitAt fl 3 }) s
  (0, s.modBerth b fun e => { e with
    mapPages := NMap.mapV (leafCut e.mapPages vp (vp + n)) fun q x =>
      if ps.any fun p => decide (q ≤ p.1) && decide (p.1 < q + leafPages x.2.1) then (x.1, x.2.1, bitAt fl 0, bitAt fl 1)
      else x })

/-- PAGES_ATTR: the pages' POT entries change at once (R215, R245), the map's rights through R337. -/
def execPagesAttr (mb : Mbox) (s : State) : Out :=
  s.onReq mb 0x0222 fun r =>
    let fin (s : State) : State := s.mbOk mb []
    if (s.mbPage (mbKey mb)).stage then s.mapTurn mb (r.num 0 1) (fun s => (0, s)) fin
    else s.onRange mb r fun b vp n ps => s.mapTurn mb b (State.pagesMark (r.num 3 1) b vp n ps) fin

/-! ## Moorings pools -/

/-- Takes moorings for a pool, spread round-robin over its dies. -/
def State.moorTake (s : State) (b : Nat) (p : Pool) (n quota : Nat) : Option State :=
  let ent : PotEnt := { PotEnt.own b false false with mooring := true }
  if (s.pagesOf b).length + n > quota then none
  else (State.takeRound p.dies 1 ent n p.rot s).map fun q =>
    let new := q.1.map (· * 0x10000)
    q.2.2.modBerth b fun e => { e with pool := some { p with all := p.all ++ new, free := p.free ++ new, rot := q.2.1 } }

/-- MOOR_POOL_CREATE. -/
def execMoorPoolCreate (mb : Mbox) (s : State) : Out :=
  s.onReq mb 0x0230 fun r =>
    let b := r.num 0 1
    let n := r.num 4 4
    let ds := bitsOf 72 (r.num 8 16)
    match s.berth? b with
    | none => s.mbFail mb 0x2901
    | some e =>
      if b = 0 ∨ e.state ≠ .active ∨ e.pool.isSome then s.mbFail mb 0x2901
      else if n = 0 ∨ n > 2 ^ 20 ∨ ds = [] then s.mbFail mb 0x6903
      else if !ds.all s.present then s.mbFail mb 0x3002
      else
        let home := if e.kind = 1 then 72 else e.dies.headD 72
        match s.moorTake b { all := [], free := [], home := home, dies := ds, rot := 0 } n e.quota with
        | none => s.mbFail mb 0x2404
        | some s => s.mbOk mb []

/-- MOOR_POOL_GROW: the spread goes on from the last mooring. -/
def execMoorPoolGrow (mb : Mbox) (s : State) : Out :=
  s.onReq mb 0x0231 fun r =>
    let b := r.num 0 1
    match (s.berth? b).bind fun e => e.pool.map fun p => (e, p) with
    | none => s.mbFail mb 0x2901
    | some (e, p) =>
      if e.state ≠ .active then s.mbFail mb 0x2901
      else if r.num 4 4 = 0 ∨ p.all.length + r.num 4 4 > 2 ^ 20 then s.mbFail mb 0x6903
      else match s.moorTake b p (r.num 4 4) e.quota with
        | none => s.mbFail mb 0x2404
        | some s => s.mbOk mb []

/-- Whether a berth has an active passage or a running command. -/
def State.berthWorks (s : State) (b : Nat) : Bool :=
  (s.bth.roll.any fun p => p.berth == b) || s.lk.cmds.any fun c => c.berth == b && c.phase.started

/-- MOOR_POOL_REBUILD: leaked moorings are free again. -/
def execMoorPoolRebuild (mb : Mbox) (s : State) : Out :=
  s.onReq mb 0x0232 fun r =>
    let b := r.num 0 1
    match (s.berth? b).bind fun e => e.pool.map fun p => (e, p) with
    | none => s.mbFail mb 0x2901
    | some (e, p) =>
      if e.state ≠ .active ∨ s.berthWorks b then s.mbFail mb 0x2901
      else
        let s := s.modBerth b fun e => { e with pool := some { p with free := p.free ++ e.moorLeak }, moorLeak := [] }
        s.mbOk mb (bytesOf 4 e.moorLeak.length)

/-! ## Regions -/

/-- Sets or clears a region of a berth: the inactive bank takes it and is committed (R292, R319). -/
def State.regionTurn (s : State) (mb : Mbox) (b slot : Nat) (g : Region) : State :=
  let fin (s : State) : State := s.mbOk mb []
  s.mapTurn mb b (fun s =>
    let k := regionKey (!s.activeBank b) g.host slot
    (0, s.modBerth b fun e => { e with regions := if g.limit = 0 then NMap.erase e.regions k else NMap.put e.regions k g })) fin

/-- Whether a region's slot and range are out of range. -/
def regionBad (slot base limit : Nat) : Bool :=
  decide (slot > 15) || (limit != 0 && (base % 0x10000 != 0 || limit % 0x10000 != 0 || decide (limit ≤ base) || decide (limit > 2 ^ 47)))

/-- PEER_REGION_SET. -/
def execPeerRegionSet (mb : Mbox) (s : State) : Out :=
  s.onReq mb 0x0807 fun r =>
    let b := r.num 0 1
    let g : Region := { host := false, base := r.num 8 8, limit := r.num 16 8, write := r.num 2 1 == 1, dest := r.num 4 4
                        target := r.num 24 8, tee := false }
    if (s.mbPage (mbKey mb)).stage then s.regionTurn mb b (r.num 1 1) g
    else if (s.berth? b).isNone ∨ !s.berthActive b then s.mbFail mb 0x2901
    else if regionBad (r.num 1 1) g.base g.limit ∨ r.num 2 1 > 1 ∨ g.dest ≥ 2 ^ 18 ∨ g.target + (g.limit - g.base) > 2 ^ 43 then
      s.mbFail mb 0x6903
    else s.regionTurn mb b (r.num 1 1) g

/-- HOST_REGION_SET. -/
def execHostRegionSet (mb : Mbox) (s : State) : Out :=
  s.onReq mb 0x0808 fun r =>
    let b := r.num 0 1
    let fl := r.num 2 1
    let g : Region := { host := true, base := r.num 8 8, limit := r.num 16 8, write := bitAt fl 0, dest := r.num 3 1
                        target := r.num 24 8, tee := bitAt fl 1 }
    if (s.mbPage (mbKey mb)).stage then s.regionTurn mb b (r.num 1 1) g
    else match s.berth? b with
      | none => s.mbFail mb 0x2901
      | some e =>
        if e.state ≠ .active then s.mbFail mb 0x2901
        else if e.trusted ∧ e.locked then s.mbFail mb 0x4C01
        else if regionBad (r.num 1 1) g.base g.limit ∨ g.dest > 1 then s.mbFail mb 0x6903
        else if b ≠ 0 ∧ g.limit ≠ 0 ∧ e.pasid.isNone then s.mbFail mb 0x2901
        else s.regionTurn mb b (r.num 1 1) g

/-- PASID_SET: berth 0 uses none (R319). -/
def execPasidSet (mb : Mbox) (s : State) : Out :=
  s.onReq mb 0x0809 fun r =>
    let b := r.num 0 1
    match if b = 0 then none else s.berth? b with
    | none => s.mbFail mb 0x2901
    | some _ =>
      let p := r.num 4 4
      (s.modBerth b fun e => { e with pasid := if bitAt p 31 then some (p % 2 ^ 20) else none }).mbOk mb []

end Sys2Proof.Machine
end

