-- ==== Sys2Proof/Machine/MbxCargo.lean ====
section
/-! DEFINITION. Mailbox operations on the cargo and the convoy program (Table 13.4, R253 to R255, R342). -/

namespace Sys2Proof.Machine

/-- Whether a range of virtual pages is free in a berth's map. -/
def State.vaFree (s : State) (b vp n : Nat) : Bool := !(s.leaves b).any (leafMeets vp (vp + n))

/-- Marks a background operation as past the commit of its map. -/
def State.bgStage (s : State) (id : Nat) : State := s.modBg id fun g => { g with aux := [1] }

/-- Goes on with an operation whose map is committed: it ends once the old bank is up to date. -/
def State.bgMapped (s : State) (g : Bg) (b : Nat) (rsp : List Byte) : State :=
  let s := s.mapSync b
  if s.mapReady b then s.bgEnd g.id 0 rsp else s

/-! ## Loading and sealing -/

/-- CARGO_OPEN. -/
def execCargoOpen (mb : Mbox) (s : State) : Out :=
  s.onReq mb 0x0300 fun r =>
    let n := r.num 0 4
    let va := r.num 8 8
    let ds := bitsOf 72 (r.num 16 16)
    if s.bth.cargoState ≠ .none then s.mbFail mb 0x2901
    else if n = 0 ∨ ds = [] ∨ va % 2 ^ 30 ≠ 0 ∨ va + n * 0x10000 > 2 ^ 47 then s.mbFail mb 0x6903
    else if !ds.all s.present then s.mbFail mb 0x3002
    else if !s.vaFree 0 (va / 0x10000) n then s.mbFail mb 0x2903
    else s.bgBegin mb r []

/-- The end of a CARGO_OPEN: the pages are LOADING, their addresses are listed, and the operator's map has them. -/
def bgCargoOpen (g : Bg) (s : State) : Out :=
  let n := g.req.num 0 4
  let rsp := bytesOf 4 n
  .next (
    if g.aux = [1] then s.bgMapped g 0 rsp
    else if !s.mapReady 0 then s.mapSync 0
    else
      let ent : PotEnt := { PotEnt.own 255 false false with state := .loading }
      match State.takeRound (bitsOf 72 (g.req.num 16 16)) 1 ent n 0 s with
      | none => s.bgEnd g.id 0x2404 []
      | some (ps, _, s1) =>
        match s1.paWrite .operator (g.req.num 32 8) (ps.map fun p => bytesOf 8 (p * 0x10000)).flatten with
        | (st, w, s2) =>
          let undo (s : State) : State := ps.foldl (fun (s : State) p =>
            s.setPot p { PotEnt.own 0 false false with state := .zeroed }) s
          if w then undo s2
          else if st ≠ 0 then (undo s2).bgEnd g.id (namedSt st) []
          else
            let s3 := s2.modBth fun b => { b with
              cargoState := .loading, cargoPages := ps.map (· * 0x10000), cargoVa := g.req.num 8 8, sources := [], pageHashes := [] }
            let s3 := s3.modSec fun x => { x with keys := NMap.put x.keys 255 x.genNext, genNext := x.genNext + 1 }
            match ((s3.modBerth 0 fun e => { e with cargoMapped := true }).measured).mapCommit 0 with
            | none => (undo s2).bgEnd g.id 0x2404 []
            | some s => (s.bgStage g.id).bgMapped g 0 rsp)

/-- CARGO_SOURCE. -/
def execCargoSource (mb : Mbox) (s : State) : Out :=
  s.onReq mb 0x0301 fun r =>
    let first := r.num 0 4
    let n := r.num 4 4
    if s.bth.cargoState = .none then s.mbFail mb 0x2901
    else if n = 0 ∨ first + n > s.bth.cargoPages.length ∨ r.num 8 1 > 1 ∨ r.num 9 1 > 1 then s.mbFail mb 0x6903
    else (s.modBth fun b => { b with
      sources := (List.range n).foldl (fun m i => NMap.put m (first + i)
        { peer := r.num 8 1 == 1, port := r.num 9 1, dev := r.num 12 4, addr := r.num 16 8 + i * 0x10000 }) b.sources }).mbOk mb []

/-- CARGO_SEAL. -/
def execCargoSeal (mb : Mbox) (s : State) : Out :=
  s.onReq mb 0x0302 fun r =>
    if s.bth.cargoState ≠ .loading then s.mbFail mb 0x2901
    else if !(List.range s.bth.cargoPages.length).all fun i => NMap.has s.bth.sources i then s.mbFail mb 0x2403
    else s.bgBegin mb r []

/-- SHA-384 over the plaintext of each of a list of pages, by page address: a failed status, whether to wait, the hashes. -/
def State.hashPages : List Nat → State → Status × Bool × List (BitVec 384) × State
  | [], s => (0, false, [], s)
  | a :: t, s => match s.paRead .firmware a 0x10000 with
    | (rd, s) =>
      if rd.wait ∨ rd.st ≠ 0 then (rd.st, rd.wait, [], s)
      else match State.hashPages t s with
        | (st, w, hs, s) => (st, w, Config.sha384 rd.bytes :: hs, s)

/-- The cargo hash: over each page's index and hash, in order (R253). -/
def cargoHashOf (hs : List (BitVec 384)) : BitVec 384 :=
  Config.sha384 ((List.range hs.length).map fun i => bytesOf 8 i ++ bytesOf 48 (hs.getD i 0).toNat).flatten

/-- The end of a CARGO_SEAL: the pages are OWNED, in mend mode and read-only, the operator's map too. -/
def bgCargoSeal (g : Bg) (s : State) : Out :=
  let rsp (s : State) : List Byte := bytesOf 48 s.bth.cargoHash.toNat
  let mapped := (s.berth? 0).any (·.cargoMapped)
  .next (
    if g.aux = [1] then s.bgMapped g 0 (rsp s)
    else if mapped ∧ !s.mapReady 0 then s.mapSync 0
    else match State.hashPages s.bth.cargoPages s with
      | (st, w, hs, s) =>
        if w then s
        else if st ≠ 0 then s.bgEnd g.id st []
        else
          let s := s.bth.cargoPages.foldl (fun (s : State) a => s.setPot (a / 0x10000) (PotEnt.own 255 true false)) s
          let s := (s.modBth fun b => { b with
            cargoState := .sealed, cargoHash := cargoHashOf hs
            pageHashes := (List.range hs.length).map fun i => (i, hs.getD i 0) }).measured
          if !mapped then s.bgEnd g.id 0 (rsp s)
          else match s.mapCommit 0 with
            | none => s.bgEnd g.id 0 (rsp s)
            | some s => (s.bgStage g.id).bgMapped g 0 (rsp s))

/-! ## Mapping -/

/-- CARGO_MAP: read-only, by bank swap. -/
def execCargoMap (mb : Mbox) (s : State) : Out :=
  s.onReq mb 0x0303 fun r =>
    let b := r.num 0 1
    let turn (s : State) : State := s.mapTurn mb b (fun s => (0, s.modBerth b fun e => { e with cargoMapped := true })) fun s => s.mbOk mb []
    if (s.mbPage (mbKey mb)).stage then turn s
    else match s.berth? b with
      | none => s.mbFail mb 0x2901
      | some e =>
        if s.bth.cargoState ≠ .sealed ∨ e.state ≠ .active ∨ e.cargoMapped then s.mbFail mb 0x2901
        else if !s.vaFree b (s.bth.cargoVa / 0x10000) s.bth.cargoPages.length then s.mbFail mb 0x2903
        else turn s

/-- CARGO_UNMAP. -/
def execCargoUnmap (mb : Mbox) (s : State) : Out :=
  s.onReq mb 0x0304 fun r =>
    let b := r.num 0 1
    let turn (s : State) : State := s.mapTurn mb b (fun s => (0, s.modBerth b fun e => { e with cargoMapped := false })) fun s => s.mbOk mb []
    if (s.mbPage (mbKey mb)).stage then turn s
    else if (s.berth? b).any fun e => e.state == .active && e.cargoMapped then turn s
    else s.mbFail mb 0x2901

/-! ## Unloading and the convoy program -/

/-- Whether the cargo is in use (R255): a passage is active, a CONVOY_STEP is pending or running, or some map has the cargo, a
bank on its way out included. -/
def State.cargoUsed (s : State) : Bool :=
  !s.bth.roll.isEmpty || (s.lk.cmds.any fun c => c.opcode == 0x11) || (s.bth.berths.any fun e => e.2.cargoMapped) ||
  s.mbx.pages.any fun p => p.2.stage && p.2.req.any fun q => q.opcode == 0x0304

/-- CARGO_UNLOAD. -/
def execCargoUnload (mb : Mbox) (s : State) : Out :=
  s.onReq mb 0x0305 fun r =>
    if s.bth.cargoState = .none ∨ s.cargoUsed then s.mbFail mb 0x2901 else s.bgBegin mb r []

/-- The end of a CARGO_UNLOAD: every page is ZEROED and the cargo key erased. -/
def bgCargoUnload (g : Bg) (s : State) : Out :=
  .next (match s.releasePages (s.bth.cargoPages.map (· / 0x10000)) with
    | (false, s) => s
    | (true, s) =>
      let s := s.modBth fun b => { b with
        cargoState := .none, cargoPages := [], cargoVa := 0, cargoHash := 0, pageHashes := [], sources := [], relading := [] }
      ((s.modSec fun x => { x with keys := NMap.erase x.keys 255 }).measured).bgEnd g.id 0 [])

/-- CARGO_QUERY. -/
def execCargoQuery (mb : Mbox) (s : State) : Out :=
  s.onReq mb 0x0306 fun _ =>
    let b := s.bth
    s.mbOk mb (rspOf
      [(0, 1, b.cargoState.code), (4, 4, b.cargoPages.length), (8, 8, b.cargoVa),
       (16, 48, if b.cargoState = .sealed then b.cargoHash.toNat else 0), (64, 48, (b.convoy.map fun c => c.hash.toNat).getD 0),
       (112, 4, (b.convoy.map fun c => c.tpm).getD 0), (116, 1, (b.convoy.map fun c => c.scratch).getD 0)])

/-- The pages of the convoy program's image: every page of the range in the operator's map, none if one is missing. -/
def State.imagePages (s : State) (va n : Nat) : Option (List Nat) :=
  let ps := s.ownRange 0 (va / 0x10000) n
  if ps.length = n ∧ ps.all fun p => (s.pot p.2).state == .owned then some (ps.map (·.2)) else none

/-- Sets or clears CODE and RO of pages. -/
def State.codePages (s : State) (ps : List Nat) (on : Bool) : State :=
  ps.foldl (fun (s : State) p => s.setPot p { s.pot p with ro := on, code := on }) s

/-- CONVOY_REGISTER (R254). -/
def execConvoyRegister (mb : Mbox) (s : State) : Out :=
  s.onReq mb 0x0310 fun r =>
    let n := r.num 16 4
    let tpm := r.num 20 4
    let ctx := r.num 26 2
    if s.bth.cargoState ≠ .sealed ∨ s.bth.convoy.isSome then s.mbFail mb 0x2901
    else if n = 0 ∨ tpm = 0 ∨ tpm > 65536 ∨ r.num 24 1 > 16 ∨ r.num 8 8 % 0x10000 ≠ 0 then s.mbFail mb 0x6903
    else if !(s.ctx? ctx).any (·.berth == 0) then s.mbFail mb 0x4002
    else match s.imagePages (r.num 8 8) n with
      | none => s.mbFail mb 0x4104
      | some ps => match readPieces (fun s a k => s.paRead .firmware a k) (ps.map fun p => (p * 0x10000, 0x10000)) s with
        | (rd, s) =>
          if rd.wait then s
          else if rd.st ≠ 0 then s.mbFail mb (namedSt rd.st)
          else
            let h := Config.sha384 rd.bytes
            let s := (s.codePages ps true).modBth fun b => { b with
              convoy := some { entry := BitVec.ofNat 64 (r.num 0 8), imageVa := r.num 8 8, imagePages := n, tpm := tpm
                               scratch := r.num 24 1, ctx := ctx, hash := h } }
            s.measured.mbOk mb (bytesOf 48 h.toNat)

/-- CONVOY_UNREGISTER. -/
def execConvoyUnregister (mb : Mbox) (s : State) : Out :=
  s.onReq mb 0x0311 fun _ =>
    match s.bth.convoy with
    | none => s.mbFail mb 0x2901
    | some c =>
      if s.cargoUsed then s.mbFail mb 0x2901
      else
        let s := s.codePages ((s.ownRange 0 (c.imageVa / 0x10000) c.imagePages).map (·.2)) false
        (s.modBth fun b => { b with convoy := none }).measured.mbOk mb []

end Sys2Proof.Machine
end

