-- ==== Sys2Proof/Machine/MbxHandover.lean ====
section
/-! DEFINITION. DIE_HANDOVER (R271, R341, R404). The operation's working data are its stage, its status so far, the bytes saved and
loaded, and the pages that it has unmapped. -/

namespace Sys2Proof.Machine

/-- Whether a berth can take part in a handover: an ACTIVE space berth. -/
def State.spaceBerth (s : State) (b : Nat) : Bool := decide (b ≠ 0) && (s.berth? b).any fun e => e.kind == 0 && e.state == .active

/-- DIE_HANDOVER. -/
def execDieHandover (mb : Mbox) (s : State) : Out :=
  s.onReq mb 0x0205 fun r =>
    let a := r.num 0 1
    let b := r.num 1 1
    let d := r.num 2 1
    if d ≥ 72 ∨ a = b then s.mbFail mb 0x6903
    else if !s.spaceBerth a ∨ (b ≠ 0 ∧ !s.spaceBerth b) then s.mbFail mb 0x2901
    else if !s.present d then s.mbFail mb 0x3002
    else if !(s.berth? a).any (·.dies.contains d) then s.mbFail mb 0x4001
    else s.bgBegin mb r [0, 0, 0, 0]

/-- Started commands that are not complete and name a die. -/
def State.dieCmds (s : State) (d : Nat) : List Cmd :=
  s.lk.cmds.filter fun c => c.phase.started && c.phase != .roll && bitAt c.dieMask d

/-- The pages of a list's entries, as (virtual page, host address). -/
def entryPages (es : List (Nat × Nat × Nat)) : List (Nat × Nat) :=
  (es.map fun e => (List.range (e.2.2 / 0x10000)).map fun i => (e.1 / 0x10000 + i, e.2.1 + i * 0x10000)).flatten

/-! ## Sealed pages -/

/-- The sealed bytes of a page. -/
def sealed (key nonce : Nat) (plain : List Byte) : List Byte :=
  (List.range plain.length).map (Config.sealByte key nonce plain)

/-- Writes a page to a berth's save area: sealed where that is host memory, with the berth's next nonce. -/
def State.savePage (s : State) (b va : Nat) (plain : List Byte) : Status × Bool × State :=
  match s.translate b (s.activeBank b) va .write false with
  | (.ok ga, s) =>
    if isHost ga then
      let n := NMap.getD s.bth.nonces b 0 + 1
      match s.vaWrite b va (sealed (s.keyNum b) n plain) with
      | (st, w, s) =>
        if st ≠ 0 ∨ w then (st, w, s)
        else (0, false, s.modBth fun x => { x with
          nonces := NMap.put x.nonces b n
          seals := (b, va, n, plain) :: x.seals.filter fun q => !(q.1 == b && q.2.1 == va) })
    else s.vaWrite b va plain
  | (.fault c, s) => (causeStatus c, false, s)
  | (.wait, s) => (0, true, s)

/-- What a page read from a berth's host memory stands for: its plaintext; none where it was sealed and its tag or nonce fails. A
page that was never sealed is plain. -/
def State.unsealPage (s : State) (b va : Nat) (bytes : List Byte) : Option (List Byte) :=
  match s.bth.seals.find? fun q => q.1 == b && q.2.1 == va with
  | none => some bytes
  | some (_, _, n, plain) => if bytes = sealed (s.keyNum b) n plain then some plain else none

/-! ## Steps 1 to 3 -/

/-- Entries already taken that name a die which leaves their berth complete with 0x2003. -/
def State.leaveReady (s : State) (b d : Nat) : State :=
  s.lk.cmds.foldl (fun (s : State) c =>
    if c.berth = b ∧ bitAt c.dieMask d ∧ !c.phase.started ∧ !c.failed then
      if c.phase = .taken then s.modCmd c.ctx c.seq fun c => { c with failed := true, status := 0x2003 }
      else s.endUnstarted c 0x2003
    else s) s

/-- Flushes a die's slices and L1s (R271 step 2). -/
def State.flushDie (s : State) (d : Nat) : State :=
  let s := (s.cores d).foldl (fun s g => (s.l1Flush (d * 32 + g) 0 allMem).2) s
  ((s.cleanFar d none).drainSlices d none).flushHome d none

/-- Saves pages (page, save address) in turn: the first status that is not 0, whether to wait, the bytes saved. A page that cannot
be read or placed is passed over. -/
def State.saveAll (b : Nat) : List (Nat × Nat) → State → Status × Bool × Nat × State
  | [], s => (0, false, 0, s)
  | (p, va) :: t, s =>
    match s.paRead .firmware (p * 0x10000) 0x10000 with
    | (rd, s) =>
      if rd.wait then (0, true, 0, s)
      else
        let put : Status × Bool × State := if rd.st ≠ 0 then (rd.st, false, s) else s.savePage b va rd.bytes
        if put.2.1 then (0, true, 0, put.2.2)
        else match State.saveAll b t put.2.2 with
          | (st, w, n, s) => (if put.1 ≠ 0 then put.1 else st, w, if put.1 = 0 then n + 0x10000 else n, s)

/-- The die leaves its berth: its dies, account, counters, trace, moorings, spill area and maps; the handler thread moves to the
berth's lowest die. -/
def State.dieLeaves (s : State) (b d : Nat) (gone : List Nat) : State := match s.berth? b with
  | none => s
  | some e =>
    let keep (a : Nat) : Bool := !gone.contains (a / 0x10000)
    let s := s.modBerth b fun e => { e with
      dies := e.dies.filter (· != d)
      ownedAt := NMap.erase e.ownedAt d
      account := { e.account with dieNs := e.account.dieNs + (s.clk.now - NMap.getD e.ownedAt d s.clk.now) }
      pool := e.pool.map fun p => { p with all := p.all.filter keep, free := p.free.filter keep }
      moorLeak := e.moorLeak.filter keep
      spill := e.spill.filter fun p => !gone.contains p
      mapPages := e.mapPages.filter fun l => !gone.contains (l.2.1 / 0x10000) }
    let s := (s.pmcGive d 0).modRel fun r => { r with
      traces := NMap.keep r.traces fun k t => !(k == d && t.berth == b) }
    match e.handlerTid with
    | some h =>
      if dieOfThr h ≠ d then s
      else
        let s := (s.modThr fun x => { x with threads := NMap.erase x.threads h }).modBerth b fun e => { e with handlerTid := none }
        match (e.dies.filter (· != d)).head? with
        | none => s
        | some d2 => match s.handlerPlace b d2 with
          | some t => s.handlerStart b t
          | none => s
    | none => s

/-- Sets the working data of an operation. -/
def State.bgAux (s : State) (id : Nat) (aux : List Nat) : State := s.modBg id fun g => { g with aux := aux }

/-- Once no command runs on the die: slices flushed, holds zeroed, pages saved, and A's pages of the die out of its map. -/
def State.handoverOut (s : State) (g : Bg) (a b d : Nat) : State := match s.berth? a with
  | none => s.bgEnd g.id 0x2901 []
  | some e =>
    let gone := (s.pagesOf a).filter fun p => homeOf (p * 0x10000) == d
    let list := (entryPages e.saveList).filterMap fun q => (pageAt e.mapPages q.1).bind fun pa =>
      if gone.contains (pa / 0x10000) then some (pa / 0x10000, q.2) else none
    let s := (s.flushDie d).holdsZero d b
    match State.saveAll a list s with
    | (st, w, n, s) =>
      if w then s
      else
        let s := s.dieLeaves a d gone
        ((s.mapCommit a).getD s).bgAux g.id ([1, st.toNat, n, 0] ++ gone)

/-! ## Step 4 -/

/-- Reads what B brings: (virtual page, bytes), none for a page whose seal fails; the first failing status, whether to wait. -/
def State.loadAll (b : Nat) : List (Nat × Nat) → State → Status × Bool × List (Nat × Option (List Byte)) × State
  | [], s => (0, false, [], s)
  | (vp, va) :: t, s =>
    match s.vaRead b va 0x10000 with
    | (rd, s) =>
      if rd.wait ∨ rd.st ≠ 0 then (rd.st, rd.wait, [], s)
      else match State.loadAll b t s with
        | (st, w, l, s) => (st, w, (vp, s.unsealPage b va rd.bytes) :: l, s)

/-- Writes a whole page, as stored poison where there are no bytes. -/
def State.fillPage (s : State) (page : Nat) (bytes : Option (List Byte)) : State :=
  let s := s.dropPage page
  (List.range 2048).foldl (fun (s : State) i =>
    s.dramPut (page * 0x10000 + 32 * i) (((bytes.getD []).drop (32 * i)).take 32 ++ (if bytes.isNone then List.replicate 32 0 else []))
      bytes.isNone) s

/-- B's state streams in, its map is committed, and the die is B's. -/
def State.handoverIn (s : State) (g : Bg) (b d saved : Nat) : State := match s.berth? b with
  | none => s.bgEnd g.id 0 (bytesOf 8 saved ++ bytesOf 8 0)
  | some e =>
    let list := (entryPages e.loadList).filter fun q => match pageAt e.mapPages q.1 with
      | some pa => homeOf pa == d
      | none => s.vaFree b q.1 1
    let new := (list.filter fun q => (pageAt e.mapPages q.1).isNone).map (·.1)
    if !s.mapReady b then s.mapSync b
    else match State.loadAll b list s with
      | (st, w, data, s) =>
        let fail (s : State) (st : Status) : State := s.bgEnd g.id st (bytesOf 8 saved ++ bytesOf 8 0)
        if w then s
        else if st ≠ 0 then fail s st
        else if (s.pagesOf b).length + new.length > e.quota then fail s 0x2404
        else match State.takeDie d 1 (PotEnt.own b false false) new.length s with
          | none => fail s 0x2404
          | some (ps, s1) =>
            let maps := (List.range new.length).foldl (fun m i => NMap.put m (new.getD i 0) (ps.getD i 0 * 0x10000, 3, true, false))
              e.mapPages
            let s1 := data.foldl (fun (s : State) q => match pageAt maps q.1 with
              | some pa => s.fillPage (pa / 0x10000) q.2
              | none => s) s1
            let s1 := s1.modBerth b fun e => { e with
              mapPages := maps, dies := insertNat d e.dies, ownedAt := NMap.put e.ownedAt d s.clk.now }
            match s1.mapCommit b with
            | none => fail s 0x2404
            | some s =>
              let bad := data.any fun q => q.2.isNone
              (s.pmcGive d b).bgAux g.id [2, if bad then 0x3701 else 0, saved, data.length * 0x10000]

/-- The course of a DIE_HANDOVER from one point where it can go on to the next. -/
def bgHandover (g : Bg) (s : State) : Out :=
  let a := g.req.num 0 1
  let b := g.req.num 1 1
  let d := g.req.num 2 1
  let at' (i : Nat) : Nat := g.aux.getD i 0
  .next (match at' 0 with
    | 0 =>
      let late := decide (g.since + g.req.num 4 4 * 1000 ≤ s.clk.now)
      let s := s.leaveReady a d
      if !(s.dieCmds d).isEmpty then
        if late then (s.dieCmds d).foldl (fun (s : State) c => if c.berth = a then s.failCmd c.ctx c.seq 0x2003 else s) s else s
      else if !s.mapReady a then s.mapSync a
      else s.handoverOut g a b d
    | 1 =>
      let s := s.mapSync a
      if !s.mapReady a then s
      else match s.releasePages ((g.aux.drop 4).filter fun p => (s.pot p).owner == a && (s.pot p).state != .zeroed) with
        | (false, s) => s
        | (true, s) =>
          if at' 1 ≠ 0 then s.bgEnd g.id (BitVec.ofNat 16 (at' 1)) (bytesOf 8 (at' 2) ++ bytesOf 8 0)
          else s.handoverIn g b d (at' 2)
    | _ =>
      let s := s.mapSync b
      if s.mapReady b then s.bgEnd g.id (BitVec.ofNat 16 (at' 1)) (bytesOf 8 (at' 2) ++ bytesOf 8 (at' 3)) else s)

end Sys2Proof.Machine
end

