-- ==== Sys2Proof/Machine/MbxUpkeep.lean ====
section
/-! DEFINITION. Mailbox operations on power, reliability and security (Tables 13.5 to 13.7). -/

namespace Sys2Proof.Machine

/-! ## Power -/

/-- CAP_SET: applies from the next control step. -/
def execCapSet (mb : Mbox) (s : State) : Out :=
  s.onReq mb 0x0400 fun r =>
    let w := r.num 0 4
    let ms := r.num 4 4
    if w < 4000 ∨ w > 20000 ∨ ms < 1000 ∨ ms > 10000 then s.mbFail mb 0x6903
    else (s.modPwr fun p => { p with capW := w, windowMs := ms }).mbOk mb []

/-- Whether a berth, or the operator (0), may see a die's power: a berth only those it owns. -/
def State.seesDie (s : State) (b d : Nat) : Bool := b == 0 || (s.berth? b).any (·.dies.contains d)

/-- The mean module power over the window; milliseconds with no step count as 0 W. -/
def State.avgW (s : State) : Nat := sumNat (s.pwr.history.take s.pwr.windowMs) / s.pwr.windowMs

/-- POWER_QUERY: to a berth zero but for its own dies and WINDOW_MS. -/
def execPowerQuery (mb : Mbox) (s : State) : Out :=
  s.onReq mb 0x0401 fun _ =>
    let b := mbBerth mb
    let per (f : Nat → Nat) : Nat := ofBytes ((List.range 72).map fun d =>
      if s.present d && s.seesDie b d then BitVec.ofNat 8 (f d) else 0)
    s.mbOk mb (rspOf
      [(0, 4, if b = 0 then s.avgW else 0), (4, 4, if b = 0 then s.pwr.capW else 0), (8, 4, s.pwr.windowMs),
       (16, 72, per fun d => s.rfld (dieBase d + 0x308) 41 36),
       (88, 72, per fun d => ofSigned 8 (NMap.getD s.pwr.temp d 0 / 4))])

/-- RATIO_LIMIT: the controller keeps each named die at or below MAX_RATIO. -/
def execRatioLimit (mb : Mbox) (s : State) : Out :=
  s.onReq mb 0x0402 fun r =>
    let ds := bitsOf 72 (r.num 0 16)
    let m := r.num 16 1
    if m < 12 ∨ m > 46 then s.mbFail mb 0x6903
    else if !ds.all s.present then s.mbFail mb 0x3002
    else (s.modPwr fun p => { p with ratioMax := ds.foldl (fun l d => NMap.put l d m) p.ratioMax }).mbOk mb []

/-- FABRIC_HALF: the half's fabric segment at 2.4 GHz or in economy (R374). -/
def execFabricHalf (mb : Mbox) (s : State) : Out :=
  s.onReq mb 0x0403 fun r =>
    let d := r.num 0 1
    let bit := 49 + r.num 1 1
    if d ≥ 72 ∨ r.num 1 1 > 1 ∨ r.num 2 1 > 1 then s.mbFail mb 0x6903
    else if !s.present d then s.mbFail mb 0x3002
    else (s.ecoWrite d (BitVec.ofNat 64 (r.num 2 1 * 2 ^ bit)) (BitVec.ofNat 64 (2 ^ bit))).mbOk mb []

/-! ## Reliability -/

/-- SIG_READ: up to COUNT signatures from FIRST on that the ring still holds. -/
def execSigRead (mb : Mbox) (s : State) : Out :=
  s.onReq mb 0x0500 fun r =>
    let n := r.num 8 1
    if n < 1 ∨ n > 15 then s.mbFail mb 0x6903
    else s.mbOk mb (((s.rel.sigs.filter fun g => decide (r.num 0 8 ≤ g.sigSeq)).take n).map Sig.bytes).flatten

/-- The dies that a unit's kind is found on: 0 to 3 and 6. -/
def kindOnDie (kind : Nat) : Bool := decide (kind ≤ 3) || kind == 6

/-- The unit that a TALLY_READ request names, or the status that it fails with. ROW is coded as DRAM_LOC of a signature, its position apart; a cut
bundle's INDEX has the port in [15:8] and the bundle in [7:0], DIE being its router; an Erhar port needs no DIE (log entry 33). -/
def State.tallyUnit (s : State) (r : MbReq) : Status × UnitKey :=
  let kind := r.num 0 1
  let d := r.num 1 1
  let i := r.num 2 2
  let row := r.num 4 4
  let ok : Bool := match kind with
    | 0 => decide (i < 20)
    | 1 => decide (i < 36)
    | 2 => true
    | 3 => decide (i < 64) && decide (fld row 29 26 < 12)
    | 4 => decide (d < 76) && s.hasCut d (i / 256) && decide (i % 256 < 9)
    | 5 => decide (i < 36)
    | 6 => decide (i < 64)
    | _ => false
  if !ok ∨ (kindOnDie kind ∧ d ≥ 72) then (0x6903, (0, 0, 0, 0))
  else if kindOnDie kind ∧ !s.present d then (0x3002, (0, 0, 0, 0))
  else
    (0, match kind with
      | 2 => (2, s.siteNum d, 0, 0)
      | 3 => (3, d * 64 + i, fld row 29 26 * 64 + fld row 25 20, fld row 19 11)
      | 4 => (4, d, i / 256, i % 256)
      | 5 => (5, i, 0, 0)
      | k => (k, s.siteNum d, i, 0))

/-- TALLY_READ. -/
def execTallyRead (mb : Mbox) (s : State) : Out :=
  s.onReq mb 0x0501 fun r => match s.tallyUnit r with
    | (0, k) => let t := s.tallyTimes k
      s.mbOk mb (rspOf [(0, 1, t.length), (8, 8, t.getD 0 0), (16, 8, t.getD 1 0), (24, 8, t.getD 2 0)])
    | (st, _) => s.mbFail mb st

/-- The site that a tally request's event names: the die's, the router's, or the gatehouse's. -/
def State.tallySite (s : State) (kind d i : Nat) : Nat :=
  if kind = 4 then s.routerSiteNum d else if kind = 5 then 80 + Nat.min (i / 9) 3 else s.siteNum d

/-- TALLY_CLEAR: one unit, or with INDEX 0xFFFF every unit of the kind on the die; logged with the request's bytes. -/
def execTallyClear (mb : Mbox) (s : State) : Out :=
  s.onReq mb 0x0502 fun r =>
    let kind := r.num 0 1
    let d := r.num 1 1
    let i := r.num 2 2
    let done (hit : UnitKey → Bool) : State :=
      ((s.modRel fun x => { x with tallies := x.tallies.filter fun e => !hit e.1 }).event 4 (s.tallySite kind d i) i 0
        (BitVec.ofNat 64 (rdLE r.payload 0 8))).mbOk mb []
    if i = 0xFFFF then
      if kind > 6 ∨ (kindOnDie kind ∧ d ≥ 72) ∨ (kind = 4 ∧ d ≥ 76) then s.mbFail mb 0x6903
      else if kindOnDie kind ∧ !s.present d then s.mbFail mb 0x3002
      else done fun k => k.1 == kind && (match kind with
        | 3 => k.2.1 / 64 == d
        | 4 => k.2.1 == d
        | 5 => true
        | _ => k.2.1 == s.siteNum d)
    else match s.tallyUnit r with
      | (0, u) => done (· == u)
      | (st, _) => s.mbFail mb st

/-- CUP_FLOOR. -/
def execCupFloor (mb : Mbox) (s : State) : Out :=
  s.onReq mb 0x0503 fun r =>
    let c := r.num 0 1
    if c > 5 ∧ c ≠ 0xFF then s.mbFail mb 0x6903
    else (s.modLk fun l => { l with cupFloor := if c = 0xFF then none else some c }).mbOk mb []

/-- SELFTEST: with ENABLE 0 the chunks in progress are abandoned. -/
def execSelftest (mb : Mbox) (s : State) : Out :=
  s.onReq mb 0x0504 fun r =>
    let e := r.num 0 1
    if e > 1 then s.mbFail mb 0x6903
    else (s.modRel fun x => { x with selftest := e == 1, testing := if e = 1 then x.testing else [] }).mbOk mb []

/-- Retires a unit as a full tally would (R364, Table 14.2), with the signature of a retirement. -/
def State.retireAsked (s : State) (r : MbReq) (k : UnitKey) : State :=
  let d := r.num 1 1
  let i := r.num 2 2
  let g : Sig := { (if kindOnDie k.1 then Sig.blank.onDie s d (k.1 = 6 && i ≥ 32) else Sig.blank) with
    action := 5, severity := 1, unitKind := k.1, unitIndex := if k.1 = 4 then i % 256 else if k.1 = 2 then k.2.1 else i
    tally := s.tallyCount k, times := s.tallyTimes k }
  match k.1 with
  | 0 => (match s.unitAt d false i with
    | some j => (s.sign { g with logical := j }).retireUnit d false j
    | none => (s.sign g).modRel fun x => { x with
        retired := if x.retired.contains (0, k.2.1, i) then x.retired else x.retired ++ [(0, k.2.1, i)] })
  | 1 => (match s.unitAt d true i with
    | some j => (s.sign { g with logical := j }).retireUnit d true j
    | none => (s.sign g).modRel fun x => { x with
        retired := if x.retired.contains (1, k.2.1, i) then x.retired else x.retired ++ [(1, k.2.1, i)] })
  | 2 => (s.sign g).askRepair d
  | 3 =>
    let b := (d, i, k.2.2.1 / 64, k.2.2.1 % 64, k.2.2.2)
    (s.sign { g with dramLoc := r.num 4 4 / 2048 * 2048 + 0x7F0 }).modMem fun m => { m with
      blocked := if m.blocked.contains b then m.blocked else m.blocked ++ [b] }
  | 4 =>
    let s := s.sign { g with site := s.routerSiteNum d, ldie := if d < 72 then d else 0xFF }
    let off := s.rfld (cutCtlA d (i / 256)) 8 0
    if bitAt off (i % 256) then s else (s.setRfld (cutCtlA d (i / 256)) 8 0 (off + 2 ^ (i % 256))).cutRetrainW d (i / 256)
  | 5 => (s.sign { g with site := 80 + i / 9 }).erhPortOff i none 4
  | _ => (s.sign g).sliceRetire d i

/-- UNIT_RETIRE. -/
def execUnitRetire (mb : Mbox) (s : State) : Out :=
  s.onReq mb 0x0505 fun r => match s.tallyUnit r with
    | (0, k) => if s.bgCount mb ≥ 8 then s.mbFail mb 0x5902 else (s.retireAsked r k).bgBegin mb r []
    | (st, _) => s.mbFail mb st

/-- The end of a UNIT_RETIRE: once the copy to the spare, the row repair or the die repair that it started is over. -/
def bgUnitRetire (g : Bg) (s : State) : Out :=
  let d := g.req.num 1 1
  let i := g.req.num 2 2
  let row := g.req.num 4 4
  let busy : Bool := match g.req.num 0 1 with
    | 0 => s.rel.retiring.any fun q => q.1 == d && !q.2.1 && s.engSlot d q.2.2.1 == some i
    | 1 => s.rel.retiring.any fun q => q.1 == d && q.2.1 && s.coreSlot d q.2.2.1 == some i
    | 2 => s.panel.repairQ.contains d || s.panel.repair.any (·.die == d)
    | 3 => s.mem.blocked.contains (d, i, fld row 29 26, fld row 25 20, fld row 19 11)
    | _ => false
  need (!busy) .notArmed <| .next (s.bgEnd g.id 0 [])

/-- The 16 bytes of a REPAIR_LIST entry. -/
def RowRepair.bytes (r : RowRepair) : List Byte :=
  bytesOf 1 r.die ++ bytesOf 1 r.chan ++ bytesOf 1 r.layer ++ bytesOf 1 r.bank ++ bytesOf 2 r.row ++ bytesOf 1 r.spare ++
  bytesOf 1 (if r.fused then 1 else 0) ++ bytesOf 8 r.time

/-- REPAIR_LIST: up to 240 entries from the FIRST-th, counted from 0. -/
def execRepairList (mb : Mbox) (s : State) : Out :=
  s.onReq mb 0x0506 fun r => s.mbOk mb (((s.mem.repairs.drop (r.num 0 4)).take 240).map RowRepair.bytes).flatten

/-! ## Security -/

/-- SEC_STATE. -/
def execSecState (mb : Mbox) (s : State) : Out :=
  s.onReq mb 0x0600 fun _ => s.mbOk mb (rspOf
    [(0, 1, s.sec.fuses.level), (1, 1, if s.sec.alarmLock then 1 else 0), (2, 1, s.sec.fuses.debugPolicy.toNat),
     (4, 4, s.sec.fuses.svn)] ++ s.measBlock 2)

/-- DEBUG_CHALLENGE: a fresh nonce takes the place of the one before. -/
def execDebugChallenge (mb : Mbox) (s : State) : Out :=
  s.onReq mb 0x0601 fun _ =>
    let w (i : Nat) : Nat := (Config.freeWord (s.fresh + i)).toNat
    let n := w 0 + w 1 * 2 ^ 64 + w 2 * 2 ^ 128 + w 3 * 2 ^ 192
    ((s.drawn 4).modSec fun x => { x with nonce := some (BitVec.ofNat 256 n) }).mbOk mb (bytesOf 32 n)

/-- The length of a debug token: its 64 bytes, the RSA signature and the SLH-DSA signature (R405). -/
def tokenLen : Nat := 64 + 384 + 16224

/-- The checks of a debug token (R405). -/
def State.tokenOk (s : State) (t : List Byte) : Bool :=
  let f := s.sec.fuses
  let rk := rdLE t 52 1
  let sk := rdLE t 53 1
  t.take 4 == [0x58, 0x5A, 0x4B, 0x44] && rdLE t 4 8 == f.dsn.toNat && s.sec.nonce == some (BitVec.ofNat 256 (rdLE t 12 32)) &&
  decide (rdLE t 44 4 < 4) && zeroAt t 54 10 &&
  slotValid f.rsaHash f.revokeRsa rk && slotValid f.slhHash f.revokeSlh sk &&
  Config.rsaVerify (f.rsaHash.toList.getD rk 0) (t.take 64) ((t.drop 64).take 384) &&
  Config.slhVerify (f.slhHash.toList.getD sk 0) (t.take 64) (t.drop 448)

/-- DEBUG_UNLOCK: the nonce serves one attempt. -/
def execDebugUnlock (mb : Mbox) (s : State) : Out :=
  s.onReq mb 0x0602 fun r =>
    if s.sec.fuses.debugPolicy.toNat ≥ 2 then s.mbFail mb 0x4B01
    else if r.num 8 4 ≠ tokenLen then s.mbFail mb 0x4B03
    else match s.paRead .operator (r.num 0 8) tokenLen with
      | (rd, s) =>
        let used := s.modSec fun x => { x with nonce := none }
        if rd.wait then s
        else if rd.st ≠ 0 then s.mbFail mb (namedSt rd.st)
        else if !s.tokenOk rd.bytes then used.mbFail mb 0x4B03
        else ((used.modSec fun x => { x with
          debugUntil := some (s.clk.now + rdLE rd.bytes 48 4 * 1000000000)
          debugScope := BitVec.ofNat 32 (rdLE rd.bytes 44 4) }).measured).mbOk mb []

end Sys2Proof.Machine
end

