-- ==== Sys2Proof/Machine/MbxObserve.lean ====
section
/-! DEFINITION. Mailbox operations on counters, trace, the event log and the hang snapshot (Table 13.8, chapter 18). -/

namespace Sys2Proof.Machine

/-! ## Counters and trace (R427, R431) -/

/-- The space berth that owns a die. -/
def State.dieOwner (s : State) (d : Nat) : Option Nat := (s.bth.berths.find? fun e => e.1 != 0 && e.2.dies.contains d).map (·.1)

/-- Whether an EVENT may be counted at a SCOPE (Table 18.4). -/
def pmcEventOk (event scope : Nat) : Bool :=
  [0, 1, 2, 3, 4, 5, 0x10, 0x11, 0x12, 0x20, 0x21, 0x22, 0x23, 0x24, 0x25, 0x26, 0x27].contains event ||
  ([0x30, 0x31, 0x40].contains event && scope == 0)

/-- COUNTER_CFG: the slot's holder sets its EVENT and SCOPE; the counter starts from zero. -/
def execCounterCfg (mb : Mbox) (s : State) : Out :=
  s.onReq mb 0x0700 fun r =>
    let d := r.num 0 1
    let k := r.num 1 1
    let event := r.num 2 2
    let scope := r.num 4 1
    let b := mbBerth mb
    let mine : Bool := match mb with
      | .op => decide (k < 4) || (s.dieOwner d).isNone
      | .berth n => decide (4 ≤ k) && s.dieOwner d == some n && scope != 0
    if d ≥ 72 ∨ k > 7 then s.mbFail mb 0x6903
    else if !s.present d then s.mbFail mb 0x3002
    else if !mine then s.mbFail mb 0x4901
    else if scope > 2 ∨ !pmcEventOk event scope then s.mbFail mb 0x6903
    else ((s.setReg (dieBase d + 0x800 + k * 0x10) 0).setReg (dieBase d + 0x808 + k * 0x10)
      (BitVec.ofNat 64 (scope * 2 ^ 24 + b * 2 ^ 16 + event))).mbOk mb []

/-- TRACE_CFG: one trace a die, which its latest configuration governs; a berth's lies in pages that it owns. -/
def execTraceCfg (mb : Mbox) (s : State) : Out :=
  s.onReq mb 0x0701 fun r =>
    let d := r.num 0 1
    let on := r.num 1 1
    let va := r.num 8 8
    let n := r.num 16 4
    let b := mbBerth mb
    let pages := (va + n + 0xFFFF) / 0x10000 - va / 0x10000
    let mine : Bool := match mb with
      | .op => true
      | .berth k => s.dieOwner d == some k &&
        (on == 0 || (s.ownRange k (va / 0x10000) pages).length == pages)
    if d ≥ 72 ∨ on > 1 then s.mbFail mb 0x6903
    else if !s.present d then s.mbFail mb 0x3002
    else if on = 1 ∧ (n % 4096 ≠ 0 ∨ n < 8192 ∨ n > 2 ^ 30 ∨ va % 4096 ≠ 0 ∨ va + n > 2 ^ 47) then s.mbFail mb 0x6903
    else if !mine then s.mbFail mb 0x4901
    else (s.modRel fun x => { x with
      traces := if on = 0 then NMap.erase x.traces d
        else NMap.put x.traces d
          { enabled := true, berth := b, bufVa := va, bytes := n, filter := BitVec.ofNat 32 (r.num 20 4), recs := [], lost := 0
            dropped := 0, written := 0 } }).mbOk mb []

/-! ## The event log (R425) -/

/-- The 32 bytes of an event-log entry (Table 18.3). -/
def Evt.bytes (e : Evt) : List Byte :=
  bytesOf 4 e.seq ++ bytesOf 1 e.kind ++ bytesOf 1 e.site ++ bytesOf 2 e.unit ++ bytesOf 8 e.time ++ bytesOf 8 e.addr.toNat ++
  bytesOf 8 e.value.toNat

/-- CFG_EVENTS: NEXT, OLDEST, and up to 119 entries from FIRST. -/
def execCfgEvents (mb : Mbox) (s : State) : Out :=
  s.onReq mb 0x0703 fun r =>
    let next := s.rel.evtNext + 1
    let old := (s.rel.evts.head?.map (·.seq)).getD next
    s.mbOk mb (bytesOf 8 next ++ bytesOf 8 old ++
      (((s.rel.evts.filter fun e => decide (r.num 0 8 ≤ e.seq)).take 119).map Evt.bytes).flatten)

/-- GROUP_STATUS: a berth reads its own groups; a group that no entry describes reads as zeros. -/
def execGroupStatus (mb : Mbox) (s : State) : Out :=
  s.onReq mb 0x0704 fun r =>
    let n := r.num 0 2
    let g := NMap.get? s.erh.groups n
    let mine : Bool := match mb with
      | .op => true
      | .berth b => g.any (·.berth == b)
    if n < 1 ∨ n > 4095 then s.mbFail mb 0x6903
    else if !mine then s.mbFail mb 0x4901
    else s.mbOk mb (match g with
      | some g => rspOf [(0, 8, g.gen), (8, 8, g.agen), (16, 8, g.lastCount), (24, 8, g.lastInfo.toNat), (32, 2, g.lastStatus.toNat),
          (34, 2, g.drainFlags.toNat)]
      | none => List.replicate 36 0)

/-! ## The hang snapshot (R433, Tables 18.9 to 18.11) -/

/-- A context's entry. -/
def State.snapCtx (s : State) (n : Nat) : List Byte := match s.ctx? n with
  | none => rspOf [(0, 2, n), (3, 1, 0xFF), (8, 56, 0)]
  | some x =>
    let blk := s.blockOf n
    let since := match NMap.get? s.lk.blockAt n with | some (b, t) => if b = blk then t else s.clk.now | none => s.clk.now
    let c := s.oldest n
    let seq := match c with | some c => c.seq | none => if x.sqHead < x.sqTail then x.sqHead else 0
    let w := c.bind fun c => c.unmet.map fun k => (c.ids.getD k 0, (c.word (8 + k)).toNat)
    let ctr := match w with
      | some (id, _) => ((s.ctx? (fld id 13 4)).map fun y => (y.ctr (fld id 3 0)).toNat).getD 0
      | none => 0
    rspOf [(0, 2, n), (2, 1, x.berth), (3, 1, x.state), (4, 1, blk), (5, 1, s.inFlight n), (6, 1, if x.home < 72 then x.home else 0xFF),
      (8, 8, x.sqHead), (16, 8, x.sqTail), (24, 8, x.cqTail), (32, 4, seq), (36, 2, (w.map (·.1)).getD 0),
      (40, 8, (w.map (·.2)).getD 0), (48, 8, ctr), (56, 8, since)]

/-- ENGINE of a logical engine. -/
def State.snapEngine (s : State) (d j : Nat) : Nat := match s.engSlot d j with
  | none => 0x8000
  | some slot =>
    let code (r : EngRun) (k : Nat) : Nat := (if r.tile.kind = 1 then 4 else if r.tile.kind = 2 then 5 else k) * 4096 + r.tile.ctx
    match s.inArray d j, s.inDrain d j with
    | some r, _ => code r 2
    | none, some r => code r 3
    | none, none =>
      match s.lk.cmds.find? fun c => decide (c.phase = .preempting ∨ c.phase = .restoring) && bitAt c.dieMask d && bitAt c.claim j with
      | some c => 0x6000 + c.ctx
      | none => match NMap.get? s.rel.testing d with
        | some t => if !t.core && t.slot == slot then 0x7000 else 0
        | none => 0

/-- A credit pair of a port: the ordinary and the second share of a virtual channel. -/
def creditsOf (c : Vector Nat 8) (vc : Nat) : Nat := c.toList.getD vc 0 + c.toList.getD (vc + 4) 0

/-- A die's entry; packets that a receive buffer would hold have been sent on, so occupancies are zero. -/
def State.snapDie (s : State) (d : Nat) : List Byte :=
  let q := s.eng.tileq.filter fun t => t.die == d
  let thr (g : Nat) (p : Thread → Bool) : Nat := (s.thr.threads.filter fun e => coreOfThr e.1 == d * 32 + g && p e.2).length
  let bytes (f : Nat → Nat) : Nat := ofBytes ((List.range 32).map fun g => BitVec.ofNat 8 (f g))
  let halves (n : Nat) (f : Nat → Nat) : Nat := ofBytes ((List.range n).map fun i => bytesOf 2 (f i)).flatten
  let busy := (s.basin.dir.filter fun e => homeOf e.1 == d && e.2.state == .busy).length
  let starve := sumNat ((List.range 64).map fun k => (NMap.getD s.basin.starve (d * 64 + k) []).length)
  let upd := s.basin.updq.filter fun u => u.die == d
  rspOf [(0, 1, d), (1, 1, s.siteNum d), (2, 2, q.length), (4, 2, (q.filter s.tileReady).length), (8, 32, halves 16 (s.snapEngine d)),
    (40, 32, bytes fun g => thr g fun _ => true), (72, 32, bytes fun g => thr g fun t => t.wait != Wait.none || t.frozen),
    (104, 2, busy), (106, 2, starve), (108, 2, upd.length), (110, 2, (distinct (upd.map (·.line))).length),
    (112, 96, halves 48 fun i => if i % 2 = 0 then creditsOf (s.cutPort d (i / 8)).credits (i / 2 % 4) else 0),
    (208, 6, ofBytes ((List.range 6).map fun p => BitVec.ofNat 8 (s.cutState d p * 16 + s.rfld (cutStatA d p) 55 53))),
    (214, 1, (NMap.getD s.mem.heat d .normal).rank), (215, 297, 0)]

/-- A gatehouse's entry. A proxied request is served in the step that takes it, so no proxy-table entry stands between steps. -/
def State.snapGate (s : State) (g : Nat) : List Byte :=
  let port (j : Nat) : List Byte := bytesOf 1 (s.erhState (9 * g + j)) ++
    ((List.range 4).map fun v => bytesOf 2 (creditsOf (s.erhPort (9 * g + j)).credits v) ++ bytesOf 2 0).flatten
  let held := s.lk.cmds.filter fun c => decide (c.phase = .ready ∨ c.phase = .scheduled) && decide (c.dies.length > 1)
  let run := s.erh.runs.find? fun e => (NMap.get? s.erh.groups e.1).any fun q => bitAt q.engines.toNat g
  rspOf [(0, 1, g), (8, 153, ofBytes ((List.range 9).map port).flatten), (161, 2, 0), (163, 2, if g = 0 then held.length else 0),
    (165, 2, (run.map (·.1)).getD 0), (167, 8, (run.map (·.2.gen)).getD 0), (175, 337, 0)]

/-- The hang snapshot's bytes, as many whole sections as fit (R433). -/
def State.hangSnapshot (s : State) (tSnap size : Nat) : List Byte :=
  let trunc := if size < 104704 then 1 else 0
  let head := rspOf [(0, 4, 0x5348585A), (4, 2, 1), (6, 1, trunc), (7, 1, s.bootCode), (8, 8, tSnap), (16, 8, s.fwVersion.toNat),
    (24, 8, s.rel.snapshots + 1), (32, 224, 0)]
  (if size < 256 then [] else head) ++
  (if size < 65792 then [] else ((List.range 1024).map s.snapCtx).flatten) ++
  (if size < 102656 then [] else ((List.range 72).map s.snapDie).flatten) ++
  (if size < 104704 then [] else ((List.range 4).map s.snapGate).flatten)

/-- SNAPSHOT: the capture time is 10 µs away. -/
def execSnapshot (mb : Mbox) (s : State) : Out := s.onReq mb 0x0702 fun r => s.bgBegin mb r []

/-- The end of a SNAPSHOT: what was captured is written to operator pages. -/
def bgSnapshot (g : Bg) (s : State) : Out :=
  let at' := g.since + 10000
  need (decide (at' ≤ s.clk.now)) .notArmed <|
  let bs := s.hangSnapshot at' (g.req.num 8 4)
  let s := s.modRel fun x => { x with snapshots := x.snapshots + 1 }
  .next (match s.paWrite .operator (g.req.num 0 8) bs with
    | (st, w, s) =>
      if w then s.modRel fun x => { x with snapshots := x.snapshots - 1 }
      else if st ≠ 0 then s.bgEnd g.id (namedSt st) (bytesOf 4 0)
      else s.bgEnd g.id 0 (bytesOf 4 bs.length))

end Sys2Proof.Machine
end

