-- ==== Sys2Proof/Machine/MbxLinks.lean ====
section
/-! DEFINITION. Mailbox operations on the links (Table 13.9). -/

namespace Sys2Proof.Machine

/-! ## Erhar -/

/-- DEV_ID_SET: only while no port is active. -/
def execDevIdSet (mb : Mbox) (s : State) : Out :=
  s.onReq mb 0x0800 fun r =>
    let v := r.num 0 4
    if s.erhBusy then s.mbFail mb 0x5901
    else (s.setReg (ghBase 0 + 0x20000) (BitVec.ofNat 64 (fld v 31 31 * 2 ^ 63 + fld v 17 0))).mbOk mb []

/-- Whether a route entry's COUNT and ports are in range (R286). -/
def routeEntryOk (e : Nat) : Bool :=
  decide (fld e 26 24 ≤ 4) && (List.range (fld e 26 24)).all fun i => decide (fld e (6 * i + 5) (6 * i) < 36)

/-- ROUTE_WRITE: entries of the inactive bank, which is not written while OLD_BUSY is set (R289). -/
def execRouteWrite (mb : Mbox) (s : State) : Out :=
  s.onReq mb 0x0801 fun r =>
    let part := r.num 0 1
    let first := r.num 2 2
    let n := r.num 4 2
    let es := (List.range n).map fun i => r.num (8 + 4 * i) 4
    let bank := if s.rbit erhRctlA 32 then 0x22000 else 0x23000
    if part > 1 ∨ n = 0 ∨ n > 512 ∨ first + n > 512 then s.mbFail mb 0x6903
    else if es.any fun e => decide (e ≥ 2 ^ 27) then s.mbFail mb 0x6001
    else if !es.all routeEntryOk then s.mbFail mb 0x6903
    else if s.rbit erhRctlA 40 then s.mbFail mb 0x2901
    else
      ((List.range n).foldl (fun (s : State) i =>
        let a := bank + part * 0x800 + (first + i) * 4
        let sh := 8 * (a % 8)
        s.erhBankWrite (a - a % 8) (BitVec.ofNat 64 (es.getD i 0 * 2 ^ sh)) (BitVec.ofNat 64 (0xFFFFFFFF * 2 ^ sh))) s).mbOk mb []

/-- ROUTE_COMMIT: the other bank is selected and committed; nothing stays pending. -/
def execRouteCommit (mb : Mbox) (s : State) : Out :=
  s.onReq mb 0x0802 fun _ => ((s.setRbit erhRctlA 0 (!s.rbit erhRctlA 32)).erhCommit).mbOk mb []

/-- PORT_CTL. -/
def execPortCtl (mb : Mbox) (s : State) : Out :=
  s.onReq mb 0x0803 fun r =>
    let p := r.num 0 1
    let act := r.num 1 1
    if p ≥ 36 ∨ act > 5 then s.mbFail mb 0x6903
    else if s.panel.fencedGh.contains (p / 9) then s.mbFail mb 0x3002
    else
      (match act with
        | 0 => s.erhRetrainW p
        | 1 => s.erhForceW p true
        | 2 => s.erhForceW p false
        | 3 => s.erhRestoreW p
        | 4 => s.setRbit (erhCtlA p) 60 true
        | _ => s.setRbit (erhCtlA p) 60 false).mbOk mb []

/-! ## Cuts -/

/-- CUT_CTL: BUNDLE_OFF takes effect at the port's next retrain. -/
def execCutCtl (mb : Mbox) (s : State) : Out :=
  s.onReq mb 0x0805 fun r =>
    let t := r.num 0 1
    let p := r.num 1 1
    let act := r.num 2 1
    if t ≥ 76 ∨ act > 4 ∨ p ≥ (if t < 72 then 6 else 10) then s.mbFail mb 0x6903
    else if t < 72 ∧ !s.present t then s.mbFail mb 0x3002
    else if !s.hasCut t p then s.mbFail mb 0x6903
    else
      (match act with
        | 0 => s.cutRetrainW t p
        | 1 => s.cutForceW t p true
        | 2 => s.cutForceW t p false
        | 3 => s.cutRestoreW t p
        | _ => s.setRfld (cutCtlA t p) 8 0 (r.num 4 2)).mbOk mb []

/-! ## Spans, groups, time -/

/-- SPAN_SET (R290). -/
def execSpanSet (mb : Mbox) (s : State) : Out :=
  s.onReq mb 0x0806 fun r =>
    let b := r.num 0 1
    let id := r.num 4 4
    let lo := r.num 8 4
    let hi := r.num 12 4
    if b = 0 ∨ b > 254 ∨ id ≥ 2 ^ 24 ∨ (id ≠ 0 ∧ (lo > hi ∨ hi ≥ 2 ^ 18)) then s.mbFail mb 0x6903
    else if !s.berthActive b then s.mbFail mb 0x2901
    else if id ≠ 0 ∧ s.erh.spans.any fun e => e.1 != b && e.2.id == id then s.mbFail mb 0x2902
    else
      (s.modErh fun e => { e with
        spans := if id = 0 then NMap.erase e.spans b else NMap.put e.spans b { id := id, lo := lo, hi := hi } }).mbOk mb []

/-- Bytes 0 to 63 of a group entry (Table 11.8), over what the device has counted of the group. -/
def groupOf (b : List Byte) (old : Option Group) : Group :=
  { flags := BitVec.ofNat 16 (rdLE b 0 2), berth := rdLE b 2 1, engines := BitVec.ofNat 8 (rdLE b 3 1), rank := rdLE b 4 4
    size := rdLE b 8 4, parent := rdLE b 12 4, nchild := rdLE b 16 1, child := (List.range 8).map fun i => rdLE b (20 + 3 * i) 3
    arrive := BitVec.ofNat 16 (rdLE b 44 2), release := BitVec.ofNat 16 (rdLE b 46 2), localCnt := rdLE b 48 4
    desc := rdLE b 56 8, gen := (old.map (·.gen)).getD 0, agen := (old.map (·.agen)).getD 0
    lastCount := (old.map (·.lastCount)).getD 0, lastInfo := (old.map (·.lastInfo)).getD 0
    lastStatus := (old.map (·.lastStatus)).getD 0, drainFlags := (old.map (·.drainFlags)).getD 0 }

/-- Whether a group entry has a reserved bit set. -/
def Group.reservedBad (g : Group) (b : List Byte) : Bool :=
  decide (g.flags.toNat > 3) || decide (g.engines.toNat > 15) || decide (g.parent ≥ 2 ^ 18) || !zeroAt b 17 3 || !zeroAt b 52 4 ||
  g.child.any (fun c => decide (c ≥ 2 ^ 18)) ||
  [g.arrive, g.release].any fun w => bitAt w.toNat 14 || (!bitAt w.toNat 15 && w != 0)

/-- Whether a VALID group entry has a field out of range. -/
def Group.rangeBad (g : Group) : Bool :=
  g.engines == 0 || decide (g.size < 1) || decide (g.size > 262144) || decide (g.rank ≥ g.size) || decide (g.nchild > 8) ||
  decide (g.localCnt < 1) || decide (g.localCnt > 36864)

/-- GROUP_SET: a berth sets groups of its own; the counts of the group's earlier generations stand. -/
def execGroupSet (mb : Mbox) (s : State) : Out :=
  s.onReq mb 0x080A fun r =>
    let n := r.num 0 2
    let b := (r.payload.drop 8).take 64
    let old := NMap.get? s.erh.groups n
    let g := groupOf b old
    let mine : Bool := match mb with
      | .op => true
      | .berth k => g.berth == k && old.all fun o => o.berth == k || !bitAt o.flags.toNat 0
    let valid := bitAt g.flags.toNat 0
    if n < 1 ∨ n > 4095 then s.mbFail mb 0x6903
    else if g.reservedBad b then s.mbFail mb 0x6001
    else if !mine then s.mbFail mb 0x4901
    else if valid ∧ g.rangeBad then s.mbFail mb 0x6903
    else if valid ∧ !s.berthActive g.berth then s.mbFail mb 0x2901
    else if valid ∧ !([g.arrive, g.release].all fun w => s.idOk g.berth w.toNat) then s.mbFail mb 0x4002
    else if NMap.has s.erh.runs n then s.mbFail mb 0x5901
    else (s.modErh fun e => { e with groups := NMap.put e.groups n g }).mbOk mb []

/-- TSYNC_SET: the state starts from FREE (Table 11.9). -/
def execTsyncSet (mb : Mbox) (s : State) : Out :=
  s.onReq mb 0x080B fun r =>
    let role := r.num 0 1
    let up := r.num 1 1
    if role > 2 ∨ up ≥ 36 ∨ r.num 2 1 > 1 ∨ r.num 3 1 > 1 then s.mbFail mb 0x6903
    else
      (s.modErh fun e => { e with
        role := role, upstream := up, ppsEn := r.num 2 1 == 1, stepAllowed := r.num 3 1 == 1, sync := .free, inBound := 0
        missed := 0, pendingT := false, ppsLast := none, ppsIgnored := 0 }).mbOk mb []

end Sys2Proof.Machine
end

