-- ==== Sys2Proof/Machine/MbxMaint.lean ====
section
/-! DEFINITION. Mailbox operations of maintenance (Table 13.10), and the abort and the end of background operations (R334,
R338). -/

namespace Sys2Proof.Machine

/-! ## Firmware (R344) -/

/-- FW_STAGE: another TOTAL starts the staging again. -/
def execFwStage (mb : Mbox) (s : State) : Out :=
  s.onReq mb 0x0900 fun r =>
    let off := r.num 0 4
    let tot := r.num 4 4
    let data := r.payload.drop 8
    if tot = 0 ∨ tot > 0x4000000 ∨ off + data.length > tot then s.mbFail mb 0x6903
    else
      (s.modSec fun x =>
        let kept : NMap Byte := if x.stagedTotal = tot then x.staged else []
        { x with
          staged := (List.range data.length).foldl (fun (m : NMap Byte) i => NMap.put m (off + i) (byteAt data i)) kept
          stagedTotal := tot, fwState := 1 }).mbOk mb []

/-- The image that a slot of FW_ACTIVATE names; none where staging is not complete. -/
def State.slotImage (s : State) (slot : Nat) : Option (List Byte) :=
  if slot = 0 then (if s.sec.stagedTotal ≠ 0 ∧ s.sec.staged.length = s.sec.stagedTotal then some s.stagedImage else none)
  else some s.sec.previous

/-- FW_ACTIVATE: while no other background operation runs. -/
def execFwActivate (mb : Mbox) (s : State) : Out :=
  s.onReq mb 0x0901 fun r =>
    if r.num 0 1 > 1 then s.mbFail mb 0x6903
    else if s.bgRuns then s.mbFail mb 0x5901
    else if (s.slotImage (r.num 0 1)).isNone then s.mbFail mb 0x2901
    else (s.modSec fun x => { x with fwState := 2 }).bgBegin mb r []

/-- The verification of a FW_ACTIVATE: on failure the staging area is cleared; on success the switch begins, once the accepted
foreground requests are done (R345). FW_SWITCH_END ends the operation. -/
def bgFwActivate (g : Bg) (s : State) : Out :=
  let slot := g.req.num 0 1
  let st := s.sec.fuses.checkImage ((s.slotImage slot).getD [])
  if st ≠ 0 then .next ((s.modSec fun x => { x with staged := [], stagedTotal := 0, fwState := 0 }).bgEnd g.id st [])
  else
    need (s.mbx.pages.all fun p => p.2.req.isNone) .notArmed <|
    .next ((s.modSec fun x => { x with fwState := 3, switchSlot := slot, switchBg := g.id }).modMbx fun m =>
      { m with switching := true })

/-- FW_QUERY: the versions are those of the images' headers. -/
def execFwQuery (mb : Mbox) (s : State) : Out :=
  s.onReq mb 0x0902 fun _ =>
    let staged := ofBytes ((List.range 8).map fun i => NMap.getD s.sec.staged (8 + i) 0)
    s.mbOk mb (rspOf [(0, 8, s.fwVersion.toNat), (8, 8, rdLE s.sec.previous 8 8), (16, 8, staged), (24, 4, s.sec.staged.length),
      (28, 1, s.sec.fwState)])

/-! ## Stacks of sites out of service -/

/-- The site that DRAM_INIT or DRAM_MARGIN names, or the status that the request fails with. -/
def State.outSite (s : State) (n : Nat) : Status × Nat :=
  if n < 72 then (if s.present n then 0x2D01 else 0x3002, 0)
  else if n < 0x80 ∨ n ≥ 0x80 + 80 then (0x6903, 0)
  else match s.site (n - 0x80) with
    | .inService _ => (0x2D01, 0)
    | _ => (0, n - 0x80)

/-- DRAM_INIT: the named channels of a site out of service. Its stack has no device address, so its bytes are no part of the
state (log entry 7). -/
def execDramInit (mb : Mbox) (s : State) : Out :=
  s.onReq mb 0x0903 fun r => match s.outSite (r.num 0 1) with
    | (0, _) => s.bgBegin mb r []
    | (st, _) => s.mbFail mb st

/-- Whether the edges of a margining pass (Table 8.9): AXIS 0 and 1 timing, 2 and 3 reference voltage. -/
def marginPass (axis : Nat) (lower upper : Int) : Bool :=
  let (range, least) : Int × Int := if axis < 2 then (24, 8) else (16, 5)
  decide (upper - lower ≥ range) && decide (lower ≤ -least) && decide (upper ≥ least)

/-- DRAM_MARGIN: `lower` and `upper` are the edges that the steps of R222 find. -/
def execDramMargin (mb : Mbox) (lower upper : Int) (s : State) : Out :=
  s.onReq mb 0x0904 fun r =>
    let axis := r.num 2 1
    if r.num 1 1 > 63 ∨ axis > 3 then s.mbFail mb 0x6903
    else match s.outSite (r.num 0 1) with
      | (0, _) => s.bgBegin mb r [ofSigned 8 lower, ofSigned 8 upper, if marginPass axis lower upper then 1 else 0]
      | (st, _) => s.mbFail mb st

/-- DIE_REPAIR: phase A of R417 begins; the repair's end ends the operation. -/
def execDieRepair (mb : Mbox) (s : State) : Out :=
  s.onReq mb 0x0905 fun r =>
    let d := r.num 0 1
    if d ≥ 72 then s.mbFail mb 0x6903
    else match s.siteOf d, s.rowStandby d with
      | none, _ => s.mbFail mb 0x3002
      | _, none => s.mbFail mb 0x2901
      | some o, some n =>
        if s.panel.repair.isSome then s.mbFail mb 0x5901
        else if s.bgCount mb ≥ 8 then s.mbFail mb 0x5902
        else
          let id := s.mbx.nextBg
          (s.modPanel fun p => { p with
            repair := some { die := d, oldSite := o, newSite := n, phase := 1, passes := 0, dirty := [], bg := some id }
            repairQ := p.repairQ.filter (· != d) }).bgBegin mb r []

/-! ## Abort and end -/

/-- Stops a running background operation at its next safe point; nothing done is undone. A handover past its save goes on to
release the pages that it has unmapped, and a seal cannot be stopped. -/
def State.bgStop (s : State) (g : Bg) : State := match g.req.opcode.toNat with
  | 0x0110 => (s.setAllDrop g).bgEnd g.id 0x2904 []
  | 0x0111 => (s.setAllDrop g).bgEnd g.id 0x2904 []
  | 0x0112 => (s.setAllDrop g).bgEnd g.id 0x2904 []
  | 0x0205 => if g.aux.headD 0 = 1 then s.bgAux g.id (1 :: 0x2904 :: g.aux.drop 2) else s.bgEnd g.id 0x2904 []
  | 0x0901 => (s.modSec fun x => { x with fwState := if x.staged.isEmpty then 0 else 1 }).bgEnd g.id 0x2904 []
  | 0x0905 => s.repairDone 0x2904 []
  | _ => s.bgEnd g.id 0x2904 []

/-- BG_ABORT: of a running operation of the same mailbox. -/
def execBgAbort (mb : Mbox) (s : State) : Out :=
  s.onReq mb 0x0103 fun r => match s.namedBg mb (r.num 0 4) with
    | (_, some g) =>
      if g.ended then s.mbFail mb 0x2901
      else if g.req.opcode = 0x0302 ∨ (g.req.opcode = 0x0901 ∧ s.mbx.switching) then s.mbFail mb 0x5901
      else (s.bgStop g).mbOk mb []
    | (st, none) => s.mbFail mb st

/-- BG_OPERATION_END: a background operation goes on as far as it can, and ends where nothing is left to do (R334). A set-all, a
copy or a capture that is not over yet, and a die repair, which its own events end, are not armed. -/
def execBgOperationEnd (bg : Nat) (s : State) : Out :=
  need (s.mbRuns && s.pwr.boot == .service) .blockDown <|
  needSome ((s.bg? bg).filter (!·.ended)) .notPending fun g =>
  match g.req.opcode.toNat with
  | 0x0110 => bgWindow g s
  | 0x0111 => bgSpread g s
  | 0x0112 => bgFin g s
  | 0x0201 => bgBerthDestroy g s
  | 0x0202 => bgBerthReset g s
  | 0x0205 => bgHandover g s
  | 0x0300 => bgCargoOpen g s
  | 0x0302 => bgCargoSeal g s
  | 0x0305 => bgCargoUnload g s
  | 0x0505 => bgUnitRetire g s
  | 0x0702 => bgSnapshot g s
  | 0x0901 => bgFwActivate g s
  | 0x0903 => .next (s.bgEnd bg 0 [])
  | 0x0904 => .next (s.bgEnd bg 0 (rspOf [(0, 1, g.aux.getD 0 0), (1, 1, g.aux.getD 1 0), (2, 1, g.aux.getD 2 0)]))
  | _ => .fault .notArmed

end Sys2Proof.Machine
end

