-- ==== Sys2Proof/Machine/Dispatch.lean ====
section
/-! DEFINITION. The dispatch: one arm per command of the table, each a call of its meaning. -/

namespace Sys2Proof.Machine

/-- What a command does to everything but the queue of waiting commands. -/
def exec (i : Instr) (s : State) : Host.Outcome State Fault Refusal :=
  match i with
  | .tsub t rd rs1 rs2 => Sys2Proof.Machine.execTsub t rd rs1 rs2 s
  | .twait t rd rs1 rs2 => Sys2Proof.Machine.execTwait t rd rs1 rs2 s
  | .tpoll t rd rs1 rs2 => Sys2Proof.Machine.execTpoll t rd rs1 rs2 s
  | .twaitAcq t rd rs1 rs2 => Sys2Proof.Machine.execTwaitAcq t rd rs1 rs2 s
  | .twaitResume t => Sys2Proof.Machine.execTwaitResume t s
  | .hld t rd rs1 rs2 rs3 f2 => Sys2Proof.Machine.execHld t rd rs1 rs2 rs3 f2 s
  | .hst t rd rs1 rs2 rs3 f2 => Sys2Proof.Machine.execHst t rd rs1 rs2 rs3 f2 s
  | .gath t rd rs1 rs2 f7 => Sys2Proof.Machine.execGath t rd rs1 rs2 f7 s
  | .scat t rd rs1 rs2 f7 => Sys2Proof.Machine.execScat t rd rs1 rs2 f7 s
  | .transferComplete t ticket u => Sys2Proof.Machine.execTransferComplete t ticket u s
  | .fenceAcq t rd rs1 rs2 => Sys2Proof.Machine.execFenceAcq t rd rs1 rs2 s
  | .fenceRel t rd rs1 rs2 => Sys2Proof.Machine.execFenceRel t rd rs1 rs2 s
  | .fenceFull t rd rs1 rs2 => Sys2Proof.Machine.execFenceFull t rd rs1 rs2 s
  | .fenceI t => Sys2Proof.Machine.execFenceI t s
  | .bpref t rd rs1 rs2 => Sys2Proof.Machine.execBpref t rd rs1 rs2 s
  | .bwb t rd rs1 rs2 => Sys2Proof.Machine.execBwb t rd rs1 rs2 s
  | .binv t rd rs1 rs2 => Sys2Proof.Machine.execBinv t rd rs1 rs2 s
  | .spentB t rd rs1 rs2 => Sys2Proof.Machine.execSpentB t rd rs1 rs2 s
  | .spentH t rd rs1 rs2 => Sys2Proof.Machine.execSpentH t rd rs1 rs2 s
  | .ldaq t rd rs1 rs2 f7 u => Sys2Proof.Machine.execLdaq t rd rs1 rs2 f7 u s
  | .sdrl t rd rs1 rs2 f7 => Sys2Proof.Machine.execSdrl t rd rs1 rs2 f7 s
  | .mpop t rd rs1 rs2 => Sys2Proof.Machine.execMpop t rd rs1 rs2 s
  | .mpush t rd rs1 rs2 => Sys2Proof.Machine.execMpush t rd rs1 rs2 s
  | .ctradd t rd rs1 rs2 => Sys2Proof.Machine.execCtradd t rd rs1 rs2 s
  | .ctrwait t rd rs1 rs2 => Sys2Proof.Machine.execCtrwait t rd rs1 rs2 s
  | .ctrwaitResume t => Sys2Proof.Machine.execCtrwaitResume t s
  | .ctrread t rd rs1 rs2 => Sys2Proof.Machine.execCtrread t rd rs1 rs2 s
  | .kresume t rd rs1 rs2 => Sys2Proof.Machine.execKresume t rd rs1 rs2 s
  | .kexit t rd rs1 rs2 => Sys2Proof.Machine.execKexit t rd rs1 rs2 s
  | .amofaddW t rd rs1 rs2 aq rl u => Sys2Proof.Machine.execAmofaddW t rd rs1 rs2 aq rl u s
  | .amo t rd rs1 rs2 op width aq rl u => Sys2Proof.Machine.execAmo t rd rs1 rs2 op width aq rl u s
  | .lr t rd rs1 dword aq rl u => Sys2Proof.Machine.execLr t rd rs1 dword aq rl u s
  | .sc t rd rs1 rs2 dword aq rl => Sys2Proof.Machine.execSc t rd rs1 rs2 dword aq rl s
  | .ecall t => Sys2Proof.Machine.execEcall t s
  | .ebreak t c => Sys2Proof.Machine.execEbreak t c s
  | .threadLoad t form rs1 imm c u => Sys2Proof.Machine.execThreadLoad t form rs1 imm c u s
  | .threadStore t form rs1 imm c => Sys2Proof.Machine.execThreadStore t form rs1 imm c s
  | .watchFire ctx => Sys2Proof.Machine.execWatchFire ctx s
  | .watchBackstop home => Sys2Proof.Machine.execWatchBackstop home s
  | .watchRefetch port ctx => Sys2Proof.Machine.execWatchRefetch port ctx s
  | .seqReread ctx => Sys2Proof.Machine.execSeqReread ctx s
  | .run ctx seq => Sys2Proof.Machine.execRun ctx seq s
  | .signal ctx seq => Sys2Proof.Machine.execSignal ctx seq s
  | .passage ctx seq => Sys2Proof.Machine.execPassage ctx seq s
  | .convoyStep ctx seq => Sys2Proof.Machine.execConvoyStep ctx seq s
  | .commandReady ctx seq => Sys2Proof.Machine.execCommandReady ctx seq s
  | .multiDieSchedule ctx seq => Sys2Proof.Machine.execMultiDieSchedule ctx seq s
  | .prescan ctx seq u => Sys2Proof.Machine.execPrescan ctx seq u s
  | .anchorGeneration ctx seq groupMax => Sys2Proof.Machine.execAnchorGeneration ctx seq groupMax s
  | .preempt ctx seq => Sys2Proof.Machine.execPreempt ctx seq s
  | .preemptSpillDone ctx seq => Sys2Proof.Machine.execPreemptSpillDone ctx seq s
  | .restore ctx seq => Sys2Proof.Machine.execRestore ctx seq s
  | .commandComplete ctx seq => Sys2Proof.Machine.execCommandComplete ctx seq s
  | .maxDurExpire ctx seq => Sys2Proof.Machine.execMaxDurExpire ctx seq s
  | .tileDispatch die te draw u => Sys2Proof.Machine.execTileDispatch die te draw u s
  | .tileComplete die te det defect => Sys2Proof.Machine.execTileComplete die te det defect s
  | .reRun die te u => Sys2Proof.Machine.execReRun die te u s
  | .cuppingCopy die te det defect u => Sys2Proof.Machine.execCuppingCopy die te det defect u s
  | .tileSteal die te src u => Sys2Proof.Machine.execTileSteal die te src u s
  | .replay ctx seq => Sys2Proof.Machine.execReplay ctx seq s
  | .arithIdleStop die east => Sys2Proof.Machine.execArithIdleStop die east s
  | .slackWindow die rates => Sys2Proof.Machine.execSlackWindow die rates s
  | .unitRetirementDone die core lunit => Sys2Proof.Machine.execUnitRetirementDone die core lunit s
  | .selftestStart die core slot => Sys2Proof.Machine.execSelftestStart die core slot s
  | .selftestChunkEnd die pass => Sys2Proof.Machine.execSelftestChunkEnd die pass s
  | .selftestAbandon die => Sys2Proof.Machine.execSelftestAbandon die s
  | .rdU req line secs u => Sys2Proof.Machine.execRdU req line secs u s
  | .rdS req line starve u => Sys2Proof.Machine.execRdS req line starve u s
  | .rdX req line starve u => Sys2Proof.Machine.execRdX req line starve u s
  | .upg req line starve => Sys2Proof.Machine.execUpg req line starve s
  | .look req line secs u => Sys2Proof.Machine.execLook req line secs u s
  | .atN req pa op width operand comparand u => Sys2Proof.Machine.execAtN req pa op width operand comparand u s
  | .redU req line redOp bytes => Sys2Proof.Machine.execRedU req line redOp bytes s
  | .spd req line secs => Sys2Proof.Machine.execSpd req line secs s
  | .wbU req line bytes => Sys2Proof.Machine.execWbU req line bytes s
  | .wbD die line => Sys2Proof.Machine.execWbD die line s
  | .wbK die line => Sys2Proof.Machine.execWbK die line s
  | .inv die line => Sys2Proof.Machine.execInv die line s
  | .fwdS die line => Sys2Proof.Machine.execFwdS die line s
  | .fwdX die line => Sys2Proof.Machine.execFwdX die line s
  | .snpCur die line => Sys2Proof.Machine.execSnpCur die line s
  | .invAck die line => Sys2Proof.Machine.execInvAck die line s
  | .fwdAck die line => Sys2Proof.Machine.execFwdAck die line s
  | .dataU die line => Sys2Proof.Machine.execDataU die line s
  | .dataS die line => Sys2Proof.Machine.execDataS die line s
  | .dataX die line => Sys2Proof.Machine.execDataX die line s
  | .gntX die line => Sys2Proof.Machine.execGntX die line s
  | .wbAck die line => Sys2Proof.Machine.execWbAck die line s
  | .nack die line jitter => Sys2Proof.Machine.execNack die line jitter s
  | .nackRetry die line => Sys2Proof.Machine.execNackRetry die line s
  | .err die line => Sys2Proof.Machine.execErr die line s
  | .flushHome die slice => Sys2Proof.Machine.execFlushHome die slice s
  | .cleanFar die slice => Sys2Proof.Machine.execCleanFar die slice s
  | .flushHomeAndCleanFar die slice => Sys2Proof.Machine.execFlushHomeAndCleanFar die slice s
  | .basinMaintDone die => Sys2Proof.Machine.execBasinMaintDone die s
  | .farQuotaWrite src die slice value => Sys2Proof.Machine.execFarQuotaWrite src die slice value s
  | .farQuotaApply die slice => Sys2Proof.Machine.execFarQuotaApply die slice s
  | .windowCommit src die w => Sys2Proof.Machine.execWindowCommit src die w s
  | .spreadCommit src die set => Sys2Proof.Machine.execSpreadCommit src die set s
  | .finCtlCommit src die => Sys2Proof.Machine.execFinCtlCommit src die s
  | .inject src die value => Sys2Proof.Machine.execInject src die value s
  | .dramMgnStart src site => Sys2Proof.Machine.execDramMgnStart src site s
  | .dramMgnDone site errs => Sys2Proof.Machine.execDramMgnDone site errs s
  | .clkCtlCommit src die => Sys2Proof.Machine.execClkCtlCommit src die s
  | .fabEcoWrite src die value => Sys2Proof.Machine.execFabEcoWrite src die value s
  | .routeCtlCommit src router => Sys2Proof.Machine.execRouteCtlCommit src router s
  | .epochBroadcast => Sys2Proof.Machine.execEpochBroadcast s
  | .cutRetrain src router p => Sys2Proof.Machine.execCutRetrain src router p s
  | .cutForceDown src router p on => Sys2Proof.Machine.execCutForceDown src router p on s
  | .cutRestore src router p => Sys2Proof.Machine.execCutRestore src router p s
  | .bmapRootWrite src berth bank value => Sys2Proof.Machine.execBmapRootWrite src berth bank value s
  | .bmapCommit src berth => Sys2Proof.Machine.execBmapCommit src berth s
  | .erhRctlCommit src => Sys2Proof.Machine.execErhRctlCommit src s
  | .erhRetrain src port => Sys2Proof.Machine.execErhRetrain src port s
  | .erhForceDown src port on => Sys2Proof.Machine.execErhForceDown src port on s
  | .erhRestore src port => Sys2Proof.Machine.execErhRestore src port s
  | .hdmDecoderCommit port n base size ways hdmDb => Sys2Proof.Machine.execHdmDecoderCommit port n base size ways hdmDb s
  | .hdmDecoderUncommit port n => Sys2Proof.Machine.execHdmDecoderUncommit port n s
  | .registerWrite src addr bytes value => Sys2Proof.Machine.execRegisterWrite src addr bytes value s
  | .rowRetireDone die chan layer bank row u => Sys2Proof.Machine.execRowRetireDone die chan layer bank row u s
  | .patrolScrub die sector u => Sys2Proof.Machine.execPatrolScrub die sector u s
  | .dramRefresh die chan layer bank row => Sys2Proof.Machine.execDramRefresh die chan layer bank row s
  | .dramThermalSample die quarterC => Sys2Proof.Machine.execDramThermalSample die quarterC s
  | .stopReadTimeout die idx => Sys2Proof.Machine.execStopReadTimeout die idx s
  | .cutFrame router p f => Sys2Proof.Machine.execCutFrame router p f s
  | .cutReplay router p => Sys2Proof.Machine.execCutReplay router p s
  | .cutPacketForward router inPort pkt => Sys2Proof.Machine.execCutPacketForward router inPort pkt s
  | .cutTrain router p r => Sys2Proof.Machine.execCutTrain router p r s
  | .cutTrainDone router p => Sys2Proof.Machine.execCutTrainDone router p s
  | .cutFreezeTimeout router p peerSeq => Sys2Proof.Machine.execCutFreezeTimeout router p peerSeq s
  | .cutDown router p peerSeq => Sys2Proof.Machine.execCutDown router p peerSeq s
  | .erhFrame port f => Sys2Proof.Machine.execErhFrame port f s
  | .erhTrain port r => Sys2Proof.Machine.execErhTrain port r s
  | .erhFreezeTimeout port peerSeq => Sys2Proof.Machine.execErhFreezeTimeout port peerSeq s
  | .erhPortDown port peerSeq => Sys2Proof.Machine.execErhPortDown port peerSeq s
  | .put port pkt => Sys2Proof.Machine.execPut port pkt s
  | .putAck pkt => Sys2Proof.Machine.execPutAck pkt s
  | .get port pkt u => Sys2Proof.Machine.execGet port pkt u s
  | .getData pkt => Sys2Proof.Machine.execGetData pkt s
  | .atomic port pkt u => Sys2Proof.Machine.execAtomic port pkt u s
  | .atomicResp pkt => Sys2Proof.Machine.execAtomicResp pkt s
  | .erhErr pkt => Sys2Proof.Machine.execErhErr pkt s
  | .erhRequestTimeout txn => Sys2Proof.Machine.execErhRequestTimeout txn s
  | .linkMgmt port pkt => Sys2Proof.Machine.execLinkMgmt port pkt s
  | .fwMgmt port pkt => Sys2Proof.Machine.execFwMgmt port pkt s
  | .collArrive group u => Sys2Proof.Machine.execCollArrive group u s
  | .collUp pkt => Sys2Proof.Machine.execCollUp pkt s
  | .collDown pkt => Sys2Proof.Machine.execCollDown pkt s
  | .collFail pkt => Sys2Proof.Machine.execCollFail pkt s
  | .tsync ok => Sys2Proof.Machine.execTsync ok s
  | .tsyncResp t1 t2 t3 t4 aux => Sys2Proof.Machine.execTsyncResp t1 t2 t3 t4 aux s
  | .tsyncHoldover => Sys2Proof.Machine.execTsyncHoldover s
  | .timeCorrection step ns => Sys2Proof.Machine.execTimeCorrection step ns s
  | .ppsIn stamp => Sys2Proof.Machine.execPpsIn stamp s
  | .hostMemRd port addr want tee u => Sys2Proof.Machine.execHostMemRd port addr want tee u s
  | .hostMemWr port addr bytes keep tee => Sys2Proof.Machine.execHostMemWr port addr bytes keep tee s
  | .birsp port line bytes => Sys2Proof.Machine.execBirsp port line bytes s
  | .bisnpTimeout port line => Sys2Proof.Machine.execBisnpTimeout port line s
  | .hostRequestTimeout port => Sys2Proof.Machine.execHostRequestTimeout port s
  | .counterFetchadd src berth offset bytes kind value => Sys2Proof.Machine.execCounterFetchadd src berth offset bytes kind value s
  | .atsInvalidation port pasid iova len => Sys2Proof.Machine.execAtsInvalidation port pasid iova len s
  | .portLost port => Sys2Proof.Machine.execPortLost port s
  | .ideIntegrityFailure port skid => Sys2Proof.Machine.execIdeIntegrityFailure port skid s
  | .perst port => Sys2Proof.Machine.execPerst port s
  | .cxlLinkTrain port width rate flit256 => Sys2Proof.Machine.execCxlLinkTrain port width rate flit256 s
  | .configRequest port offset => Sys2Proof.Machine.execConfigRequest port offset s
  | .identifyCxl => Sys2Proof.Machine.execIdentifyCxl s
  | .getEventRecords log => Sys2Proof.Machine.execGetEventRecords log s
  | .clearEventRecords log handles => Sys2Proof.Machine.execClearEventRecords log handles s
  | .getEventInterruptPolicy => Sys2Proof.Machine.execGetEventInterruptPolicy s
  | .setEventInterruptPolicy pol => Sys2Proof.Machine.execSetEventInterruptPolicy pol s
  | .getLog uuid offset len => Sys2Proof.Machine.execGetLog uuid offset len s
  | .getSupportedLogs => Sys2Proof.Machine.execGetSupportedLogs s
  | .setTimestamp ns => Sys2Proof.Machine.execSetTimestamp ns s
  | .getVersion tr => Sys2Proof.Machine.execGetVersion tr s
  | .getCapabilities tr => Sys2Proof.Machine.execGetCapabilities tr s
  | .negotiateAlgorithms tr rsapss3072 sha384 secp384 aes256gcm => Sys2Proof.Machine.execNegotiateAlgorithms tr rsapss3072 sha384 secp384 aes256gcm s
  | .getDigests tr => Sys2Proof.Machine.execGetDigests tr s
  | .getCertificate tr slot offset len => Sys2Proof.Machine.execGetCertificate tr slot offset len s
  | .challenge tr slot nonce => Sys2Proof.Machine.execChallenge tr slot nonce s
  | .getMeasurements tr op nonce sign => Sys2Proof.Machine.execGetMeasurements tr op nonce sign s
  | .keyExchange tr reqId => Sys2Proof.Machine.execKeyExchange tr reqId s
  | .finish tr session macOk => Sys2Proof.Machine.execFinish tr session macOk s
  | .keyUpdate tr session both => Sys2Proof.Machine.execKeyUpdate tr session both s
  | .endSession tr session => Sys2Proof.Machine.execEndSession tr session s
  | .mailboxOwnerSet mb => Sys2Proof.Machine.execMailboxOwnerSet mb s
  | .mailboxAcceptTimeout mb => Sys2Proof.Machine.execMailboxAcceptTimeout mb s
  | .bgOperationEnd bg => Sys2Proof.Machine.execBgOperationEnd bg s
  | .identify mb => Sys2Proof.Machine.execIdentify mb s
  | .bgStatus mb => Sys2Proof.Machine.execBgStatus mb s
  | .bgAbort mb => Sys2Proof.Machine.execBgAbort mb s
  | .windowSetAll mb => Sys2Proof.Machine.execWindowSetAll mb s
  | .spreadSetAll mb => Sys2Proof.Machine.execSpreadSetAll mb s
  | .setAllTimeout bg => Sys2Proof.Machine.execSetAllTimeout bg s
  | .finImageSetAll mb => Sys2Proof.Machine.execFinImageSetAll mb s
  | .deviceReset mb => Sys2Proof.Machine.execDeviceReset mb s
  | .berthCreate mb => Sys2Proof.Machine.execBerthCreate mb s
  | .berthDestroy mb => Sys2Proof.Machine.execBerthDestroy mb s
  | .berthReset mb => Sys2Proof.Machine.execBerthReset mb s
  | .berthQuery mb => Sys2Proof.Machine.execBerthQuery mb s
  | .berthLimits mb => Sys2Proof.Machine.execBerthLimits mb s
  | .dieHandover mb => Sys2Proof.Machine.execDieHandover mb s
  | .moveListSet mb => Sys2Proof.Machine.execMoveListSet mb s
  | .faultSetup mb => Sys2Proof.Machine.execFaultSetup mb s
  | .accountRead mb => Sys2Proof.Machine.execAccountRead mb s
  | .ctxCreate mb => Sys2Proof.Machine.execCtxCreate mb s
  | .ctxReset mb => Sys2Proof.Machine.execCtxReset mb s
  | .ctxDestroy mb => Sys2Proof.Machine.execCtxDestroy mb s
  | .pagesAlloc mb => Sys2Proof.Machine.execPagesAlloc mb s
  | .pagesFree mb => Sys2Proof.Machine.execPagesFree mb s
  | .pagesAttr mb => Sys2Proof.Machine.execPagesAttr mb s
  | .moorPoolCreate mb => Sys2Proof.Machine.execMoorPoolCreate mb s
  | .moorPoolGrow mb => Sys2Proof.Machine.execMoorPoolGrow mb s
  | .moorPoolRebuild mb => Sys2Proof.Machine.execMoorPoolRebuild mb s
  | .cargoOpen mb => Sys2Proof.Machine.execCargoOpen mb s
  | .cargoSource mb => Sys2Proof.Machine.execCargoSource mb s
  | .cargoSeal mb => Sys2Proof.Machine.execCargoSeal mb s
  | .cargoMap mb => Sys2Proof.Machine.execCargoMap mb s
  | .cargoUnmap mb => Sys2Proof.Machine.execCargoUnmap mb s
  | .cargoUnload mb => Sys2Proof.Machine.execCargoUnload mb s
  | .cargoQuery mb => Sys2Proof.Machine.execCargoQuery mb s
  | .convoyRegister mb => Sys2Proof.Machine.execConvoyRegister mb s
  | .convoyUnregister mb => Sys2Proof.Machine.execConvoyUnregister mb s
  | .cargoRelade page source => Sys2Proof.Machine.execCargoRelade page source s
  | .capSet mb => Sys2Proof.Machine.execCapSet mb s
  | .powerQuery mb => Sys2Proof.Machine.execPowerQuery mb s
  | .ratioLimit mb => Sys2Proof.Machine.execRatioLimit mb s
  | .fabricHalf mb => Sys2Proof.Machine.execFabricHalf mb s
  | .sigRead mb => Sys2Proof.Machine.execSigRead mb s
  | .tallyRead mb => Sys2Proof.Machine.execTallyRead mb s
  | .tallyClear mb => Sys2Proof.Machine.execTallyClear mb s
  | .cupFloor mb => Sys2Proof.Machine.execCupFloor mb s
  | .selftest mb => Sys2Proof.Machine.execSelftest mb s
  | .unitRetire mb => Sys2Proof.Machine.execUnitRetire mb s
  | .repairList mb => Sys2Proof.Machine.execRepairList mb s
  | .secState mb => Sys2Proof.Machine.execSecState mb s
  | .debugChallenge mb => Sys2Proof.Machine.execDebugChallenge mb s
  | .debugUnlock mb => Sys2Proof.Machine.execDebugUnlock mb s
  | .debugUnlockExpire => Sys2Proof.Machine.execDebugUnlockExpire s
  | .counterCfg mb => Sys2Proof.Machine.execCounterCfg mb s
  | .traceCfg mb => Sys2Proof.Machine.execTraceCfg mb s
  | .snapshot mb => Sys2Proof.Machine.execSnapshot mb s
  | .cfgEvents mb => Sys2Proof.Machine.execCfgEvents mb s
  | .groupStatus mb => Sys2Proof.Machine.execGroupStatus mb s
  | .devIdSet mb => Sys2Proof.Machine.execDevIdSet mb s
  | .routeWrite mb => Sys2Proof.Machine.execRouteWrite mb s
  | .routeCommit mb => Sys2Proof.Machine.execRouteCommit mb s
  | .portCtl mb => Sys2Proof.Machine.execPortCtl mb s
  | .cutCtl mb => Sys2Proof.Machine.execCutCtl mb s
  | .spanSet mb => Sys2Proof.Machine.execSpanSet mb s
  | .peerRegionSet mb => Sys2Proof.Machine.execPeerRegionSet mb s
  | .hostRegionSet mb => Sys2Proof.Machine.execHostRegionSet mb s
  | .pasidSet mb => Sys2Proof.Machine.execPasidSet mb s
  | .groupSet mb => Sys2Proof.Machine.execGroupSet mb s
  | .tsyncSet mb => Sys2Proof.Machine.execTsyncSet mb s
  | .fwStage mb => Sys2Proof.Machine.execFwStage mb s
  | .fwActivate mb => Sys2Proof.Machine.execFwActivate mb s
  | .fwSwitchEnd => Sys2Proof.Machine.execFwSwitchEnd s
  | .fwQuery mb => Sys2Proof.Machine.execFwQuery mb s
  | .dramInit mb => Sys2Proof.Machine.execDramInit mb s
  | .dramMargin mb lower upper => Sys2Proof.Machine.execDramMargin mb lower upper s
  | .dieRepair mb => Sys2Proof.Machine.execDieRepair mb s
  | .repairPhaseADone testOk => Sys2Proof.Machine.execRepairPhaseADone testOk s
  | .repairPassEnd dirtyPages => Sys2Proof.Machine.execRepairPassEnd dirtyPages s
  | .repairSwitch oldReadable => Sys2Proof.Machine.execRepairSwitch oldReadable s
  | .managementRestart => Sys2Proof.Machine.execManagementRestart s
  | .kiltorWatchdog gh => Sys2Proof.Machine.execKiltorWatchdog gh s
  | .capControlStep watts pred => Sys2Proof.Machine.execCapControlStep watts pred s
  | .controllerAbsent die => Sys2Proof.Machine.execControllerAbsent die s
  | .droopDetect die east => Sys2Proof.Machine.execDroopDetect die east s
  | .droopRecover die east ns => Sys2Proof.Machine.execDroopRecover die east ns s
  | .vrAlertN => Sys2Proof.Machine.execVrAlertN s
  | .vrAlertNRelease => Sys2Proof.Machine.execVrAlertNRelease s
  | .flowOk => Sys2Proof.Machine.execFlowOk s
  | .flowOkRelease => Sys2Proof.Machine.execFlowOkRelease s
  | .flowStop => Sys2Proof.Machine.execFlowStop s
  | .moduleStopDone => Sys2Proof.Machine.execModuleStopDone s
  | .pwrGoodInFall => Sys2Proof.Machine.execPwrGoodInFall s
  | .pwrGoodInRise => Sys2Proof.Machine.execPwrGoodInRise s
  | .inputUndervoltage => Sys2Proof.Machine.execInputUndervoltage s
  | .standbyPowerGood modId => Sys2Proof.Machine.execStandbyPowerGood modId s
  | .standbyPowerLost => Sys2Proof.Machine.execStandbyPowerLost s
  | .tempSample unit quarterC => Sys2Proof.Machine.execTempSample unit quarterC s
  | .thermTripRelease => Sys2Proof.Machine.execThermTripRelease s
  | .energyInterval die nJ => Sys2Proof.Machine.execEnergyInterval die nJ s
  | .remoteEnergyGather nJ => Sys2Proof.Machine.execRemoteEnergyGather nJ s
  | .fuseReread anomaly => Sys2Proof.Machine.execFuseReread anomaly s
  | .tamperTrip cause => Sys2Proof.Machine.execTamperTrip cause s
  | .alarmErase => Sys2Proof.Machine.execAlarmErase s
  | .alarmKill readBack => Sys2Proof.Machine.execAlarmKill readBack s
  | .fullBringUp env => Sys2Proof.Machine.execFullBringUp env s
  | .identityDerived ok => Sys2Proof.Machine.execIdentityDerived ok s
  | .traceDrain die => Sys2Proof.Machine.execTraceDrain die s
  | .pldmFirmwareUpdate image => Sys2Proof.Machine.execPldmFirmwareUpdate image s
  | .i3cDynamicAddress setdasa addr => Sys2Proof.Machine.execI3cDynamicAddress setdasa addr s
  | .cutPortReset router p => Sys2Proof.Machine.execCutPortReset router p s
  | .erhPortReset port => Sys2Proof.Machine.execErhPortReset port s
  | .erhPacketRoute port pkt => Sys2Proof.Machine.execErhPacketRoute port pkt s
  | .erhOldBusyClear => Sys2Proof.Machine.execErhOldBusyClear s
  | .hostCacheSnoop port line exclusive => Sys2Proof.Machine.execHostCacheSnoop port line exclusive s
  | .cxlCacheResponse port line data ok own => Sys2Proof.Machine.execCxlCacheResponse port line data ok own s
  | .atsCompletion port pasid iova hpa write => Sys2Proof.Machine.execAtsCompletion port pasid iova hpa write s
  | .ideKm port stream op => Sys2Proof.Machine.execIdeKm port stream op s
  | .tdisp port berth op => Sys2Proof.Machine.execTdisp port berth op s

end Sys2Proof.Machine
end

