-- ==== Sys2Proof/WellFormed.lean ====
section
/-! DEFINITION. Well-formed commands: every unit that a command names exists on the device (R12 to R25, Table 0.3). What a
unit's state allows is checked by the command's meaning, not here. -/

namespace Sys2Proof

/-- A logical die (R12). -/
def inDie (d : Nat) : Bool := decide (d < 72)
/-- A logical die, or 72 plus a gatehouse. -/
def inDieOrGate (n : Nat) : Bool := decide (n < 76)
/-- A logical engine of a die (R12). -/
def inEngine (e : Nat) : Bool := decide (e < 16)
/-- A hardware thread: die x 512 + core x 16 + thread (R88). -/
def inThread (t : Nat) : Bool := decide (t < 36864)
/-- A context of the module (R126). -/
def inCtx (c : Nat) : Bool := decide (c < 1024)
/-- A 128-byte line of a device address (R175). -/
def onLine (a : Nat) : Bool := decide (a % 128 = 0)
/-- A 64-byte host line (R320). -/
def on64 (a : Nat) : Bool := decide (a % 64 = 0)
/-- A 32-byte sector (R173). -/
def onSector (a : Nat) : Bool := decide (a % 32 = 0)
/-- A router: a logical die, 72 plus a gatehouse, or 80 plus a site that runs no logical die (R224). -/
def inRouter (r : Nat) : Bool := decide (r < 76) || (decide (80 ≤ r) && decide (r < 160))
/-- A cut port of a router, by its number: its port code (R236) less 1; a gatehouse has 10, a site 6. -/
def inCutPort (router p : Nat) : Bool := decide (p < (if 72 ≤ router ∧ router < 76 then 10 else 6))
/-- A page of the cargo, counted from 0: at most all pages of the device (R253, Table 0.2). -/
def inCargo (p : Nat) : Bool := decide (p < 72 * 0xC0000)
/-- A gatehouse (R12). -/
def inGatehouse (g : Nat) : Bool := decide (g < 4)
/-- A site (R12). -/
def inSite (t : Nat) : Bool := decide (t < 80)
/-- A collective group (R298). -/
def inGroup (g : Nat) : Bool := decide (1 ≤ g) && decide (g < 4096)
/-- A slice, which is also a channel (R175, R204). -/
def inSlice (n : Nat) : Bool := decide (n < 64)
/-- A slice, or all of them. -/
def inSlices : Option Nat → Bool
  | none => true
  | some n => inSlice n
/-- A DRAM layer (R205). -/
def inLayer (n : Nat) : Bool := decide (n < 12)
/-- A DRAM bank (R205). -/
def inBank (n : Nat) : Bool := decide (n < 64)
/-- A DRAM row (R205). -/
def inRow (n : Nat) : Bool := decide (n < 512)
/-- A map bank (R251). -/
def inMapBank (n : Nat) : Bool := decide (n < 2)
/-- A spread set (R207). -/
def inSet (n : Nat) : Bool := decide (n < 8)
/-- A basin window (R179). -/
def inWindow (n : Nat) : Bool := decide (n < 16)
/-- A berth, or tag 255 of the cargo (R241). -/
def inBerth (b : Nat) : Bool := decide (b < 256)
/-- A CXL port (R310). -/
def inCxlPort (p : Nat) : Bool := decide (p < 2)
/-- An Erhar port (R275). -/
def inErhPort (p : Nat) : Bool := decide (p < 36)
/-- A logical unit of a die: one of 32 cores or 16 engines. -/
def inUnit (core : Bool) (n : Nat) : Bool := decide (n < (if core then 32 else 16))
/-- A physical slot of a die: one of 36 core slots or 20 engine slots (R20). -/
def inUnitSlot (core : Bool) (n : Nat) : Bool := decide (n < (if core then 36 else 20))
/-- A mailbox: the operator's, or berth 1 to 254's (R329). -/
def inMbox : Mbox → Bool
  | .op => true
  | .berth b => decide (1 ≤ b) && decide (b < 255)

/-- The element widths of vector memory instructions (R91). -/
def inEew (n : Nat) : Bool := n == 8 || n == 16 || n == 32 || n == 64

/-- A vector memory form that V 1.0 encodes: element widths of 8 to 64 bits and 1 to 8 fields; it has no immediate. -/
def VForm.ok (v : VForm) : Bool := inEew v.eew && decide (1 ≤ v.nf) && decide (v.nf ≤ 8) && (match v.mode with
  | .indexed _ n => inEew n
  | _ => true)

/-- Whether every unit that a command names exists. -/
def Instr.wf : Instr → Bool
  | .tsub t _ _ _ => inThread t
  | .twait t _ _ _ => inThread t
  | .tpoll t _ _ _ => inThread t
  | .twaitAcq t _ _ _ => inThread t
  | .twaitResume t => inThread t
  | .hld t _ _ _ _ _ => inThread t
  | .hst t _ _ _ _ _ => inThread t
  | .gath t _ _ _ _ => inThread t
  | .scat t _ _ _ _ => inThread t
  | .transferComplete t _ _ => inThread t
  | .fenceAcq t _ _ _ => inThread t
  | .fenceRel t _ _ _ => inThread t
  | .fenceFull t _ _ _ => inThread t
  | .fenceI t => inThread t
  | .bpref t _ _ _ => inThread t
  | .bwb t _ _ _ => inThread t
  | .binv t _ _ _ => inThread t
  | .spentB t _ _ _ => inThread t
  | .spentH t _ _ _ => inThread t
  | .ldaq t _ _ _ _ _ => inThread t
  | .sdrl t _ _ _ _ => inThread t
  | .mpop t _ _ _ => inThread t
  | .mpush t _ _ _ => inThread t
  | .ctradd t _ _ _ => inThread t
  | .ctrwait t _ _ _ => inThread t
  | .ctrwaitResume t => inThread t
  | .ctrread t _ _ _ => inThread t
  | .kresume t _ _ _ => inThread t
  | .kexit t _ _ _ => inThread t
  | .amofaddW t _ _ _ _ _ _ => inThread t
  | .amo t _ _ _ _ _ _ _ _ => inThread t
  | .lr t _ _ _ _ _ _ => inThread t
  | .sc t _ _ _ _ _ _ => inThread t
  | .ecall t => inThread t
  | .ebreak t _ => inThread t
  | .threadLoad t form _ imm c _ => inThread t && (match form with
    | .int _ log2 signed => decide (log2 < 4) && !(log2 == 3 && !signed)
    | .fp _ _ => true
    | .vec v => v.ok && imm == 0 && !c)
  | .threadStore t form _ imm c => inThread t && (match form with
    | .int _ log2 => decide (log2 < 4)
    | .fp _ _ => true
    | .vec v => v.ok && imm == 0 && !c)
  | .watchFire ctx => inCtx ctx
  | .watchBackstop home => decide (home ≤ 72)
  | .watchRefetch port ctx => inCxlPort port && inCtx ctx
  | .seqReread ctx => inCtx ctx
  | .run ctx _ => inCtx ctx
  | .signal ctx _ => inCtx ctx
  | .passage ctx _ => inCtx ctx
  | .convoyStep ctx _ => inCtx ctx
  | .commandReady ctx _ => inCtx ctx
  | .multiDieSchedule ctx _ => inCtx ctx
  | .prescan ctx _ _ => inCtx ctx
  | .anchorGeneration ctx _ _ => inCtx ctx
  | .preempt ctx _ => inCtx ctx
  | .preemptSpillDone ctx _ => inCtx ctx
  | .restore ctx _ => inCtx ctx
  | .commandComplete ctx _ => inCtx ctx
  | .maxDurExpire ctx _ => inCtx ctx
  | .tileDispatch die te _ _ => inDie die && inEngine te
  | .tileComplete die te _ _ => inDie die && inEngine te
  | .reRun die te _ => inDie die && inEngine te
  | .cuppingCopy die te _ _ _ => inDie die && inEngine te
  | .tileSteal die te src _ => inDie die && inEngine te && inDie src
  | .replay ctx _ => inCtx ctx
  | .arithIdleStop die _ => inDie die
  | .slackWindow die _ => inDie die
  | .unitRetirementDone die core lunit => inDie die && inUnit core lunit
  | .selftestStart die core slot => inDie die && inUnitSlot core slot
  | .selftestChunkEnd die _ => inDie die
  | .selftestAbandon die => inDie die
  | .rdU _ line _ _ => onLine line
  | .rdS _ line _ _ => onLine line
  | .rdX _ line _ _ => onLine line
  | .upg _ line _ => onLine line
  | .look _ line _ _ => onLine line
  | .atN _ _ _ _ _ _ _ => true
  | .redU _ line _ _ => onSector line
  | .spd _ line _ => onLine line
  | .wbU _ line _ => onLine line
  | .wbD die line => inDie die && onLine line
  | .wbK die line => inDie die && onLine line
  | .inv die line => inDie die && onLine line
  | .fwdS die line => inDie die && onLine line
  | .fwdX die line => inDie die && onLine line
  | .snpCur die line => inDie die && onLine line
  | .invAck die line => inDie die && onLine line
  | .fwdAck die line => inDie die && onLine line
  | .dataU die line => inDie die && onLine line
  | .dataS die line => inDie die && onLine line
  | .dataX die line => inDie die && onLine line
  | .gntX die line => inDie die && onLine line
  | .wbAck die line => inDie die && onLine line
  | .nack die line _ => inDie die && onLine line
  | .nackRetry die line => inDie die && onLine line
  | .err die line => inDie die && onLine line
  | .flushHome die slice => inDie die && inSlices slice
  | .cleanFar die slice => inDie die && inSlices slice
  | .flushHomeAndCleanFar die slice => inDie die && inSlices slice
  | .basinMaintDone die => inDie die
  | .farQuotaWrite _ die slice _ => inDie die && inSlice slice
  | .farQuotaApply die slice => inDie die && inSlice slice
  | .windowCommit _ die w => inDie die && inWindow w
  | .spreadCommit _ die set => inDie die && inSet set
  | .finCtlCommit _ die => inDie die
  | .inject _ die _ => inDie die
  | .dramMgnStart _ site => inSite site
  | .dramMgnDone site _ => inSite site
  | .clkCtlCommit _ die => inDie die
  | .fabEcoWrite _ die _ => inDie die
  | .routeCtlCommit _ router => inRouter router
  | .epochBroadcast => true
  | .cutRetrain _ router p => inRouter router && inCutPort router p
  | .cutForceDown _ router p _ => inRouter router && inCutPort router p
  | .cutRestore _ router p => inRouter router && inCutPort router p
  | .bmapRootWrite _ berth bank _ => inBerth berth && inMapBank bank
  | .bmapCommit _ berth => inBerth berth
  | .erhRctlCommit _ => true
  | .erhRetrain _ port => inErhPort port
  | .erhForceDown _ port _ => inErhPort port
  | .erhRestore _ port => inErhPort port
  | .hdmDecoderCommit port _ _ _ _ _ => inCxlPort port
  | .hdmDecoderUncommit port _ => inCxlPort port
  | .registerWrite _ _ _ _ => true
  | .rowRetireDone die chan layer bank row _ => inDie die && inSlice chan && inLayer layer && inBank bank && inRow row
  | .patrolScrub die sector _ => inDie die && onSector sector
  | .dramRefresh die chan layer bank row => inDie die && inSlice chan && inLayer layer && inBank bank && decide (row < 516)
  | .dramThermalSample die _ => inDie die
  | .stopReadTimeout die _ => inDie die
  | .cutFrame router p _ => inRouter router && inCutPort router p
  | .cutReplay router p => inRouter router && inCutPort router p
  | .cutPacketForward router inPort _ => inRouter router && decide (inPort ≤ 10)
  | .cutTrain router p _ => inRouter router && inCutPort router p
  | .cutTrainDone router p => inRouter router && inCutPort router p
  | .cutFreezeTimeout router p _ => inRouter router && inCutPort router p
  | .cutDown router p _ => inRouter router && inCutPort router p
  | .erhFrame port _ => inErhPort port
  | .erhTrain port _ => inErhPort port
  | .erhFreezeTimeout port _ => inErhPort port
  | .erhPortDown port _ => inErhPort port
  | .put port _ => inErhPort port
  | .putAck _ => true
  | .get port _ _ => inErhPort port
  | .getData _ => true
  | .atomic port _ _ => inErhPort port
  | .atomicResp _ => true
  | .erhErr _ => true
  | .erhRequestTimeout _ => true
  | .linkMgmt port _ => inErhPort port
  | .fwMgmt port _ => inErhPort port
  | .collArrive group _ => inGroup group
  | .collUp _ => true
  | .collDown _ => true
  | .collFail _ => true
  | .tsync _ => true
  | .tsyncResp _ _ _ _ _ => true
  | .tsyncHoldover => true
  | .timeCorrection _ _ => true
  | .ppsIn _ => true
  | .hostMemRd port _ _ _ _ => inCxlPort port
  | .hostMemWr port _ _ _ _ => inCxlPort port
  | .birsp port line _ => inCxlPort port && onLine line
  | .bisnpTimeout port line => inCxlPort port && onLine line
  | .hostRequestTimeout port => inCxlPort port
  | .counterFetchadd _ berth _ _ _ _ => inBerth berth
  | .atsInvalidation port _ _ _ => inCxlPort port
  | .portLost port => inCxlPort port
  | .ideIntegrityFailure port _ => inCxlPort port
  | .perst port => inCxlPort port
  | .cxlLinkTrain port _ _ _ => inCxlPort port
  | .configRequest port _ => inCxlPort port
  | .identifyCxl => true
  | .getEventRecords _ => true
  | .clearEventRecords _ _ => true
  | .getEventInterruptPolicy => true
  | .setEventInterruptPolicy _ => true
  | .getLog _ _ _ => true
  | .getSupportedLogs => true
  | .setTimestamp _ => true
  | .getVersion _ => true
  | .getCapabilities _ => true
  | .negotiateAlgorithms _ _ _ _ _ => true
  | .getDigests _ => true
  | .getCertificate _ _ _ _ => true
  | .challenge _ _ _ => true
  | .getMeasurements _ _ _ _ => true
  | .keyExchange _ _ => true
  | .finish _ _ _ => true
  | .keyUpdate _ _ _ => true
  | .endSession _ _ => true
  | .mailboxOwnerSet mb => inMbox mb
  | .mailboxAcceptTimeout mb => inMbox mb
  | .bgOperationEnd _ => true
  | .identify mb => inMbox mb
  | .bgStatus mb => inMbox mb
  | .bgAbort mb => inMbox mb
  | .windowSetAll mb => inMbox mb
  | .spreadSetAll mb => inMbox mb
  | .setAllTimeout _ => true
  | .finImageSetAll mb => inMbox mb
  | .deviceReset mb => inMbox mb
  | .berthCreate mb => inMbox mb
  | .berthDestroy mb => inMbox mb
  | .berthReset mb => inMbox mb
  | .berthQuery mb => inMbox mb
  | .berthLimits mb => inMbox mb
  | .dieHandover mb => inMbox mb
  | .moveListSet mb => inMbox mb
  | .faultSetup mb => inMbox mb
  | .accountRead mb => inMbox mb
  | .ctxCreate mb => inMbox mb
  | .ctxReset mb => inMbox mb
  | .ctxDestroy mb => inMbox mb
  | .pagesAlloc mb => inMbox mb
  | .pagesFree mb => inMbox mb
  | .pagesAttr mb => inMbox mb
  | .moorPoolCreate mb => inMbox mb
  | .moorPoolGrow mb => inMbox mb
  | .moorPoolRebuild mb => inMbox mb
  | .cargoOpen mb => inMbox mb
  | .cargoSource mb => inMbox mb
  | .cargoSeal mb => inMbox mb
  | .cargoMap mb => inMbox mb
  | .cargoUnmap mb => inMbox mb
  | .cargoUnload mb => inMbox mb
  | .cargoQuery mb => inMbox mb
  | .convoyRegister mb => inMbox mb
  | .convoyUnregister mb => inMbox mb
  | .cargoRelade page _ => inCargo page
  | .capSet mb => inMbox mb
  | .powerQuery mb => inMbox mb
  | .ratioLimit mb => inMbox mb
  | .fabricHalf mb => inMbox mb
  | .sigRead mb => inMbox mb
  | .tallyRead mb => inMbox mb
  | .tallyClear mb => inMbox mb
  | .cupFloor mb => inMbox mb
  | .selftest mb => inMbox mb
  | .unitRetire mb => inMbox mb
  | .repairList mb => inMbox mb
  | .secState mb => inMbox mb
  | .debugChallenge mb => inMbox mb
  | .debugUnlock mb => inMbox mb
  | .debugUnlockExpire => true
  | .counterCfg mb => inMbox mb
  | .traceCfg mb => inMbox mb
  | .snapshot mb => inMbox mb
  | .cfgEvents mb => inMbox mb
  | .groupStatus mb => inMbox mb
  | .devIdSet mb => inMbox mb
  | .routeWrite mb => inMbox mb
  | .routeCommit mb => inMbox mb
  | .portCtl mb => inMbox mb
  | .cutCtl mb => inMbox mb
  | .spanSet mb => inMbox mb
  | .peerRegionSet mb => inMbox mb
  | .hostRegionSet mb => inMbox mb
  | .pasidSet mb => inMbox mb
  | .groupSet mb => inMbox mb
  | .tsyncSet mb => inMbox mb
  | .fwStage mb => inMbox mb
  | .fwActivate mb => inMbox mb
  | .fwSwitchEnd => true
  | .fwQuery mb => inMbox mb
  | .dramInit mb => inMbox mb
  | .dramMargin mb _ _ => inMbox mb
  | .dieRepair mb => inMbox mb
  | .repairPhaseADone _ => true
  | .repairPassEnd _ => true
  | .repairSwitch _ => true
  | .managementRestart => true
  | .kiltorWatchdog gh => inGatehouse gh
  | .capControlStep _ _ => true
  | .controllerAbsent die => inDie die
  | .droopDetect die _ => inDie die
  | .droopRecover die _ _ => inDie die
  | .vrAlertN => true
  | .vrAlertNRelease => true
  | .flowOk => true
  | .flowOkRelease => true
  | .flowStop => true
  | .moduleStopDone => true
  | .pwrGoodInFall => true
  | .pwrGoodInRise => true
  | .inputUndervoltage => true
  | .standbyPowerGood _ => true
  | .standbyPowerLost => true
  | .tempSample unit _ => inDieOrGate unit
  | .thermTripRelease => true
  | .energyInterval die _ => inDieOrGate die
  | .remoteEnergyGather _ => true
  | .fuseReread _ => true
  | .tamperTrip cause => decide (1 ≤ cause) && decide (cause ≤ 5)
  | .alarmErase => true
  | .alarmKill _ => true
  | .fullBringUp _ => true
  | .identityDerived _ => true
  | .traceDrain die => inDie die
  | .pldmFirmwareUpdate _ => true
  | .i3cDynamicAddress _ addr => decide (addr < 128)
  | .cutPortReset router p => inRouter router && inCutPort router p
  | .erhPortReset port => inErhPort port
  | .erhPacketRoute port _ => inErhPort port
  | .erhOldBusyClear => true
  | .hostCacheSnoop port line _ => inCxlPort port && on64 line
  | .cxlCacheResponse port line _ _ _ => inCxlPort port && on64 line
  | .atsCompletion port _ _ _ _ => inCxlPort port
  | .ideKm port _ _ => inCxlPort port
  | .tdisp port berth _ => inCxlPort port && inBerth berth

end Sys2Proof
end

