-- ==== Sys2Proof/Safety.lean ====
section
/-! DEFINITION. What counts as a safe run: no stop, and the memory in its canonical form. Then the terms of the statements: when
a thread issues an instruction, a message is where it is served, and a mailbox holds a request; and those in which frames are
stated: the parts of the state, that a part is the same in two states, the parts that each command may change, and fuses that
only blow. -/

namespace Sys2Proof.Machine

/-- Whether an outcome is a next state. -/
def completes (o : Host.Outcome State Fault Refusal) : Bool := match o with
  | .next _ => true
  | .fault _ => false
  | .refused _ => false

/-- The states that the model's memory keeps: DRAM in its canonical form. -/
def State.ok (s : State) : Bool := Memory.wf s.mem.dram

/-- A step is safe where it completes and keeps the canonical form. -/
def safeStep (s : State) : Bool := match step s with
  | .next t => t.ok
  | .fault _ => false
  | .refused _ => false

/-- The command completes, in a state of which `P` holds. -/
def Gives (i : Instr) (s : State) (P : State → Prop) : Prop := ∃ n, exec i s = .next n ∧ P n

/-- Hardware thread `tid` issues an instruction of `len` bytes, and they are fetched: it is not suspended or frozen, its die is in
service and the module runs threads (R88, R121). `t` is the thread as it issues, its map bank latched (R251), and `r` the
state that the instruction acts on. -/
structure Issues (s : State) (tid len : Nat) (t : Thread) (r : State) : Prop where
  ready : ∃ t0, s.thread? tid = some t0 ∧ t0.wait = .none ∧ t0.frozen = false ∧
    t = { t0 with bank := s.activeBank t0.berth, ilen := len }
  up : s.present (dieOfThr tid) = true ∧ s.running = true
  fetched : (((s.modThread tid fun _ => t).ifetchAll tid t len).1 = .ok [])
  state : r = ((s.modThread tid fun _ => t).ifetchAll tid t len).2

/-- A basin request of a node reaches the home of a line of DRAM, on a die in service. -/
structure AtHome (s : State) (req : Req) (line : Nat) : Prop where
  dram : isDram line = true ∧ line % 128 = 0
  node : req.node < 74 ∨ (76 ≤ req.node ∧ req.node < 80)
  up : s.present (homeOf line) = true

/-- A message for a line is at a die in service. -/
structure AtDie (s : State) (die line : Nat) : Prop where
  named : die < 72 ∧ line % 128 = 0
  up : s.present die = true

/-- A CXL port is present and its link is up. -/
structure PortUp (s : State) (port : Nat) : Prop where
  there : port < 2 ∧ (port = 1 → s.panel.fencedGh.contains 2 = false)
  up : (s.cport port).up = true ∧ (s.cport port).lost = false

/-- A mailbox's page holds an accepted request `r` of an opcode; firmware runs, the request's object is free, and the device and
the berth are in a state that takes it (R331 to R333). -/
structure Requests (s : State) (mb : Mbox) (code : Nat) (r : MbReq) : Prop where
  runs : mbExists mb = true ∧ s.mbRuns = true
  req : (s.mbPage (mbKey mb)).req = some r ∧ r.opcode.toNat = code
  fresh : (s.mbPage (mbKey mb)).stage = false
  free : s.mbState mb code = 0 ∧ s.reqHeld mb r = false

/-! ## Frames -/

/-- The parts of the state that frames name. Together they are every field of State. -/
inductive Part where
  /-- The waiting commands. -/
  | queue
  /-- Time base and cycle counters (R387, R390). -/
  | time
  /-- Site states, fused columns, grades, fenced gatehouses (R15, R426). -/
  | sites
  /-- Die repair in progress and waiting (R416). -/
  | repair
  /-- Every addressed register (chapter 2). -/
  | regs
  /-- Bonded DRAM: bytes and what is known of each sector (chapter 8). -/
  | dram
  /-- The page ownership tables (Table 10.2). -/
  | pages
  /-- Stack thermal states, row repairs, held reads and writes, margining (R217 to R220). -/
  | stacks
  /-- Bytes, poison and line facts of the L1s, instruction caches, far and home parts, and the fill predictors. -/
  | caches
  /-- Directories, basin messages and waiting requests (R185 to R192). -/
  | directory
  /-- Load reservations (R96). -/
  | reservations
  /-- Reduction updates queued, far quotas, maintenance and window changes of slices (R182, R197, R203). -/
  | slices
  /-- Hold bytes and sidecars (R57). -/
  | holds
  /-- Queued, running and cupped tiles (R61, R65, R353). -/
  | tiles
  /-- Barge transfers (R105). -/
  | transfers
  /-- Finishing images of the dies (R86). -/
  | finishing
  /-- Hardware threads in use (Table 4.1). -/
  | threads
  /-- Tickets (R101). -/
  | tickets
  /-- Contexts with their rings and counters (R125, R120). -/
  | contexts
  /-- Commands between their fetch and their completion, and what the lock-keepers hold back (chapter 5). -/
  | commands
  /-- Berths, accounts, translations and key slots' nonces (chapter 10). -/
  | berths
  /-- Cargo (chapter 11). -/
  | cargo
  /-- Convoy (chapter 12). -/
  | convoy
  /-- Cut ports (chapter 9). -/
  | cuts
  /-- Erhar ports, open requests and spans (chapter 12). -/
  | erhLinks
  /-- Erhar groups and collective runs (R292 to R299). -/
  | collectives
  /-- Synchronized time (R303 to R307). -/
  | sync
  /-- CXL host ports (chapter 12). -/
  | cxlPorts
  /-- CXL event logs, interrupt messages and the device's CXL mailbox answer (R327). -/
  | cxlLogs
  /-- Kiltor mailbox pages (Table 13.1). -/
  | mailboxes
  /-- Background operations (R334). -/
  | background
  /-- Tallies and failure signatures (Tables 14.2, 14.3). -/
  | signatures
  /-- The event log (Table 18.3). -/
  | events
  /-- Traces of the dies (R431). -/
  | traces
  /-- The retirement list and retirements in progress (R364, R412). -/
  | retired
  /-- Self-tests (R367) and snapshots. -/
  | selftests
  /-- Pins, heat, forcing, caps and the boot state (chapters 15, 17, 19). -/
  | power
  /-- The security fuses (Table 16.1). -/
  | fuses
  /-- The alarm (R406). -/
  | alarm
  /-- Keys, identity, measurements, SPDM connections and debug unlock (R399 to R405). -/
  | trust
  /-- Firmware images, stored and staged (R395, R345). -/
  | firmware
  /-- The model's counter of free values. -/
  | fresh
deriving DecidableEq, Repr

/-- That a part is the same in two states, field by field. -/
def Part.same (s t : State) : Part → Prop
  | .queue => s.pending = t.pending
  | .time => s.clk = t.clk
  | .sites => (s.panel.sites, s.panel.fusedStandby, s.panel.grades, s.panel.fencedGh) =
      (t.panel.sites, t.panel.fusedStandby, t.panel.grades, t.panel.fencedGh)
  | .repair => (s.panel.repair, s.panel.repairQ) = (t.panel.repair, t.panel.repairQ)
  | .regs => s.regs = t.regs
  | .dram => (s.mem.dram, s.mem.sect, s.mem.spentSec) = (t.mem.dram, t.mem.sect, t.mem.spentSec)
  | .pages => s.mem.pot = t.mem.pot
  | .stacks =>
    (s.mem.zeroedAtBringUp, s.mem.heat, s.mem.blocked, s.mem.repairs, s.mem.refreshed, s.mem.stopReads, s.mem.stopWrites,
      s.mem.margining) =
    (t.mem.zeroedAtBringUp, t.mem.heat, t.mem.blocked, t.mem.repairs, t.mem.refreshed, t.mem.stopReads, t.mem.stopWrites,
      t.mem.margining)
  | .caches =>
    (s.basin.l1, s.basin.l1Poison, s.basin.icache, s.basin.far, s.basin.farPoison, s.basin.farLines, s.basin.home,
      s.basin.homePoison, s.basin.homeLines, s.basin.predictor, s.basin.stamp) =
    (t.basin.l1, t.basin.l1Poison, t.basin.icache, t.basin.far, t.basin.farPoison, t.basin.farLines, t.basin.home,
      t.basin.homePoison, t.basin.homeLines, t.basin.predictor, t.basin.stamp)
  | .directory => (s.basin.dir, s.basin.net, s.basin.pend, s.basin.starve, s.basin.nearHist) =
      (t.basin.dir, t.basin.net, t.basin.pend, t.basin.starve, t.basin.nearHist)
  | .reservations => s.basin.resv = t.basin.resv
  | .slices => (s.basin.updq, s.basin.quotaNew, s.basin.maint, s.basin.winPending) =
      (t.basin.updq, t.basin.quotaNew, t.basin.maint, t.basin.winPending)
  | .holds => (s.eng.hold, s.eng.side, s.eng.holdTag) = (t.eng.hold, t.eng.side, t.eng.holdTag)
  | .tiles =>
    (s.eng.tileq, s.eng.reruns, s.eng.copies, s.eng.mism, s.eng.eng, s.eng.arithStopped, s.eng.workAt, s.eng.cupFirst,
      s.eng.spentPending) =
    (t.eng.tileq, t.eng.reruns, t.eng.copies, t.eng.mism, t.eng.eng, t.eng.arithStopped, t.eng.workAt, t.eng.cupFirst,
      t.eng.spentPending)
  | .transfers => s.eng.xfers = t.eng.xfers
  | .finishing => (s.eng.fin, s.eng.finPending) = (t.eng.fin, t.eng.finPending)
  | .threads => (s.thr.threads, s.thr.nextUid) = (t.thr.threads, t.thr.nextUid)
  | .tickets => s.thr.tickets = t.thr.tickets
  | .contexts => s.lk.ctxs = t.lk.ctxs
  | .commands =>
    (s.lk.cmds, s.lk.spills, s.lk.held, s.lk.holdMulti, s.lk.takes, s.lk.resvDies, s.lk.cupFloor, s.lk.blockAt) =
    (t.lk.cmds, t.lk.spills, t.lk.held, t.lk.holdMulti, t.lk.takes, t.lk.resvDies, t.lk.cupFloor, t.lk.blockAt)
  | .berths =>
    (s.bth.berths, s.bth.rr, s.bth.opAccount, s.bth.opEnergyNJ, s.bth.seals, s.bth.nonces, s.bth.tables, s.bth.mapStale,
      s.bth.tlb, s.bth.refused) =
    (t.bth.berths, t.bth.rr, t.bth.opAccount, t.bth.opEnergyNJ, t.bth.seals, t.bth.nonces, t.bth.tables, t.bth.mapStale,
      t.bth.tlb, t.bth.refused)
  | .cargo =>
    (s.bth.cargoState, s.bth.cargoPages, s.bth.cargoVa, s.bth.cargoHash, s.bth.pageHashes, s.bth.sources, s.bth.relading,
      s.bth.moorLeak) =
    (t.bth.cargoState, t.bth.cargoPages, t.bth.cargoVa, t.bth.cargoHash, t.bth.pageHashes, t.bth.sources, t.bth.relading,
      t.bth.moorLeak)
  | .convoy => (s.bth.convoy, s.bth.roll, s.bth.resv, s.bth.stepNo, s.bth.nextPsg) =
      (t.bth.convoy, t.bth.roll, t.bth.resv, t.bth.stepNo, t.bth.nextPsg)
  | .cuts => s.cut = t.cut
  | .erhLinks => (s.erh.ports, s.erh.opens, s.erh.nextTxn, s.erh.spans, s.erh.got, s.erh.early, s.erh.oldHeldAt) =
      (t.erh.ports, t.erh.opens, t.erh.nextTxn, t.erh.spans, t.erh.got, t.erh.early, t.erh.oldHeldAt)
  | .collectives => (s.erh.groups, s.erh.runs) = (t.erh.groups, t.erh.runs)
  | .sync =>
    (s.erh.role, s.erh.upstream, s.erh.ppsEn, s.erh.stepAllowed, s.erh.sync, s.erh.offset, s.erh.inBound, s.erh.missed,
      s.erh.pendingT, s.erh.ppsLast, s.erh.ppsIgnored) =
    (t.erh.role, t.erh.upstream, t.erh.ppsEn, t.erh.stepAllowed, t.erh.sync, t.erh.offset, t.erh.inBound, t.erh.missed,
      t.erh.pendingT, t.erh.ppsLast, t.erh.ppsIgnored)
  | .cxlPorts => s.cxl.ports = t.cxl.ports
  | .cxlLogs =>
    (s.cxl.logs, s.cxl.overflow, s.cxl.nextHandle, s.cxl.policy, s.cxl.timestamp, s.cxl.msix, s.cxl.reply, s.cxl.replyStatus) =
    (t.cxl.logs, t.cxl.overflow, t.cxl.nextHandle, t.cxl.policy, t.cxl.timestamp, t.cxl.msix, t.cxl.reply, t.cxl.replyStatus)
  | .mailboxes => (s.mbx.pages, s.mbx.switching, s.mbx.resetting) = (t.mbx.pages, t.mbx.switching, t.mbx.resetting)
  | .background => (s.mbx.bgs, s.mbx.nextBg, s.mbx.ends) = (t.mbx.bgs, t.mbx.nextBg, t.mbx.ends)
  | .signatures => (s.rel.tallies, s.rel.lastDet, s.rel.tagLog, s.rel.lanePos, s.rel.sigs, s.rel.sigNext) =
      (t.rel.tallies, t.rel.lastDet, t.rel.tagLog, t.rel.lanePos, t.rel.sigs, t.rel.sigNext)
  | .events => (s.rel.evts, s.rel.evtNext, s.rel.evtLast) = (t.rel.evts, t.rel.evtNext, t.rel.evtLast)
  | .traces => s.rel.traces = t.rel.traces
  | .retired => (s.rel.retired, s.rel.retiring) = (t.rel.retired, t.rel.retiring)
  | .selftests => (s.rel.selftest, s.rel.testing, s.rel.testAge, s.rel.testDone, s.rel.snapshots) =
      (t.rel.selftest, t.rel.testing, t.rel.testAge, t.rel.testDone, t.rel.snapshots)
  | .power => s.pwr = t.pwr
  | .fuses => s.sec.fuses = t.sec.fuses
  | .alarm => (s.sec.alarmLock, s.sec.alarmCause, s.sec.alarmLevel) = (t.sec.alarmLock, t.sec.alarmCause, t.sec.alarmLevel)
  | .trust =>
    (s.sec.nonce, s.sec.debugUntil, s.sec.debugScope, s.sec.keys, s.sec.genNext, s.sec.measGen, s.sec.identity, s.sec.spdm,
      s.sec.response, s.sec.spdmError) =
    (t.sec.nonce, t.sec.debugUntil, t.sec.debugScope, t.sec.keys, t.sec.genNext, t.sec.measGen, t.sec.identity, t.sec.spdm,
      t.sec.response, t.sec.spdmError)
  | .firmware =>
    (s.sec.published, s.sec.active, s.sec.previous, s.sec.staged, s.sec.stagedTotal, s.sec.fwState, s.sec.switchSlot,
      s.sec.switchBg) =
    (t.sec.published, t.sec.active, t.sec.previous, t.sec.staged, t.sec.stagedTotal, t.sec.fwState, t.sec.switchSlot,
      t.sec.switchBg)
  | .fresh => s.fresh = t.fresh

/-- A state differs from another in the named parts alone. -/
def Only (ps : List Part) (s t : State) : Prop := ∀ p, p ∉ ps → p.same s t

/-- Fuses from which others come by blowing: hashes, the seed and the serial number stand, blown bits stay blown and the
security version does not fall (R391, R397). -/
structure Fuses.Blown (f g : Fuses) : Prop where
  rsaHash : g.rsaHash = f.rsaHash
  slhHash : g.slhHash = f.slhHash
  idSeed : g.idSeed = f.idSeed
  dsn : g.dsn = f.dsn
  revokeRsa : f.revokeRsa ||| g.revokeRsa = g.revokeRsa
  revokeSlh : f.revokeSlh ||| g.revokeSlh = g.revokeSlh
  svn : f.svn ≤ g.svn
  alarmPolicy : f.alarmPolicy ||| g.alarmPolicy = g.alarmPolicy
  debugPolicy : f.debugPolicy ||| g.debugPolicy = g.debugPolicy
  berthReduce : f.berthReduce ||| g.berthReduce = g.berthReduce
  kill : f.kill = true → g.kill = true

/-! ## What each command may change -/

/-- What an access to DRAM can reach: its bytes and caches, and what an error found there is recorded in (chapters 7, 8, 14). -/
def memoryParts : List Part := [.repair, .regs, .dram, .pages, .stacks, .caches, .directory, .cxlLogs, .signatures]

/-- What a home does for a request: memory, its queued reductions, and the commands that a failure ends (chapter 7). -/
def homeParts : List Part := memoryParts ++ [.slices, .commands, .retired]

/-- A home that also ends reservations (R96). -/
def requestParts : List Part := homeParts ++ [.reservations]

/-- What an instruction of a thread can reach where it faults, sends requests or ends its command (chapter 4). -/
def threadParts : List Part := requestParts ++ [.cxlPorts, .tiles, .transfers, .threads, .tickets, .berths, .erhLinks, .traces, .fresh]

/-- What answering a mailbox request writes: the page, and the interrupts that tell of it (R332). -/
def answerParts : List Part := [.contexts, .commands, .cxlLogs, .mailboxes]

/-- What failing a command does to its work on a die (R122). -/
def endParts : List Part := [.tiles, .transfers, .threads, .tickets, .commands]

/-- Every part but those named. -/
def allBut (ps : List Part) : List Part := [
    .queue, .time, .sites, .repair, .regs, .dram, .pages, .stacks, .caches, .directory,
    .reservations, .slices, .holds, .tiles, .transfers, .finishing, .threads, .tickets, .contexts, .commands,
    .berths, .cargo, .convoy, .cuts, .erhLinks, .collectives, .sync, .cxlPorts, .cxlLogs, .mailboxes,
    .background, .signatures, .events, .traces, .retired, .selftests, .power, .fuses, .alarm, .trust,
    .firmware, .fresh].filter fun p => decide (p ∉ ps)

/-- The parts of the state that a command may change. Everything else it leaves as it is: each family below names what the
rules of its chapter let it reach, and no more. -/
def framed : Instr → List Part
  | .tsub _ _ _ _ | .gath _ _ _ _ _ | .scat _ _ _ _ _ | .ldaq _ _ _ _ _ _ | .threadLoad _ _ _ _ _ _
    => threadParts ++ [.events]
  | .twait _ _ _ _ | .tpoll _ _ _ _ | .twaitAcq _ _ _ _ | .hld _ _ _ _ _ _ | .hst _ _ _ _ _ _ | .fenceAcq _ _ _ _
  | .fenceRel _ _ _ _ | .fenceFull _ _ _ _ | .fenceI _ | .bpref _ _ _ _ | .bwb _ _ _ _ | .binv _ _ _ _
  | .spentB _ _ _ _ | .ctrwait _ _ _ _ | .ctrread _ _ _ _ | .kresume _ _ _ _ | .kexit _ _ _ _ | .lr _ _ _ _ _ _ _
  | .sc _ _ _ _ _ _ _ | .ecall _ | .ebreak _ _ | .erhErr _ | .erhRequestTimeout _ => threadParts
  | .twaitResume _ => [.regs, .caches, .threads, .tickets, .commands]
  | .transferComplete _ _ _ | .spentH _ _ _ _ => threadParts ++ [.holds]
  | .sdrl _ _ _ _ _ | .threadStore _ _ _ _ _ | .dataS _ _ | .dataX _ _ | .gntX _ _ | .flushHome _ _ | .cleanFar _ _
  | .flushHomeAndCleanFar _ _ | .farQuotaWrite _ _ _ _ | .windowCommit _ _ _ | .spreadCommit _ _ _ | .finCtlCommit _ _
  | .inject _ _ _ | .dramMgnStart _ _ | .clkCtlCommit _ _ | .fabEcoWrite _ _ _ | .routeCtlCommit _ _
  | .cutRetrain _ _ _ | .cutForceDown _ _ _ _ | .cutRestore _ _ _ | .bmapRootWrite _ _ _ _ | .bmapCommit _ _
  | .erhRctlCommit _ | .erhRetrain _ _ | .erhForceDown _ _ _ | .erhRestore _ _ | .registerWrite _ _ _ _
  | .cxlCacheResponse _ _ _ _ _ | .atsCompletion _ _ _ _ _
    => threadParts ++ answerParts ++ [.holds, .finishing, .cuts, .collectives, .events, .power, .trust]
  | .mpop _ _ _ _ => threadParts ++ [.convoy]
  | .mpush _ _ _ _ => threadParts ++ [.cargo]
  | .ctradd _ _ _ _ | .amofaddW _ _ _ _ _ _ _ | .amo _ _ _ _ _ _ _ _ _ => threadParts ++ [.contexts]
  | .ctrwaitResume _ => [.regs, .caches, .threads, .commands]
  | .watchFire _ | .watchBackstop _ | .watchRefetch _ _ | .seqReread _ | .signal _ _ | .passage _ _ | .commandReady _ _
    => requestParts ++ [.contexts, .berths, .convoy, .cxlPorts, .events]
  | .run _ _ | .multiDieSchedule _ _ | .preemptSpillDone _ _
    => requestParts ++ [.tiles, .threads, .contexts, .berths, .convoy, .cxlPorts, .events, .traces]
  | .convoyStep _ _
    => requestParts ++ [.tiles, .threads, .contexts, .berths, .cargo, .convoy, .cxlPorts, .events, .traces, .fresh]
  | .prescan _ _ _ => homeParts ++ endParts ++ [.berths, .cxlPorts, .fresh]
  | .anchorGeneration _ _ _ => [.threads, .commands, .collectives]
  | .preempt _ _ => [.transfers, .threads, .commands]
  | .restore _ _ => [.holds, .tiles, .transfers, .threads, .commands, .traces]
  | .commandComplete _ _
    => requestParts ++ endParts ++ [.finishing, .contexts, .berths, .convoy, .cxlPorts, .events, .traces, .trust]
  | .maxDurExpire _ _ => endParts ++ [.convoy]
  | .tileDispatch _ _ _ _ | .reRun _ _ _ | .cuppingCopy _ _ _ _ _ | .err _ _ | .stopReadTimeout _ _
    => requestParts ++ endParts ++ [.berths, .cxlPorts, .traces, .fresh]
  | .tileComplete _ _ _ _ | .tileSteal _ _ _ _ => requestParts ++ endParts ++ [.holds, .berths, .cxlPorts, .traces, .fresh]
  | .replay _ _ => memoryParts ++ endParts ++ [.berths, .convoy, .cxlPorts, .traces]
  | .arithIdleStop _ _ => [.tiles]
  | .slackWindow _ _ => [.regs, .commands, .events, .traces]
  | .unitRetirementDone _ _ _ => [.regs, .holds, .threads, .retired]
  | .selftestStart _ _ _ | .selftestAbandon _ => [.selftests]
  | .selftestChunkEnd _ _ => endParts ++ [.repair, .regs, .cxlLogs, .signatures, .retired, .selftests]
  | .rdU _ _ _ _ | .rdS _ _ _ _ | .look _ _ _ _ | .spd _ _ _ | .farQuotaApply _ _ => homeParts
  | .rdX _ _ _ _ | .upg _ _ _ | .atN _ _ _ _ _ _ _ | .redU _ _ _ _ | .wbU _ _ _ | .wbD _ _ | .wbK _ _ | .invAck _ _
  | .fwdAck _ _ | .birsp _ _ _ => requestParts
  | .inv _ _ | .fwdS _ _ | .fwdX _ _ | .snpCur _ _ => [.caches, .directory]
  | .dataU _ _ => memoryParts
  | .wbAck _ _ | .nack _ _ _ | .nackRetry _ _ => [.directory]
  | .basinMaintDone _ => [.regs, .slices]
  | .dramMgnDone _ _ => [.regs, .stacks]
  | .epochBroadcast | .cutTrainDone _ _ | .cutPortReset _ _ => [.regs, .cuts]
  | .hdmDecoderCommit _ _ _ _ _ _ => [.regs, .cxlPorts, .events]
  | .hdmDecoderUncommit _ _ => memoryParts ++ [.cxlPorts, .events]
  | .rowRetireDone _ _ _ _ _ _ => requestParts ++ [.berths, .cargo, .cxlPorts]
  | .patrolScrub _ _ _ => [.repair, .regs, .dram, .pages, .stacks, .cxlLogs, .signatures]
  | .dramRefresh _ _ _ _ _ => [.stacks]
  | .dramThermalSample _ _ => [.repair, .regs, .dram, .pages, .stacks, .caches, .threads, .cxlLogs, .signatures, .events]
  | .cutFrame _ _ _ => [.regs, .cuts, .cxlLogs, .signatures]
  | .cutReplay _ _ => [.cuts]
  | .cutPacketForward _ _ _ => [.regs, .cuts, .fresh]
  | .cutTrain _ _ _ | .cutFreezeTimeout _ _ _ | .cutDown _ _ _
    => endParts ++ [.regs, .caches, .directory, .cuts, .cxlLogs, .signatures, .events]
  | .erhFrame _ _ | .erhTrain _ _ | .erhFreezeTimeout _ _ | .erhPortDown _ _
    => threadParts ++ [.contexts, .collectives, .events]
  | .put _ _ => requestParts ++ [.erhLinks]
  | .putAck _ | .getData _ => [.regs, .threads, .erhLinks]
  | .get _ _ _ => homeParts ++ [.erhLinks, .cxlPorts]
  | .atomic _ _ _ => requestParts ++ [.contexts, .berths, .erhLinks]
  | .atomicResp _ => [.regs, .caches, .threads, .commands, .erhLinks]
  | .linkMgmt _ _ | .fwMgmt _ _ | .erhPortReset _ | .erhPacketRoute _ _ => [.regs, .erhLinks]
  | .collArrive _ _ | .collUp _ | .collDown _ => requestParts ++ [.contexts, .erhLinks, .collectives, .cxlPorts]
  | .collFail _ => [.regs, .contexts, .commands, .erhLinks, .collectives]
  | .tsync _ => [.regs, .erhLinks, .sync]
  | .tsyncResp _ _ _ _ _ | .tsyncHoldover | .ppsIn _ => [.sync]
  | .timeCorrection _ _ => [.time]
  | .hostMemRd _ _ _ _ _ | .hostMemWr _ _ _ _ _ => requestParts ++ [.cxlPorts]
  | .bisnpTimeout _ _ | .hostRequestTimeout _ | .portLost _ | .ideIntegrityFailure _ _ | .perst _
    => requestParts ++ endParts ++ [.contexts, .berths, .cxlPorts, .traces, .fresh]
  | .counterFetchadd _ _ _ _ _ _ => [.contexts, .commands, .berths, .cxlPorts, .cxlLogs]
  | .atsInvalidation _ _ _ _ | .configRequest _ _ | .hostCacheSnoop _ _ _ | .ideKm _ _ _ => [.cxlPorts]
  | .cxlLinkTrain _ _ _ _ => [.cxlPorts, .cxlLogs]
  | .identifyCxl | .getEventRecords _ | .clearEventRecords _ _ | .getEventInterruptPolicy | .setEventInterruptPolicy _
  | .getLog _ _ _ | .getSupportedLogs | .setTimestamp _ => [.cxlLogs]
  | .getVersion _ | .getCapabilities _ | .negotiateAlgorithms _ _ _ _ _ | .getDigests _ | .getCertificate _ _ _ _
  | .challenge _ _ _ | .getMeasurements _ _ _ _ | .keyExchange _ _ | .finish _ _ _ | .keyUpdate _ _ _ | .endSession _ _
  | .debugUnlockExpire => [.trust]
  | .mailboxOwnerSet _ | .berthLimits _ | .moorPoolRebuild _ | .pasidSet _ => answerParts ++ [.berths]
  | .mailboxAcceptTimeout _ | .kiltorWatchdog _ | .i3cDynamicAddress _ _ => [.power]
  | .bgOperationEnd _
    => requestParts ++ answerParts ++ endParts ++ [.holds, .berths, .cargo, .convoy, .erhLinks, .collectives, .cxlPorts,
      .background, .events, .traces, .selftests, .trust, .firmware]
  | .identify _ | .bgStatus _ | .berthQuery _ | .accountRead _ | .cargoQuery _ | .powerQuery _ | .sigRead _
  | .tallyRead _ | .cupFloor _ | .repairList _ | .secState _ | .cfgEvents _ | .groupStatus _ | .fwQuery _ => answerParts
  | .bgAbort _ => answerParts ++ [.repair, .regs, .finishing, .background, .trust, .firmware]
  | .windowSetAll _ | .spreadSetAll _ | .dieHandover _ | .cargoOpen _ | .cargoSeal _ | .cargoUnload _ | .snapshot _
  | .dramInit _ | .dramMargin _ _ _ => answerParts ++ [.background]
  | .setAllTimeout _ => [.regs, .finishing, .contexts, .commands, .cxlLogs, .background, .trust]
  | .finImageSetAll _ => homeParts ++ answerParts ++ [.finishing, .cxlPorts, .background, .events, .trust]
  | .deviceReset _ | .managementRestart | .pwrGoodInRise | .standbyPowerGood _ | .thermTripRelease
  | .pldmFirmwareUpdate _ => allBut [.queue, .fuses, .alarm, .fresh]
  | .berthCreate _ => requestParts ++ answerParts ++ [.threads, .berths, .cxlPorts, .trust]
  | .berthDestroy _ | .berthReset _
    => requestParts ++ answerParts ++ endParts ++ [.finishing, .berths, .convoy, .cxlPorts, .background, .trust]
  | .moveListSet _ => homeParts ++ answerParts ++ [.berths, .cxlPorts]
  | .faultSetup _ => answerParts ++ [.threads, .berths]
  | .ctxCreate _ => requestParts ++ answerParts ++ [.berths, .convoy, .cxlPorts, .events]
  | .ctxReset _ | .ctxDestroy _ => requestParts ++ answerParts ++ endParts ++ [.berths, .cargo, .convoy, .cxlPorts, .events]
  | .pagesAlloc _ | .pagesFree _ | .pagesAttr _ | .cargoMap _ | .cargoUnmap _ | .peerRegionSet _ | .hostRegionSet _
    => requestParts ++ answerParts ++ [.berths, .cxlPorts]
  | .moorPoolCreate _ | .moorPoolGrow _ => answerParts ++ [.pages, .berths]
  | .cargoSource _ => answerParts ++ [.cargo]
  | .convoyRegister _ => homeParts ++ answerParts ++ [.convoy, .cxlPorts, .trust]
  | .convoyUnregister _ => answerParts ++ [.pages, .convoy, .trust]
  | .cargoRelade _ _ => requestParts ++ endParts ++ [.berths, .cargo, .cxlPorts]
  | .capSet _ | .ratioLimit _ => answerParts ++ [.power]
  | .fabricHalf _ | .counterCfg _ | .devIdSet _ => answerParts ++ [.regs]
  | .tallyClear _ => answerParts ++ [.regs, .signatures, .events]
  | .selftest _ => answerParts ++ [.selftests]
  | .unitRetire _ => threadParts ++ answerParts ++ [.cuts, .collectives, .background, .events]
  | .debugChallenge _ => answerParts ++ [.trust, .fresh]
  | .debugUnlock _ => homeParts ++ answerParts ++ [.cxlPorts, .trust]
  | .traceCfg _ => answerParts ++ [.traces]
  | .routeWrite _ => answerParts ++ [.regs, .events]
  | .routeCommit _ => answerParts ++ [.regs, .erhLinks]
  | .portCtl _ => threadParts ++ answerParts ++ [.collectives, .events]
  | .cutCtl _ => answerParts ++ endParts ++ [.regs, .caches, .directory, .cuts, .signatures, .events]
  | .spanSet _ => answerParts ++ [.erhLinks]
  | .groupSet _ => answerParts ++ [.collectives]
  | .tsyncSet _ => answerParts ++ [.sync]
  | .fwStage _ => answerParts ++ [.firmware]
  | .fwActivate _ => answerParts ++ [.background, .firmware]
  | .fwSwitchEnd => answerParts ++ [.background, .fuses, .trust, .firmware]
  | .dieRepair _ => answerParts ++ [.repair, .background]
  | .repairPhaseADone _ => [.sites, .repair, .regs, .contexts, .commands, .cxlLogs, .background]
  | .repairPassEnd _ => [.repair, .background]
  | .repairSwitch _ => homeParts ++ endParts ++ [.sites, .contexts, .cuts, .cxlPorts, .background, .selftests]
  | .capControlStep _ _ | .droopRecover _ _ _ => [.regs, .events, .power]
  | .controllerAbsent _ | .erhOldBusyClear => [.regs]
  | .droopDetect _ _ | .vrAlertNRelease | .flowOkRelease => [.regs, .power]
  | .vrAlertN => [.regs, .cxlLogs, .events, .power]
  | .flowOk => [.regs, .cxlLogs, .power]
  | .flowStop | .pwrGoodInFall | .inputUndervoltage => [.regs, .tiles, .commands, .power]
  | .moduleStopDone => allBut [.queue, .fuses, .alarm]
  | .standbyPowerLost => allBut [.queue, .fuses, .fresh]
  | .tempSample _ _
    => answerParts ++ endParts ++ [.repair, .regs, .stacks, .caches, .directory, .reservations, .slices, .background,
      .power, .alarm, .trust, .firmware]
  | .energyInterval _ _ => [.commands, .berths, .fresh]
  | .remoteEnergyGather _ => [.commands, .berths]
  | .fuseReread _ | .tamperTrip _ => answerParts ++ endParts ++ [.repair, .background, .power, .alarm, .trust, .firmware]
  | .alarmErase => [.alarm, .trust]
  | .alarmKill _ => answerParts ++ endParts ++ [.repair, .background, .power, .fuses, .alarm, .trust, .firmware]
  | .fullBringUp _
    => requestParts ++ answerParts ++ endParts ++ [.sites, .berths, .cuts, .erhLinks, .cxlPorts, .background, .power,
      .fuses, .alarm, .trust, .firmware]
  | .identityDerived _ => answerParts ++ [.power, .trust]
  | .traceDrain _ => requestParts ++ [.berths, .cxlPorts, .traces]
  | .tdisp _ _ _ => [.berths]

end Sys2Proof.Machine
end

