-- ==== Sys2Proof/Certificates/Slice0/Obligations.lean ====
section
/-! DEFINITION. The statements for the provers: what a step is and what every step keeps; long-sums and tags; then, chapter by
chapter, what each command's completion does to the state. -/

open Sys2Proof Sys2Proof.Machine

/-- A step runs the command at the front of the queue on the state with the rest of the queue. -/
def Obligations.StepRunsFront : Prop :=
  ∀ (c : Instr) (rest : List Instr) (s : State), s.pending = c :: rest → step s = exec c { s with pending := rest }

/-- Right after device reset the module is in ROM (Table 17.1), the time base is 0 (R387), no command waits, no site is in service, no
die numbered, and no lock-keeper takes entries; memory lists nothing and is canonical; and the unit and row maps read as Tables 1.1,
1.3 and 1.4 give: no column, no position. -/
def Obligations.ResetState : Prop :=
  State.reset.pwr.boot = .rom ∧ State.reset.clk.now = 0 ∧ State.reset.pending = [] ∧ State.reset.lk.takes = false ∧
  State.reset.ok = true ∧ (∀ d, State.reset.present d = false) ∧
  (∀ r, r < 8 → State.reset.reg (0x70000001000 + r * 8) = 0xF000000FFFFFFFFF) ∧
  ∀ d, d < 72 → State.reset.reg (dieBase d + 0x100) = 0xFFFFFFFFFFFF ∧ State.reset.reg (dieBase d + 0x108) = 0xFFFFFFFFFFFFFFFF ∧
    State.reset.reg (dieBase d + 0x110) = 0xFFFFFFFFFFFFFFFF

/-- R38: adding two numbers gives their exact integer sum if that sum is itself a number, and no flag; otherwise the overflowed code with
the sum's sign, and ACC_OVF; said of the bits that a long-sum has. R39, Table 2.3, where an operand is special: NaN wins over all;
opposite infinities give NaN and INVALID; an infinity wins over overflows and numbers; overflows of both signs leave the sign
unknown; a number changes no special value. The order and the grouping of special values do not matter. -/
def Obligations.LongSumsAdd : Prop :=
  (∀ a b : BitVec 128, a.toInt.natAbs ≤ 2 ^ 127 - 16 → b.toInt.natAbs ≤ 2 ^ 127 - 16 →
    (a.toInt + b.toInt).natAbs ≤ 2 ^ 127 - 16 ∧ (lsAddBits a b).1.toInt = a.toInt + b.toInt ∧ (lsAddBits a b).2 = 0 ∨
    2 ^ 127 - 16 < a.toInt + b.toInt ∧ lsAddBits a b = (LS.povf.bits, flagAccOvf) ∨
    a.toInt + b.toInt < -(2 ^ 127 - 16) ∧ lsAddBits a b = (LS.novf.bits, flagAccOvf)) ∧
  ((∀ x : LS, LS.nan.add x = (.nan, 0) ∧ (x ≠ .nan → x ≠ .ninf → LS.pinf.add x = (.pinf, 0)) ∧
    (x ≠ .nan → x ≠ .pinf → LS.ninf.add x = (.ninf, 0))) ∧
  LS.pinf.add .ninf = (.nan, flagInvalid) ∧ LS.povf.add .novf = (.uovf, 0) ∧
  (∀ x ∈ [LS.povf, .novf, .uovf], x.add x = (x, 0) ∧ LS.uovf.add x = (.uovf, 0)) ∧
  (∀ (v : Int), ∀ x ∈ [LS.povf, .novf, .uovf, .pinf, .ninf, .nan], x.add (.num v) = (x, 0)) ∧
  (∀ x y : LS, x.add y = y.add x) ∧
  (∀ x ∈ [LS.povf, .novf, .uovf, .pinf, .ninf, .nan], ∀ y z : LS, y ∈ [LS.povf, .novf, .uovf, .pinf, .ninf, .nan] →
    z ∈ [LS.povf, .novf, .uovf, .pinf, .ninf, .nan] → ((x.add y).1.add z).1 = (x.add (y.add z).1).1) ∧
  ∀ x : LS, x ∈ [LS.povf, .novf, .uovf, .pinf, .ninf, .nan] → LS.ofBits x.bits = x)

/-- R81: 255 with t gives t; t with t gives t; any other pair fails. Over a set of tags that holds: a combination is t exactly where
every tag is 255 or t, and fails exactly where two tags other than 255 differ. -/
def Obligations.TagsCombine : Prop :=
  ∀ l : List Nat,
    (∀ t, combineTags l 255 = .inl t ↔ (∀ x ∈ l, x = 255 ∨ x = t) ∧ (t = 255 ∨ t ∈ l)) ∧
    ((∃ p, combineTags l 255 = .inr p) ↔ ∃ x ∈ l, ∃ y ∈ l, x ≠ 255 ∧ y ≠ 255 ∧ x ≠ y)

/-- R29: codes 0x00 to 0xFE stand for 2^(e − 127); code 0xFF is NaN, and an element under it is NaN whatever its own bits, so that a
block with such a scale is NaN (R36). -/
def Obligations.BlockScales : Prop :=
  (∀ e, e ≤ 254 → scaleExp e = some ((e : Int) - 127)) ∧ scaleExp 0xFF = none ∧
  ∀ (fa fb : OpFmt) (x : Option Int) (ps : List (Val × Val)), ps ≠ [] →
    narrowBlock fa fb none x ps = (.spec .nan, flagNanIn) ∧ narrowBlock fa fb x none ps = (.spec .nan, flagNanIn)

/-- Every command changes only what the rules of its family let it reach (chapters 2 to 19): the parts of the state that
`framed` does not list are the same afterwards, field by field; the waiting commands among them, whichever command runs. -/
def Obligations.CommandsChangeOnlyTheirParts : Prop :=
  (∀ (i : Instr) (s t : State), exec i s = .next t → Only (framed i) s t) ∧ ∀ i, Part.queue ∉ framed i

/-- The queue is first in, first out: a step that completes takes the front command off and leaves the others, in order; no command puts
one in. An empty queue lets one REFCLK edge pass (R387), and nothing waits after it; that this edge is what a step of an empty queue
does is the model's choice (log entry 1). -/
def Obligations.QueueIsFirstInFirstOut : Prop :=
  (∀ (s t : State), step s = .next t → t.pending = s.pending.tail) ∧
  (∀ (s : State), s.pending = [] → step s = .next s.idle ∧ s.idle.pending = [] ∧ s.idle.sec.fuses = s.sec.fuses)

/-- DRAM keeps its canonical form in every step (log entry 7): addresses strictly rising, no byte listed that reads as an unlisted one. -/
def Obligations.MemoryStaysCanonical : Prop :=
  ∀ (s t : State), s.ok = true → step s = .next t → t.ok = true

/-- What is permanent stays, through every command, reset and bring-up. A blown fuse cannot be restored (R392), and only the root of trust
blows security fuses: while it applies the directives of a verified image (R397), at the end of a firmware switch or at bring-up,
or when it blows KILL at alarm level 3 (R394, R406). A unit on the retirement list stays on it (R412). -/
def Obligations.PermanentRecordsStay : Prop :=
  (∀ (s t : State), step s = .next t → s.sec.fuses.Blown t.sec.fuses ∧
    (t.sec.fuses = s.sec.fuses ∨ ∃ c rest, s.pending = c :: rest ∧
      (c = .fwSwitchEnd ∨ (∃ env, c = .fullBringUp env) ∨ ∃ f, c = .alarmKill f)) ∧
    (t.sec.fuses.kill ≠ s.sec.fuses.kill → ∃ f rest, s.pending = .alarmKill f :: rest)) ∧
  (∀ (s t : State) u, u ∈ s.rel.retired → step s = .next t → u ∈ t.rel.retired)

/-- Tickets read (R103): the result word of the covered tickets in rd, the thread past the instruction. A wait whose covered
tickets have all completed ends, and reports them; so does the resumption of a suspended one. -/
def Obligations.TicketsRead : Prop :=
  (∀ s tid t r rd rs1, Issues s tid 4 t r →
    Gives (.tpoll tid rd rs1 0) s fun n => n.thread? tid =
      some ((t.setReg rd (s.ticketResult t.uid (Nat.min (t.reg rs1).toNat t.kticket)).1).retire 4)) ∧
  (∀ s tid t r rd rs1, Issues s tid 4 t r → (t.reg rs1).toNat ≠ 0 →
    s.ticketsDone t.uid (Nat.min (t.reg rs1).toNat t.kticket) = true →
    ∀ i, i = .twait tid rd rs1 0 ∨ i = .twaitAcq tid rd rs1 0 →
    Gives i s fun n =>
      n.thread? tid = some ((t.setReg rd (s.ticketResult t.uid (Nat.min (t.reg rs1).toNat t.kticket)).1).retire 4) ∧
      ∀ k ∈ n.thr.tickets, k.uid = t.uid → Nat.min (t.reg rs1).toNat t.kticket < k.num) ∧
  (∀ s tid t rd upTo acq, s.thread? tid = some t → t.frozen = false → t.wait = .tickets rd upTo acq →
    s.ticketsDone t.uid upTo = true →
    Gives (.twaitResume tid) s fun n =>
      n.thread? tid = some (({ t.setReg rd (s.ticketResult t.uid upTo).1 with wait := .none }).retire 4))

/-- Tickets issued (R101, R102, R105, R106): the thread gets its next number in rd and goes on; the tile joins its die's queue
with the engines that its descriptor's mask and ENG_CLAIM share, the transfer its die's barge. -/
def Obligations.TicketsIssued : Prop :=
  (∀ s tid t r rd rs1 rs2 bs m, Issues s tid 4 t r →
    Word.fld (t.reg rs2) 15 0 ≠ 0 → Word.fld (t.reg rs2) 63 17 = 0 → (t.reg rs1).toNat % 64 = 0 →
    r.ticketRoom t = true → r.tileqRoom (dieOfThr tid) = true →
    r.loadBytes tid t (t.reg rs1).toNat 64 false {} = (.ok bs, m) → m.thread? tid = some t →
    Word.fld (t.reg rs2) 15 0 &&& m.claimOf t ≠ 0 →
    Gives (.tsub tid rd rs1 rs2) s fun n =>
      n.thread? tid = some (({ t with kticket := t.kticket + 1 }.setReg rd (BitVec.ofNat 64 (t.kticket + 1))).retire 4) ∧
      n.eng.tileq = m.eng.tileq ++ [{
        die := dieOfThr tid, tid := tid, uid := t.uid, ticket := t.kticket + 1, ctx := t.ctx, seq := t.seq
        desc := wordsOf 8 bs, mask := BitVec.ofNat 16 (Word.fld (t.reg rs2) 15 0 &&& m.claimOf t)
        after := Word.bit (t.reg rs2) 16, kind := 0, owner := 0, srcDie := dieOfThr tid, outOwner := 0 }]) ∧
  (∀ s tid t r rd rs1 rs2 rs3 (f2 : BitVec 2) (store : Bool), Issues s tid 4 t r → Word.fld (f2.setWidth 64) 1 1 = 0 →
    (t.reg rs1).toNat % 32 = 0 → holdOff (t.reg rs2) % 32 = 0 → Word.fld (t.reg rs2) 63 27 = 0 →
    Word.fld (t.reg rs3) 15 0 ≠ 0 → Word.fld (t.reg rs3) 31 16 ≠ 0 →
    Word.fld (t.reg rs3) 15 0 ≤ Word.fld (t.reg rs3) 47 32 → Word.fld (t.reg rs3) 15 0 ≤ Word.fld (t.reg rs3) 63 48 →
    holdOff (t.reg rs2) + ((Word.fld (t.reg rs3) 31 16 - 1) * Word.fld (t.reg rs3) 47 32 + Word.fld (t.reg rs3) 15 0) * 32
      ≤ holdSize →
    r.ticketRoom t = true → (r.engSlot (dieOfThr tid) (holdEng (t.reg rs2))).isSome = true →
    Gives (if store then .hst tid rd rs1 rs2 rs3 f2 else .hld tid rd rs1 rs2 rs3 f2) s fun n =>
      n.thread? tid = some (({ t with kticket := t.kticket + 1 }.setReg rd (BitVec.ofNat 64 (t.kticket + 1))).retire 4) ∧
      ∃ x, n.eng.xfers = r.eng.xfers ++ [x] ∧ x.kind = (if store then 1 else 0) ∧ x.tid = tid ∧ x.uid = t.uid ∧
        x.ticket = t.kticket + 1 ∧ x.a1 = t.reg rs1 ∧ x.a2 = t.reg rs2 ∧ x.a3 = t.reg rs3 ∧ x.opt = (f2 &&& 1 == 1) ∧
        x.pos = 0) ∧
  (∀ s tid t r rd rs1 rs2 (f7 : BitVec 7) bs m (scat : Bool), Issues s tid 4 t r → f7 = 0 ∨ f7 = 1 →
    (if f7 = 1 then (t.reg rs2).toNat % 32 = 0
      else holdOff (t.reg rs2) % 32 = 0 ∧ Word.fld (t.reg rs2) 63 27 = 0 ∧
        holdOff (t.reg rs2) + 32 * ((Word.fld ((wordsOf 4 bs).toList.getD 2 0) 31 0 - 1) *
          Word.fld ((wordsOf 4 bs).toList.getD 3 0) 63 32 + Word.fld ((wordsOf 4 bs).toList.getD 2 0) 47 32) ≤ holdSize ∧
        (m.engSlot (dieOfThr tid) (holdEng (t.reg rs2))).isSome = true) →
    r.ticketRoom t = true → r.loadBytes tid t (t.reg rs1).toNat 32 false {} = (.ok bs, m) →
    m.thread? tid = some t → descCheck (wordsOf 4 bs) = 0 →
    Gives (if scat then .scat tid rd rs1 rs2 f7 else .gath tid rd rs1 rs2 f7) s fun n =>
      n.thread? tid = some (({ t with kticket := t.kticket + 1 }.setReg rd (BitVec.ofNat 64 (t.kticket + 1))).retire 4) ∧
      ∃ x, n.eng.xfers = m.eng.xfers ++ [x] ∧ x.kind = (if scat then 3 else 2) ∧ x.tid = tid ∧ x.uid = t.uid ∧
        x.ticket = t.kticket + 1 ∧ x.a2 = t.reg rs2 ∧ x.opt = (f7 == 1) ∧ x.desc = wordsOf 4 bs ∧ x.pos = 0)

/-- Fences (R107, R109 to R111): a fence whose write-backs are all accepted leaves its thread past the instruction, and the basin
as its releases and then its acquires over its ranges leave it. FENCE.ACQ over all memory leaves its core no clean L1 byte.
FENCE.I empties the core's instruction cache (R93). -/
def Obligations.FencesComplete : Prop :=
  (∀ s tid t r rs1 rs2, Issues s tid 4 t r →
    Gives (.fenceAcq tid 0 rs1 rs2) s fun n => n.thread? tid = some (t.retire 4) ∧
      n.basin = ((r.fenceRanges tid t rs1 rs2).2.fenceAcq tid (r.fenceRanges tid t rs1 rs2).1).basin) ∧
  (∀ s tid t r, Issues s tid 4 t r →
    Gives (.fenceAcq tid 0 0 0) s fun n =>
      ∀ k c, NMap.get? n.basin.l1 k = some c → keyUnit k = coreOfThr tid → c.dirty = true) ∧
  (∀ s tid t r rs1 rs2 m, Issues s tid 4 t r →
    (r.fenceRanges tid t rs1 rs2).2.fenceRel tid t (r.fenceRanges tid t rs1 rs2).1 = (true, m) →
    Gives (.fenceRel tid 0 rs1 rs2) s (fun n => n.thread? tid = some (t.retire 4) ∧ n.basin = m.basin) ∧
    Gives (.fenceFull tid 0 rs1 rs2) s fun n => n.thread? tid = some (t.retire 4) ∧
      n.basin = (m.fenceAcq tid (r.fenceRanges tid t rs1 rs2).1).basin) ∧
  (∀ s tid t r, Issues s tid 4 t r →
    Gives (.fenceI tid) s fun n => n.thread? tid = some (t.retire 4) ∧
      ∀ k, keyUnit k = coreOfThr tid → NMap.get? n.basin.icache k = none)

/-- Completion counters (R120): CTRREAD and CTRADD give the value before, CTRADD after a release over all memory adds modulo
2^64; CTRWAIT gives the value that meets its threshold, at once or when it is resumed, and waits for it otherwise. -/
def Obligations.CountersRead : Prop :=
  (∀ s tid t r rd rs1 ctx j c, Issues s tid 4 t r → ctrOperand (t.reg rs1) = some (ctx, j) → s.ctx? ctx = some c →
    c.berth = t.berth →
    Gives (.ctrread tid rd rs1 0) s fun n => n.thread? tid = some ((t.setReg rd (c.ctr j)).retire 4)) ∧
  (∀ s tid t r rd rs1 rs2 ctx j c m, Issues s tid 4 t r → ctrOperand (t.reg rs1) = some (ctx, j) → s.ctx? ctx = some c →
    c.berth = t.berth → r.fenceRel tid t [(0, allMem)] = (true, m) →
    Gives (.ctradd tid rd rs1 rs2) s fun n => n.thread? tid = some ((t.setReg rd (c.ctr j)).retire 4) ∧
      (n.ctx? ctx).map (·.ctr j) = some (c.ctr j + t.reg rs2)) ∧
  (∀ s tid t r rd rs1 rs2 ctx j c, Issues s tid 4 t r → ctrOperand (t.reg rs1) = some (ctx, j) → s.ctx? ctx = some c →
    c.berth = t.berth →
    Gives (.ctrwait tid rd rs1 rs2) s fun n => n.thread? tid =
      if (t.reg rs2).toNat ≤ (c.ctr j).toNat then some ((t.setReg rd (c.ctr j)).retire 4)
      else some { t with wait := .counter rd ctx j (t.reg rs2) }) ∧
  (∀ s tid t rd ctx j thr c, s.thread? tid = some t → t.frozen = false → t.wait = .counter rd ctx j thr →
    s.ctx? ctx = some c → thr.toNat ≤ (c.ctr j).toNat →
    Gives (.ctrwaitResume tid) s fun n =>
      n.thread? tid = some (({ t.setReg rd (c.ctr j) with wait := .none }).retire 4))

/-- ECALL raises ENVCALL, cause 6, and EBREAK cause 7 (R92): with FAULT_TO_HANDLER and room in the berth's fault queue a record
of the thread, its pc, cause and status joins the queue and the thread waits for it; else its command fails with the
cause's status (R122). -/
def Obligations.EnvironmentCalls : Prop :=
  ∀ s tid t r c i cause, i = .ecall tid ∧ cause = 6 ∧ Issues s tid 4 t r ∨ i = .ebreak tid false ∧ cause = 7 ∧ Issues s tid 4 t r ∨
      i = .ebreak tid true ∧ cause = 7 ∧ Issues s tid 2 t r →
    t.handler = false → r.cmd? t.ctx t.seq = some c →
    (∀ e, c.toHandler = true → r.berth? t.berth = some e → e.faultq.length < e.faultqSize → e.faultqVa = 0 →
      e.handlerTid ≠ some tid →
      Gives i s fun n => n.thread? tid = some { t with wait := .fault r.fresh } ∧
        ∃ f, (n.berth? t.berth).map (·.faultq) = some (e.faultq ++ [f]) ∧ f.id = r.fresh ∧ f.pc = t.pc ∧ f.cause = cause ∧
          f.status = causeStatus cause ∧ f.tid = tid ∧ f.uid = t.uid ∧ f.sync = true) ∧
    (c.toHandler = false → c.failed = false →
      Gives i s fun n => (∀ k x, n.thread? k = some x → x.handler = true ∨ x.ctx ≠ t.ctx ∨ x.seq ≠ t.seq) ∧
        ∃ d, n.cmd? t.ctx t.seq = some d ∧ d.failed = true ∧ d.status = causeStatus cause)

/-- Loads (R91, R96, R114): the elements' bytes reach their registers, sign- or zero-extended or NaN-boxed as the form says, and the
thread goes on; LDAQ ends with FENCE.ACQ over all memory. -/
def Obligations.LoadsReachRegisters : Prop :=
  (∀ s tid t r rd lg sg rs1 imm (c : Bool) u bs m, Issues s tid (if c then 2 else 4) t r → lg ≤ 3 → (lg = 3 → sg = true) →
    r.loadBytes tid t (t.reg rs1 + imm.signExtend 64).toNat (2 ^ lg) false u = (.ok bs, m) → m.thread? tid = some t →
    Gives (.threadLoad tid (.int rd lg sg) rs1 imm c u) s fun n => n.thread? tid = some
      ((t.setReg rd (if sg then sext (8 * 2 ^ lg) (ofBytes bs) else BitVec.ofNat 64 (ofBytes bs))).retire (if c then 2 else 4))) ∧
  (∀ s tid t r form rs1 imm (c : Bool) u es done l m, Issues s tid (if c then 2 else 4) t r →
    t.loadElems form (t.addr rs1 imm (loadIsVec form)) = some es →
    State.loadElems tid t false u es r = (done, none, l, m) → m.thread? tid = some t →
    Gives (.threadLoad tid form rs1 imm c u) s fun n => n.thread? tid = some
      (Thread.retire (match form with
        | .vec v => { (done.foldl (fun t e => t.putElem form e.1 e.2) t).vtail v m.fresh with vstart := 0 }
        | _ => done.foldl (fun t e => t.putElem form e.1 e.2) t) (if c then 2 else 4))) ∧
  (∀ s tid t r rd rs1 (f7 : BitVec 7) u bs m, Issues s tid 4 t r → f7 = 0 ∨ f7 = 1 →
    r.loadBytes tid t (t.reg rs1).toNat (if f7 = 0 then 4 else 8) true u = (.ok bs, m) → m.thread? tid = some t →
    Gives (.ldaq tid rd rs1 0 f7 u) s fun n =>
      n.thread? tid = some ((t.setReg rd (sext (8 * (if f7 = 0 then 4 else 8)) (ofBytes bs))).retire 4) ∧
      n.basin = (m.acqAll tid).basin)

/-- Stores (R91, R96, R114): a store retires with memory as the store of its elements' bytes leaves it; SDRL's comes after a
release over all memory. -/
def Obligations.StoresRetire : Prop :=
  (∀ s tid t r rs2 lg rs1 imm (c : Bool) l m, Issues s tid (if c then 2 else 4) t r → lg ≤ 3 →
    r.storeBytes tid t (t.reg rs1 + imm.signExtend 64).toNat (bytesOf (2 ^ lg) (t.reg rs2).toNat) false = (.ok l, m) →
    m.thread? tid = some t →
    Gives (.threadStore tid (.int rs2 lg) rs1 imm c) s fun n =>
      n.thread? tid = some (t.retire (if c then 2 else 4)) ∧ n.basin = m.basin ∧ n.mem = m.mem) ∧
  (∀ s tid t r form rs1 imm (c : Bool) es l m, Issues s tid (if c then 2 else 4) t r →
    t.storeElems form (t.addr rs1 imm (storeIsVec form)) = some es →
    State.storeElems tid t false es r = (none, l, m) → m.thread? tid = some t →
    Gives (.threadStore tid form rs1 imm c) s fun n =>
      n.thread? tid = some (Thread.retire (if storeIsVec form then { t with vstart := 0 } else t) (if c then 2 else 4)) ∧
      n.basin = m.basin ∧ n.mem = m.mem) ∧
  (∀ s tid t r rs1 rs2 (f7 : BitVec 7) p l m, Issues s tid 4 t r → f7 = 0 ∨ f7 = 1 →
    r.fenceRel tid t [(0, allMem)] = (true, p) →
    p.storeBytes tid t (t.reg rs1).toNat (bytesOf (if f7 = 0 then 4 else 8) (t.reg rs2).toNat) true = (.ok l, m) →
    m.thread? tid = some t →
    Gives (.sdrl tid 0 rs1 rs2 f7) s fun n => n.thread? tid = some (t.retire 4) ∧ n.basin = m.basin ∧ n.mem = m.mem)

/-- Atomics on DRAM (R94, R115, R116): the old value reaches the destination; LR takes a reservation on its line; SC stores and gives
0 where its reservation stands, gives 1 and stores nothing where it does not, and ends the reservation. With rl a release over all
memory comes first, with aq an acquire over all memory last. -/
def Obligations.AtomicsComplete : Prop :=
  (∀ s tid t r0 r rd rs1 rs2 op wd aq rl u i ga pa p bs m, Issues s tid 4 t r0 →
    i = .amofaddW tid rd rs1 rs2 aq rl u ∧ op = .fadd ∧ wd = .w ∨
      i = .amo tid rd rs1 rs2 op wd aq rl u ∧ amoLegal rd rs2 op wd = true →
    (if rl then r0.fenceRel tid t [(0, allMem)] else (true, r0)) = (true, r) →
    (t.reg rs1).toNat % amoBytes wd = 0 → r.xl t (t.reg rs1).toNat .write = (.ok ga, p) → ga < 2 ^ 43 → isReg ga = false →
    p.dramAddr (dieOfThr tid) ga = some pa →
    p.amoDram tid t pa op wd (t.pairReg rs2 wd).toNat (t.pairReg rd wd).toNat u = (.ok bs, m) →
    Gives i s fun n => n.thread? tid = some ((t.putOld rd wd (ofBytes bs)).retire 4) ∧
      n.basin = (if aq then m.acqAll tid else m).basin ∧ n.mem = m.mem) ∧
  (∀ s tid t r0 r rd rs1 (dword aq rl : Bool) u pa p m bs q, Issues s tid 4 t r0 →
    (if rl then r0.fenceRel tid t [(0, allMem)] else (true, r0)) = (true, r) →
    r.lrscAddr tid t (t.reg rs1).toNat (if dword then 8 else 4) .read = (.ok pa, p) →
    p.present (homeOf pa) = true → p.ownCheck (p.threadReq tid t pa) (p.pot (pa / 0x10000)) false = .allow →
    p.recall (lineOf pa) (p.threadReq tid t pa) = (false, m) →
    m.homeRead (p.threadReq tid t pa) (secOf pa) ((List.range (if dword then 8 else 4)).map fun i => pa % 32 + i) true u = q →
    q.1.toLd (secOf pa) (pa % 32) (if dword then 8 else 4) = .ok bs →
    Gives (.lr tid rd rs1 dword aq rl u) s fun n =>
      n.thread? tid = some ((t.setReg rd (sext (8 * (if dword then 8 else 4)) (ofBytes bs))).retire 4) ∧
      NMap.get? n.basin.resv tid = some (lineOf pa, t.uid)) ∧
  (∀ s tid t r0 r rd rs1 rs2 (dword aq rl : Bool) pa p bytes, Issues s tid 4 t r0 →
    (if rl then r0.fenceRel tid t [(0, allMem)] else (true, r0)) = (true, r) →
    r.lrscAddr tid t (t.reg rs1).toNat (if dword then 8 else 4) .write = (.ok pa, p) →
    bytes = (List.range (if dword then 8 else 4)).map (fun i =>
      (pa % 32 + i, byteAt (bytesOf (if dword then 8 else 4) (t.reg rs2).toNat) i)) →
    (NMap.get? p.basin.resv tid ≠ some (lineOf pa, t.uid) →
      Gives (.sc tid rd rs1 rs2 dword aq rl) s fun n => n.thread? tid = some ((t.setReg rd 1).retire 4) ∧ n.mem = p.mem ∧
        ∀ q, q = p.modBasin (fun b => { b with resv := NMap.erase b.resv tid }) →
          n.basin = (if aq then q.acqAll tid else q).basin) ∧
    (∀ m, NMap.get? p.basin.resv tid = some (lineOf pa, t.uid) → (p.redOpAt pa = 0 ∨ redWhole (p.redOpAt pa) bytes = true) →
      p.homeWrite (p.threadReq tid t pa) t.ctx t.seq (secOf pa) bytes false = (0, false, m) →
      Gives (.sc tid rd rs1 rs2 dword aq rl) s fun n => n.thread? tid = some ((t.setReg rd 0).retire 4) ∧ n.mem = m.mem ∧
        ∀ q, q = m.modBasin (fun b => { b with resv := NMap.erase b.resv tid }) →
          n.basin = (if aq then q.acqAll tid else q).basin))

/-- Range operations (R112, R113): a prefetch never faults; BWB, BINV and SPENT.B go through their lines or sectors and retire;
SPENT.H marks every sector of its hold range spent (R84). -/
def Obligations.RangeOperations : Prop :=
  (∀ s tid t r rs1 rs2, Issues s tid 4 t r →
    Gives (.bpref tid 0 rs1 rs2) s fun n => n.thread? tid = some (t.retire 4)) ∧
  (∀ s tid t r rs1 rs2 i (drop : Bool) a m, Issues s tid 4 t r →
    i = (if drop then .binv tid 0 rs1 rs2 else .bwb tid 0 rs1 rs2) →
    rangeLoop (fun s a _ => s.backStep tid t drop a) (rangeLines (t.reg rs1).toNat (t.reg rs2).toNat) r = (.go, a, m) →
    Gives i s fun n => n.thread? tid = some (t.retire 4) ∧ n.basin = m.basin ∧ n.mem = m.mem) ∧
  (∀ s tid t r rs1 rs2 a m, Issues s tid 4 t r →
    rangeLoop (fun s a k => s.spentStep tid t a k)
      (blockPieces 32 ((t.reg rs2).toNat / 32 + 2) (t.reg rs1).toNat (t.reg rs2).toNat) r = (.go, a, m) →
    Gives (.spentB tid 0 rs1 rs2) s fun n => n.thread? tid = some (t.retire 4) ∧ n.basin = m.basin ∧ n.mem = m.mem) ∧
  (∀ s tid t r rs1 rs2 k, Issues s tid 4 t r → Word.fld (t.reg rs1) 63 27 = 0 → holdOff (t.reg rs1) % 32 = 0 →
    holdOff (t.reg rs1) + (t.reg rs2).toNat ≤ holdSize →
    r.cmdSlot (dieOfThr tid) t.ctx t.seq (holdEng (t.reg rs1)) = some k →
    Gives (.spentH tid 0 rs1 rs2) s fun n => n.thread? tid = some (t.retire 4) ∧
      ∀ j < (t.reg rs2).toNat / 32, (n.side k (holdOff (t.reg rs1) + 32 * j)).spent = true)

/-- Moorings and ends of threads (R117 to R119, R124): MPOP gives a free mooring of the pool, which is free no more; MPUSH makes a
mooring of the pool free again; KRESUME takes its record from the queue; KEXIT ends its thread. -/
def Obligations.MooringsAndEnds : Prop :=
  (∀ s tid t r rd rs1 e p, Issues s tid 4 t r → r.moorAllowed t (Word.fld (t.reg rs1) 7 0) = true → t.isConvoy = false →
    r.berth? (Word.fld (t.reg rs1) 7 0) = some e → e.pool = some p → p.free ≠ [] →
    Gives (.mpop tid rd rs1 0) s fun n => ∃ pa ∈ p.free,
      n.thread? tid = some ((t.setReg rd (BitVec.ofNat 64 pa)).retire 4) ∧
      ((n.berth? (Word.fld (t.reg rs1) 7 0)).bind (·.pool)).map (·.free) = some (p.free.filter (· != pa))) ∧
  (∀ s tid t r rs1 rs2 e p, Issues s tid 4 t r → r.moorAllowed t (Word.fld (t.reg rs1) 7 0) = true → t.isConvoy = false →
    r.berth? (Word.fld (t.reg rs1) 7 0) = some e → e.pool = some p → (t.reg rs2).toNat % 0x10000 = 0 →
    (t.reg rs2).toNat ∈ p.all → (t.reg rs2).toNat ∉ p.free → (r.pot ((t.reg rs2).toNat / 0x10000)).state ≠ .quarantined →
    Gives (.mpush tid 0 rs1 rs2) s fun n => n.thread? tid = some (t.retire 4) ∧
      ((n.berth? (Word.fld (t.reg rs1) 7 0)).bind (·.pool)).map (·.free) = some ((t.reg rs2).toNat :: p.free)) ∧
  (∀ s tid t r rs1 rs2 e f, Issues s tid 4 t r → t.handler = true → r.berth? t.berth = some e →
    e.faultq.find? (fun q => q.id == (t.reg rs1).toNat) = some f → (t.reg rs2).toNat ≤ 1 → f.sync = true →
    (∀ x, r.thread? f.tid = some x → x.uid = f.uid → x.wait = .fault f.id) → f.tid ≠ tid →
    Gives (.kresume tid 0 rs1 rs2) s fun n =>
      (n.berth? t.berth).map (·.faultq) = some (e.faultq.filter fun q => q.id != f.id) ∧
      ∀ x, r.thread? f.tid = some x → x.uid = f.uid →
        n.thread? f.tid = some { (if (t.reg rs2).toNat = 1 then x.retire x.ilen else x) with wait := .none }) ∧
  (∀ s tid t r, Issues s tid 4 t r → t.handler = false →
    Gives (.kexit tid 0 0 0) s fun n => n.thr.threads = NMap.erase r.thr.threads tid ∧ n.thr.tickets = r.thr.tickets)

/-- Watched control blocks (R127, R128, R130, R131): a watch that fires, a backstop and a re-fetch read line 0 of the context. Where it gives
indices within their ranges, the context's SQ_TAIL and CQ_HEAD become those read; where they are out of range the context stops
in ERROR with code 2. The re-read of SEQ takes the entry that has come, and goes on with the context. -/
def Obligations.ControlBlocksRead : Prop :=
  ((∀ (s : State) ctx x, s.ctx? ctx = some x → x.state = 1 → s.berthActive x.berth = true → s.lk.takes = true →
    exec (.watchFire ctx) s = .next (s.ctxRead ctx false) ∧
    (∀ port, x.port = some port → exec (.watchRefetch port ctx) s = .next (s.ctxRead ctx false)) ∧
    (∀ m, x.tries ≠ 0 → s.takeOne ctx true = (true, m) → exec (.seqReread ctx) s = .next (m.pump ctx)) ∧
    (∀ m, x.tries ≠ 0 → s.takeOne ctx true = (false, m) → exec (.seqReread ctx) s = .next m)) ∧
  (∀ (s : State) home, home ≤ 72 → s.lk.takes = true → (home = 72 ∨ s.present home = true) →
    exec (.watchBackstop home) s = .next ((s.lk.ctxs.filter fun e => Nat.min e.2.home 72 == home && e.2.state == 1 &&
      s.berthActive e.2.berth).foldl (fun s e => s.ctxRead e.1 true) s))) ∧
  (∀ (s : State) ctx x rd m, s.ctx? ctx = some x → s.vaRead x.berth x.rcbVa 16 = (rd, m) → rd.wait = false → rd.st = 0 →
    (rdLE rd.bytes 8 8 < x.cqHead ∨ rdLE rd.bytes 8 8 > x.cqTail ∨ rdLE rd.bytes 0 8 < x.sqHead ∨
      rdLE rd.bytes 0 8 > x.sqHead + 2 ^ x.sqLog2 →
      s.ctxRead ctx false = (m.watchArm ctx x).ctxStop ctx 2 x.rcbVa) ∧
    (x.cqHead ≤ rdLE rd.bytes 8 8 → rdLE rd.bytes 8 8 ≤ x.cqTail → x.sqHead ≤ rdLE rd.bytes 0 8 →
      rdLE rd.bytes 0 8 ≤ x.sqHead + 2 ^ x.sqLog2 →
      s.ctxRead ctx false = ((m.watchArm ctx x).modCtx ctx fun x => { x with
        sqTail := rdLE rd.bytes 0 8, cqHead := rdLE rd.bytes 8 8 }).pump ctx))

/-- Commands that become ready and start (R134, R137 to R140, R157, R256, R302): a taken command that meets R137 is made ready; a
ready RUN whose units are present and free starts; one that needs several dies first reserves them; a SIGNAL completes; a
PASSAGE joins the convoy roll; an anchor generation fixes the group's anchor. -/
def Obligations.CommandsStart : Prop :=
  (∀ (s : State) ctx seq c, s.cmd? ctx seq = some c →
    (c.phase = .taken → s.isReady c = true → exec (.commandReady ctx seq) s = .next ((s.makeReady c).pump ctx)) ∧
    (c.opcode = 1 → c.phase = .ready → c.dies.length = 1 → s.startHeld c = false → s.unitMissing c = false →
      s.outranked c = false → c.dies.all (s.dieFree c) = true →
      exec (.run ctx seq) s = .next ((s.begin c).pump ctx)) ∧
    (∀ m, c.opcode = 2 → c.phase = .ready → s.complete c 0 s.clk.now (s.clk.now - c.tReady) 0 = (true, m) →
      exec (.signal ctx seq) s = .next (m.pump ctx)) ∧
    (c.opcode = 0x10 → c.phase = .ready →
      exec (.passage ctx seq) s = .next ((s.modCmd ctx seq fun c => { c with phase := .roll }).pump ctx)) ∧
    (∀ m, c.opcode = 1 → c.phase = .ready → c.dies.length > 1 → s.startHeld c = false → s.unitMissing c = false →
      s.imagesAgree c = true → s.outranked c = false →
      m = (s.modCmd ctx seq fun c => { c with phase := .scheduled }).reserveDies c c.dies →
      (c.dies.all fun d => NMap.get? m.lk.resvDies d == some (ctx, seq) && m.dieFree c d) = true →
      exec (.multiDieSchedule ctx seq) s = .next ((m.begin c).pump ctx)) ∧
    (∀ groupMax a g, c.phase = .prescan → c.anchorMode = 2 → c.anchor = some a →
      NMap.get? s.erh.groups c.group = some g → bitAt g.flags.toNat 0 = true → g.berth = c.berth →
      exec (.anchorGeneration ctx seq groupMax) s = .next (((s.modErh fun e => { e with
        groups := NMap.put e.groups c.group { g with agen := g.agen + 1 } }).modCmd ctx seq fun c => { c with
          anchor := some (max a (min groupMax 511)) }).thaw ctx seq))) ∧
  (∀ (s : State) ctx seq c u h m1 l m2 a b m3 ta tb, s.cmd? ctx seq = some c → c.phase = .prescan → c.anchor = none → c.anchorMode = 1 →
    s.scanRead c (c.word 3).toNat 64 u = (h, m1) → h.wait = false → h.st = 0 →
    m1.scanRead c (rdLE h.bytes 8 8) (32 * Nat.min 4096 (rdLE h.bytes 16 4)) u = (l, m2) → l.wait = false → l.st = 0 →
    State.scanList c u (blocksOf 32 (Nat.min 4096 (rdLE h.bytes 16 4)) l.bytes) m2 = (.ok a b, m3) →
    maxInt a = some ta → maxInt b = some tb →
    exec (.prescan ctx seq u) s = .next ((m3.modCmd ctx seq fun c => { c with
      anchor := some (anchorOf ta tb (rdLE h.bytes 0 8)).1, clamped := (anchorOf ta tb (rdLE h.bytes 0 8)).2
      group := rdLE h.bytes 20 4
      flags := c.flags ||| flagIf (anchorOf ta tb (rdLE h.bytes 0 8)).2 flagAnchorClamp }).thaw ctx seq)) ∧
  (∀ (s : State) ctx seq c reg mk m1 m2 b, s.cmd? ctx seq = some c → c.opcode = 0x11 → c.phase = .ready → s.startHeld c = false →
    (s.lk.cmds.any fun q => q.ctx == ctx && q.opcode == 0x11 && q.phase.started) = false → s.bth.convoy = some reg →
    s.unitMissing c = false → s.imagesAgree c = true → s.outranked c = false → c.dies.all (s.dieFree c) = true →
    s.leave.makeUp reg (Word.fld (c.word 14) 15 0) (Word.fld (c.word 14) 31 16) = (mk, m1) → mk.rows ≠ [] →
    m1.paWrite .operator (c.word 13).toNat (m1.manifest mk) = (0, false, m2) →
    (m2.takeBatch c mk).cmd? ctx seq = some b →
    exec (.convoyStep ctx seq) s = .next (((m2.takeBatch c mk).begin b).pump ctx))

/-- Commands that are pre-empted, restored, replayed, ended or timed out (R141, R153 to R155, R264, R265, R358). -/
def Obligations.CommandsEnd : Prop :=
  (∀ (s : State) ctx seq c, s.cmd? ctx seq = some c →
    (c.phase = .ready ∨ c.phase = .scheduled → c.opcode = 1 ∨ c.opcode = 0x11 → s.startHeld c = false →
      s.outranked c = false → s.unitMissing c = false → s.holders c ≠ [] →
      (∀ v ∈ s.holders c, (v.phase = .running ∨ v.phase = .replayWait) ∧ v.prio < c.prio ∧ (c.berth = 0 ∨ v.berth = c.berth)) →
      s.spillFits (s.holders c) = true →
      exec (.preempt ctx seq) s = .next ((s.holders c).foldl (fun s v => s.preemptOne c v) s)) ∧
    (∀ sp m, c.phase = .preempting → s.tilesRun ctx seq = false →
      s.lk.spills.find? (fun p => p.ctx == ctx && p.seq == seq) = some sp → s.closeL1 c = (true, m) →
      Gives (.preemptSpillDone ctx seq) s fun n => ∃ k, n = State.tryRun k sp.forCtx sp.forSeq ∧
        (k.cmd? ctx seq).map (·.phase) = (m.cmd? ctx seq).map (fun _ => Phase.preempted) ∧
        ∀ tid t, k.thread? tid = some t → t.ctx = ctx → t.seq = seq → t.handler = true) ∧
    (∀ sp, s.lk.spills.find? (fun p => p.ctx == ctx && p.seq == seq) = some sp → c.phase = .preempted → c.failed = false →
      s.lk.takes = true → s.outranked c = false → s.ownFree c sp = true → c.trigger = 0 →
      Gives (.restore ctx seq) s fun n => (n.cmd? ctx seq).map (·.phase) = some .running ∧
        n.lk.spills.find? (fun p => p.ctx == ctx && p.seq == seq) = none) ∧
    (∀ m1 snap m2 m3, c.phase = .running ∨ c.phase = .stopping → s.workLeft ctx seq = false → s.closeMem c = (true, m1) →
      m1.writeSnap c c.endStatus = (snap, false, m2) →
      m2.complete { c with status := c.endStatus } c.endStatus c.tStart (c.tStart - c.tReady) snap = (true, m3) →
      c.opcode ≠ 0x11 →
      exec (.commandComplete ctx seq) s = .next (((m3.traceEnd c c.endStatus).forget c).pump ctx)) ∧
    (c.failed = false → c.phase.holds = true → (∀ p ∈ s.bth.roll, ¬(p.ctx = ctx ∧ p.seq = seq)) → s.durNs c ≠ 0 →
      s.durNs c < s.runNs c - s.asideNs ctx seq →
      exec (.maxDurExpire ctx seq) s = .next (s.failCmd ctx seq 0x2001)) ∧
    (∀ m b, c.phase = .replayWait → s.workLeft ctx seq = false → c.check = false → s.repaired c = true → c.opcode = 1 →
      c.journal = [] → (c.dies.all fun d => s.present d && (s.placeDie c d).isSome) = true → s.closeMem c = (true, m) →
      ((m.replayNotes c).cmd? ctx seq) = some b →
      Gives (.replay ctx seq) s fun n => ∃ k d, n = State.begin k d ∧ k.cmd? ctx seq = some d ∧ d.replays = b.replays + 1 ∧
        d.trigger = 0 ∧ d.flags = 0 ∧ d.anchor = none))

/-- Tiles and transfers move on (R56, R60, R104, R148, R151, R349, R353): an idle engine, or one whose tile enters drain, takes the
first eligible tile of its queue; the run that ends next leaves its engine with its output released or its failure
handled; re-runs, copies and stolen tiles run; a transfer that has moved its last sector, or failed, ends. -/
def Obligations.TilesMoveOn : Prop :=
  (∀ (s : State) die te draw u q, s.engineUp die te = true → s.urgent die te = false → s.nextTile die te = some q →
    (s.inArray die te = none → ((descOf q.desc).accInit = false ∨ s.inDrain die te = none) →
      exec (.tileDispatch die te draw u) s = .next ((s.dequeue q).takeTile q te draw u)) ∧
    (∀ r, s.inArray die te = some r → s.inDrain die te = none → (descOf q.desc).accInit = false →
      exec (.tileDispatch die te draw u) s = .next (((s.enterDrain die te r).dequeue q).takeTile q te draw u))) ∧
  (∀ (s : State) die te defect r m, s.inDrain die te = some r → r.tile.kind ≠ 1 → r.inject = 0 →
    m = ((s.modEng fun e => { e with eng := NMap.erase e.eng (drnKey die te) }).regionWork die te).countRun r.tile
      (descOf r.tile.desc) false r.uncovered →
    exec (.tileComplete die te none defect) s = .next ((m.runPassed r te defect).tileBoundary die) ∧
    ∀ x, exec (.tileComplete die te (some x) defect) s = .next (((m.drawn 2).runFailed r te x).tileBoundary die)) ∧
  (∀ (s : State) die te u q, s.engineUp die te = true → s.inArray die te = none →
    s.eng.reruns.find? (fun q => q.die == die && s.mayRerun q (s.firstEng q) te) = some q →
    exec (.reRun die te u) s = .next ((s.modEng fun e => { e with
      reruns := removeFirst (fun x => x.uid == q.uid && x.ticket == q.ticket) e.reruns }).runTile q te false false u)) ∧
  (∀ (s : State) die te det defect u w, s.engineUp die te = true → s.inArray die te = none →
    s.eng.copies.find? (fun w => w.tile.die == die && w.copy.isNone && s.mayRerun w.tile w.te te) = some w →
    exec (.cuppingCopy die te det defect u) s = .next ((s.copyRun w te det defect u).tileBoundary die)) ∧
  (∀ (s : State) die te src u q c, s.engineUp die te = true → s.inArray die te = none → die ≠ src → s.oneHop die src = true →
    s.urgent die te = false → s.nextTile die te = none →
    s.firstTile (s.eng.tileq.filterMap fun q =>
      if q.die = src ∧ s.stealable die te { q with
          owner := (bitsOf 16 q.mask.toNat).headD 0, outOwner := (bitsOf 16 q.mask.toNat).headD 0 } = true
      then some { q with
        owner := (bitsOf 16 q.mask.toNat).headD 0, outOwner := (bitsOf 16 q.mask.toNat).headD 0 } else none) = some q →
    s.cmd? q.ctx q.seq = some c →
    exec (.tileSteal die te src u) s = .next (s.stealTile die te q c u)) ∧
  (∀ (s : State) t ticket u x k st x' m, s.eng.xfers.find? (fun x => x.is t ticket) = some x → x.paused = false →
    s.xferHeld x = false → s.present x.die = true → s.pwr.boot ≠ .stopped → x.dead = false →
    (if x.usesHold then s.cmdSlot x.die x.ctx x.seq (holdEng x.a2) else some 0) = some k →
    State.xferLoop k u (x.rows * x.rowSecs - x.pos) x s = (some st, x', m) →
    exec (.transferComplete t ticket u) s = .next ((m.chargeRemote s x.die x.ctx x.seq).xferEnd x' st))

/-- Idle regions, slack, retirement of units and self-tests (R150, R364, R367, R371): a stopped region's clock is noted; a full copy
moves the logical number to its spare slot; a chunk that ends counts, and the last one dates the slot's test. -/
def Obligations.UnitsUpkeep : Prop :=
  (∀ (s : State) die east, s.present die = true → NMap.has s.eng.arithStopped (die * 2 + (if east then 1 else 0)) = false →
    ((regionEngines east).all fun te => !s.engineRuns die te) = true → NMap.get? s.rel.testing die = none →
    NMap.getD s.eng.workAt (die * 2 + (if east then 1 else 0)) 0 + 10000 ≤ s.clk.now →
    exec (.arithIdleStop die east) s = .next (s.modEng fun e => { e with
      arithStopped := NMap.put e.arithStopped (die * 2 + (if east then 1 else 0)) () })) ∧
  (∀ (s : State) die rates, s.present die = true →
    exec (.slackWindow die rates) s = .next ((
      ((rates.filter fun r => r.core == false && r.worked && (s.engSlot die r.lunit).isSome).filter fun r => decide (200 * r.rate <
        70 * twiceMedian ((rates.filter fun r => r.core == false && r.worked && (s.engSlot die r.lunit).isSome).map (·.rate)))) ++
      ((rates.filter fun r => r.core == true && r.worked && (s.coreSlot die r.lunit).isSome).filter fun r => decide (200 * r.rate <
        70 * twiceMedian ((rates.filter fun r => r.core == true && r.worked && (s.coreSlot die r.lunit).isSome).map (·.rate))))).foldl
        (fun s r => s.slack die r) s)) ∧
  (∀ (s : State) die core lunit q, s.rel.retiring.find? (fun q => q.1 == die && q.2.1 == core && q.2.2.1 == lunit) = some q →
    core = true ∨ s.engineRuns die lunit = false →
    Gives (.unitRetirementDone die core lunit) s fun n => q ∉ n.rel.retiring ∧
      (core = true → n.regs = (s.setUnitPos die core lunit q.2.2.2).regs)) ∧
  (∀ (s : State) die core slot, s.present die = true → s.rel.selftest = true → NMap.has s.rel.testing die = false →
    s.slotIdle die core slot = true →
    ((s.testSlots die).all fun x => !s.slotIdle die x.1 x.2 ||
      decide (NMap.getD s.rel.testAge (testKey die core slot) 0 ≤ NMap.getD s.rel.testAge (testKey die x.1 x.2) 0)) = true →
    exec (.selftestStart die core slot) s = .next (s.modRel fun r => { r with
      testing := NMap.put r.testing die
        { core := core, slot := slot, chunk := NMap.getD r.testDone (testKey die core slot) 0 } })) ∧
  (∀ (s : State) die x, NMap.get? s.rel.testing die = some x →
    (x.chunk + 1 < (if x.core then 4 else 8) →
      exec (.selftestChunkEnd die true) s = .next (s.modRel fun r => { r with
        testing := NMap.put r.testing die { x with chunk := x.chunk + 1 }
        testDone := NMap.put r.testDone (testKey die x.core x.slot) (x.chunk + 1) })) ∧
    (x.chunk + 1 = (if x.core then 4 else 8) →
      exec (.selftestChunkEnd die true) s = .next (s.modRel fun r => { r with
        testing := NMap.erase r.testing die, testDone := NMap.erase r.testDone (testKey die x.core x.slot)
        testAge := NMap.put r.testAge (testKey die x.core x.slot) s.clk.now })) ∧
    exec (.selftestAbandon die) s = .next (s.modRel fun r => { r with testing := NMap.erase r.testing die }))

/-- Upkeep of DRAM (R216 to R220, Table 8.7): a row is refreshed; a thermal sample gives its stack the state of Table 8.7; a read
held in STOP for 10 ms ends with 0x3301; the scrub rewrites what it corrects; a row that is repaired blocks no more, is
listed with the lowest unused spare, and frees its bank. -/
def Obligations.DramUpkeep : Prop :=
  (∀ (s : State) die chan layer bank row, s.present die = true → chan < 64 → layer < 12 → bank < 64 → row < 516 →
    exec (.dramRefresh die chan layer bank row) s = .next (s.modMem fun m => { m with
      refreshed := NMap.put m.refreshed (refreshKey die chan layer bank row) s.clk.now })) ∧
  (∀ (s : State) die q, s.present die = true → NMap.getD s.mem.heat die .normal ≠ .stop →
    NMap.sorted none s.mem.heat = true →
    Gives (.dramThermalSample die q) s fun n =>
      NMap.getD n.mem.heat die .normal = heatNext (NMap.getD s.mem.heat die .normal) q ∧ n.basin = s.basin) ∧
  (∀ (old : DramHeat) (q : Int), (440 ≤ q → heatNext old q = .stop) ∧ (420 ≤ q → q < 440 → heatNext .normal q = .throttle) ∧
    (380 ≤ q → q < 420 → heatNext .normal q = .warm) ∧ (q < 368 → heatNext old q = .normal) ∧
    (428 ≤ q → heatNext .stop q = .stop) ∧ (408 ≤ q → q < 428 → heatNext .stop q = .throttle) ∧
    (368 ≤ q → q < 380 → heatNext .warm q = .warm)) ∧
  (∀ (s : State) die idx r, (s.mem.stopReads.filter fun r => r.die == die)[idx]? = some r → r.since + 10000000 ≤ s.clk.now →
    (r.uid = 0 → exec (.stopReadTimeout die idx) s = .next ((s.modMem fun m => { m with
      stopReads := removeFirst (· == r) m.stopReads }).reply { Msg.bare .err r.node die r.sector with status := 0x3301 })) ∧
    (r.uid ≠ 0 → r.ticket ≠ 0 → Gives (.stopReadTimeout die idx) s fun n =>
      ∀ x ∈ n.eng.xfers, x.uid = r.uid → x.ticket = r.ticket → x.dead = true)) ∧
  (∀ (s : State) die sector u m, s.present die = true → isDram sector = true → homeOf sector = die → sector % 32 = 0 →
    s.stopHeat die = false → m = (s.cnt die 10 1).pmc die 0x30 1 none →
    ((m.sectRewrite sector u.dram).1 = .data → exec (.patrolScrub die sector u) s = .next (m.sectRewrite sector u.dram).2) ∧
    (∀ p v, (m.sectRewrite sector u.dram).1 = .dataFixed p v → exec (.patrolScrub die sector u) s =
      .next (((((m.sectRewrite sector u.dram).2.dramReport sector 8 p true).cnt die 11 1).pmc die 0x31 1 none)))) ∧
  (∀ (s : State) die chan layer bank row u k, s.mem.blocked.contains (die, chan, layer, bank, row) = true →
    s.spareRow (s.siteNum die) chan layer bank = some k →
    Gives (.rowRetireDone die chan layer bank row u) s fun n => n.mem.blocked.contains (die, chan, layer, bank, row) = false ∧
      ∃ e, n.mem.repairs = s.mem.repairs ++ [e] ∧ e.site = s.siteNum die ∧ e.chan = chan ∧ e.layer = layer ∧ e.bank = bank ∧
        e.row = row ∧ e.spare = k ∧ e.fused = false ∧ e.time = s.clk.now)

/-- A full trace buffer of a die drains to its destination (R431), and a quarantined cargo page is laden again where its source
gives the bytes of its seal (R365). -/
def Obligations.TraceAndCargoRepair : Prop :=
  (∀ (s : State) die t, NMap.get? s.rel.traces die = some t → t.enabled = true → 128 ≤ t.recs.length →
    exec (.traceDrain die) s = .next (s.traceDrain die)) ∧
  (∀ (s : State) page pa data, s.bth.cargoPages[page]? = some pa → (s.pot (pa / 0x10000)).state = .quarantined →
    s.bth.cargoState = .sealed → s.pageBlocked (pa / 0x10000) = false → s.pageSpareless (pa / 0x10000) = false →
    data.length = 0x10000 → Config.sha384 data = NMap.getD s.bth.pageHashes page 0 →
    exec (.cargoRelade page (some data)) s =
      .next (((s.dropPage (pa / 0x10000)).ladePage (pa / 0x10000) data).laden page))

/-- Tracked requests at the home (Table 7.5): a request that meets its line in B, or must yield, is NACKed. A read of a line in I or
S is answered with DataS and adds the requester; in O the owner is asked to forward. A read for ownership of a line in I, or
of one that nobody else holds, is granted at once; the other holders are invalidated first, the owner of a line in O is asked
to forward to the requester. -/
def Obligations.TrackedRequests : Prop :=
  ∀ (s : State) (req : Req) line (starve : Bool) (u : Upset), AtHome s req line → req.node < 72 → u.dirParity = false →
    (∀ m, s.gate req line false (starve || s.isStarving req.node line) = some m →
      exec (.rdS req line starve u) s = .next m) ∧
    (∀ m, s.gate req line true (starve || s.isStarving req.node line) = some m →
      exec (.rdX req line starve u) s = .next m ∧ exec (.upg req line starve) s = .next m) ∧
    (∀ r, r = s.attrCheck req line → s.gate req line false (starve || s.isStarving req.node line) = none →
      (∀ m, NMap.get? r.basin.dir line = none → r.dirRoom line = (true, m) → exec (.rdS req line starve u) s =
        .next ((m.sendData .dataS line req.node u).grantS line DirEnt.empty [req.node] req.node)) ∧
      (∀ m, NMap.get? r.basin.dir line = none → r.dirRoom line = (false, m) →
        exec (.rdS req line starve u) s = .next (m.nackTo line req.node)) ∧
      (∀ e, NMap.get? r.basin.dir line = some e → e.state = .shared →
        exec (.rdS req line starve u) s = .next ((r.sendData .dataS line req.node u).grantS line e [req.node] req.node)) ∧
      (∀ e n, NMap.get? r.basin.dir line = some e → e.state = .owned n → n ≠ req.node →
        exec (.rdS req line starve u) s = .next (r.startFwd line e req 0 n .fwdS req.node))) ∧
    (∀ r, r = s.attrCheck req line → s.gate req line true (starve || s.isStarving req.node line) = none →
      (∀ m, NMap.get? r.basin.dir line = none → r.dirRoom line = (true, m) →
        exec (.rdX req line starve u) s = .next ((m.sendData .dataX line req.node u).grantX line DirEnt.empty req.node) ∧
        exec (.upg req line starve) s = .next ((m.sendData .dataX line req.node {}).grantX line DirEnt.empty req.node)) ∧
      (∀ e, NMap.get? r.basin.dir line = some e → e.state = .shared → e.holders.filter (· != req.node) = [] →
        exec (.rdX req line starve u) s = .next ((r.sendData .dataX line req.node u).grantX line e req.node) ∧
        (e.sharers.contains req.node = true → exec (.upg req line starve) s =
          .next ((r.send (Msg.bare .gntX req.node (homeOf line) line)).grantX line e req.node))) ∧
      (∀ e, NMap.get? r.basin.dir line = some e → e.state = .shared → e.holders.filter (· != req.node) ≠ [] →
        exec (.rdX req line starve u) s = .next (r.startInv line e req 1 (e.holders.filter (· != req.node))) ∧
        (e.sharers.contains req.node = true →
          exec (.upg req line starve) s = .next (r.startInv line e req 2 (e.holders.filter (· != req.node))))) ∧
      (∀ e n, NMap.get? r.basin.dir line = some e → e.state = .owned n → n ≠ req.node → e.lease = false →
        exec (.rdX req line starve u) s = .next (r.startFwd line e req 1 n .fwdX req.node) ∧
        exec (.upg req line starve) s = .next (r.startFwd line e req 1 n .fwdX req.node)))

/-- Untracked requests at the home (R183, R192, R193, R196, R200): a read answers with the bytes that the home holds and their
poison, a Look alike with nothing allocated; a holder whose data is needed makes it a NACK, a refusal an Err with its status;
an atomic answers the old value; a reduction is queued, or NACKed at a full queue; a discard acts on each named sector and a
write-back merges its bytes, both only where the requester may write the page. -/
def Obligations.UntrackedRequests : Prop :=
  ∀ (s : State) (req : Req) line (secs : BitVec 4) (u : Upset), AtHome s req line → u.dirParity = false →
    (∀ (alloc : Bool) rd bs pz m, (s.attrCheck req line).readSecs req line secs alloc u = (rd, bs, pz, m) →
      (rd.wait = false → rd.st = 0 → exec (if alloc then .rdU req line secs u else .look req line secs u) s = .next (m.reply {
        Msg.bare .dataU req.node (homeOf line) line with
        bytes := bs, poison := pz, fwdTo := if alloc then 0 else 1, status := if pz = [] then 0 else 0x3701 })) ∧
      (rd.wait = false → rd.st ≠ 0 → exec (if alloc then .rdU req line secs u else .look req line secs u) s =
        .next (m.reply { Msg.bare .err req.node (homeOf line) line with status := rd.st })) ∧
      (rd.wait = true → rd.st ≠ 0x3301 → exec (if alloc then .rdU req line secs u else .look req line secs u) s =
        .next (m.reply (Msg.bare .nack req.node (homeOf line) line)))) ∧
    (∀ off op width operand comparand old m, off < 128 → off % amoBytes width = 0 → lineOf (line + off) = line →
      (s.attrCheck req line).nearAtomic req (line + off) op width operand.toNat comparand.toNat u = (0, false, old, m) →
      exec (.atN req (line + off) op width operand comparand u) s = .next (m.reply {
        Msg.bare .dataU req.node (homeOf line) line with
        fwdTo := 2, bytes := (List.range (amoBytes width)).map fun i => (off + i, byteAt (bytesOf (amoBytes width) old) i) })) ∧
    (∀ redOp (bytes : List (Nat × BitVec 8)) m, (bytes.all fun p => decide (p.1 < 128)) = true →
      m = s.attrCheck { req with redOp := redOp } line →
      (m.redOpAt line ≠ 0 → (m.basin.updq.filter fun q => q.die == homeOf line && q.slice == chanOf line).length ≥ 64 →
        exec (.redU req line redOp bytes) s = .next (m.reply (Msg.bare .nack req.node (homeOf line) line))) ∧
      ((m.basin.updq.filter fun q => q.die == homeOf line && q.slice == chanOf line).length < 64 →
        ∀ st n, m.redSecs req line bytes = (st, false, n) → exec (.redU req line redOp bytes) s = .next (
          if st = 0 then n else n.reply { Msg.bare .err req.node (homeOf line) line with status := st }))) ∧
    (s.ownCheck req (s.pot (line / 0x10000)) true = .allow →
      exec (.spd req line secs) s =
        .next (((List.range 4).filter fun k => bitAt secs.toNat k).foldl (fun s k => s.spdSector (line + 32 * k)) s) ∧
      ∀ (bytes : List (Nat × BitVec 8)) w m, (bytes.all fun p => decide (p.1 < 128)) = true →
        ((s.attrCheck req line).drainLine line).recall line req = (w, m) →
        exec (.wbU req line bytes) s = .next ((m.breakResv line).mergeLine line bytes [])) ∧
    (s.ownCheck req (s.pot (line / 0x10000)) true ≠ .allow → ∀ m,
      m = s.reply { Msg.bare .err req.node (homeOf line) line with status := 0x4104 } →
      exec (.spd req line secs) s = .next m ∧
      ∀ bytes : List (Nat × BitVec 8), (bytes.all fun p => decide (p.1 < 128)) = true →
        exec (.wbU req line bytes) s = .next m)

/-- Write-backs and messages at a holder (R186, R189, R190, Table 7.7): an owner's dirty bytes merge at the home and WbAck answers,
ownership kept or given up; an invalidation, a forward or a snoop is served, or held while the die awaits its own data. -/
def Obligations.HoldersServe : Prop :=
  ∀ (s : State) die line, AtDie s die line →
    (isDram line = true → s.farOwned die line = true →
      exec (.wbD die line) s = .next ((s.farDrop die line).homeWb die line
        ((s.farLine die line).1.filter fun p => (s.farLine die line).2.contains p.1) (s.farPz die line) false) ∧
      exec (.wbK die line) s = .next ((s.farMarkClean die line).homeWb die line
        ((s.farLine die line).1.filter fun p => (s.farLine die line).2.contains p.1) (s.farPz die line) true)) ∧
    (∀ m, s.msg? .inv die line = some m →
      ((s.dropMsg m).pend? die line = none →
        exec (.inv die line) s = .next ((((s.dropMsg m).farDrop die line)).send (Msg.bare .invAck (homeOf line) die line))) ∧
      (((s.dropMsg m).pend? die line).isSome = true → (s.dropMsg m).dataComing die line = true →
        exec (.inv die line) s = .next ((s.dropMsg m).modPend die line fun p => { p with held := p.held ++ [m] }))) ∧
    (∀ m kind i, (kind, i) = (MsgKind.fwdS, Instr.fwdS die line) ∨ (kind, i) = (MsgKind.fwdX, Instr.fwdX die line) ∨
        (kind, i) = (MsgKind.snpCur, Instr.snpCur die line) →
      s.msg? kind die line = some m →
      ((s.dropMsg m).pend? die line = none ∨ kind = .snpCur → exec i s = .next ((s.dropMsg m).serveFwd die m)) ∧
      (∀ p, (s.dropMsg m).pend? die line = some p → p.kind = 1 ∨ p.kind = 2 → (s.dropMsg m).farOwned die line = false →
        kind ≠ .snpCur →
        exec i s = .next ((s.dropMsg m).modPend die line fun p => { p with held := p.held ++ [m] })))

/-- Answers at the home (R186, R189, R191): an InvAck or FwdAck counts its holder off the transaction in progress, its bytes merged;
the answer of a rebuilt entry's snoop brings bytes only. -/
def Obligations.AnswersAtHome : Prop :=
  ∀ (s : State) die line, AtDie s die line →
    (∀ m, s.msgFrom? .invAck die line = some m →
      exec (.invAck die line) s = .next ((s.dropMsg m).answer line die [] [] false false)) ∧
    (∀ m, s.msgFrom? .fwdAck die line = some m →
      (∀ e t, NMap.get? (s.dropMsg m).basin.dir line = some e → e.txn = some t → t.kind = 4 →
        exec (.fwdAck die line) s = .next ((s.dropMsg m).mergeLine line m.bytes m.poison)) ∧
      (∀ e t, NMap.get? (s.dropMsg m).basin.dir line = some e → e.txn = some t → t.kind ≠ 4 →
        exec (.fwdAck die line) s = .next ((s.dropMsg m).answer line die m.bytes m.poison (m.fwdTo == 1) true)))

/-- Answers at the requester (R183, R186, R188, Table 7.7): data of an untracked read is kept clean in the far part; tracked data is
installed, the waiting access performed and what was held back served; GntX makes the copy owned; a NACK puts the retry
16 × 2^min(n, 6) ns and its jitter off; Err ends the waiting access with its status. -/
def Obligations.AnswersAtRequester : Prop :=
  ∀ (s : State) die line, AtDie s die line →
    (∀ m, s.msg? .dataU die line = some m →
      (m.fwdTo ≠ 0 ∨ homeOf line = die → exec (.dataU die line) s = .next (s.dropMsg m)) ∧
      (∀ n, m.fwdTo = 0 → homeOf line ≠ die → (s.dropMsg m).farAlloc die line = (true, n) →
        exec (.dataU die line) s = .next ((List.range 4).foldl (fun (s : State) k =>
          if secBytes m.bytes k = [] then s
          else s.farFill die (line + 32 * k) ((secBytes m.bytes k).map (·.2)) (m.poison.contains k)) n))) ∧
    (∀ m kind own i, (kind, own, i) = (MsgKind.dataS, false, Instr.dataS die line) ∨
        (kind, own, i) = (MsgKind.dataX, true, Instr.dataX die line) →
      s.msg? kind die line = some m → ∀ n, (s.dropMsg m).install die m own = (true, n) →
      (n.pend? die line = none → exec i s = .next n) ∧
      (∀ p, n.pend? die line = some p → exec i s =
        .next (((n.dropPend die line).performAccess p.tid p.uid p.access).serveHeld die p.held))) ∧
    (∀ m, s.msg? .gntX die line = some m → NMap.has (s.dropMsg m).basin.farLines (heldKey die line) = true →
      exec (.gntX die line) s = .next (((s.dropMsg m).setOwned die line true).served die line true)) ∧
    (∀ m, s.msg? .wbAck die line = some m → exec (.wbAck die line) s = .next (s.dropMsg m)) ∧
    (∀ m jitter, s.msg? .nack die line = some m → exec (.nack die line jitter) s =
      .next ((s.dropMsg m).modPend die line fun p => { p with
        nacked := true, retryAt := s.clk.now + 16 * 2 ^ Nat.min p.tries 6 + jitter % 16, tries := p.tries + 1 })) ∧
    (∀ p, s.pend? die line = some p → p.nacked = true → p.retryAt ≤ s.clk.now →
      exec (.nackRetry die line) s = .next (s.modPend die line fun p => { p with nacked := false })) ∧
    (∀ m p, s.msg? .err die line = some m → (s.dropMsg m).pend? die line = some p →
      exec (.err die line) s = .next ((((s.dropMsg m).dropPend die line).failAccess p.tid p.uid p.access.va m.status).serveHeld
        die p.held))

/-- Commits, strobes and register writes that have a row of their own (R6, R8, R10, R68, R87, R178, R199, R207, R222, R236, R239,
R251, R289, R309, R373): each is the write, by the bus of its sender, of the bytes that hold its field. -/
def Obligations.RegisterRowsWrite : Prop :=
  (∀ (s : State) die, die < 72 → s.present die = true → ∀ (src : Accessor) (value : BitVec 64),
    (∀ slice v, slice < 64 → ∀ op i, (op, i) = (1, Instr.flushHome die (some slice)) ∨ (op, i) = (2, .cleanFar die (some slice)) ∨
        (op, i) = (3, .flushHomeAndCleanFar die (some slice)) → v = op * 2 ^ 60 + slice * 2 ^ 53 →
      exec i s = .next (s.poke .firmware (dieBase die + 0x3008) 8 v)) ∧
    (∀ op i, (op, i) = (1, Instr.flushHome die none) ∨ (op, i) = (2, .cleanFar die none) ∨
        (op, i) = (3, .flushHomeAndCleanFar die none) →
      exec i s = .next (s.poke .firmware (dieBase die + 0x3008) 8 (op * 2 ^ 60 + 2 ^ 59))) ∧
    (∀ slice, slice < 64 → exec (.farQuotaWrite src die slice value) s =
      .next (s.poke src (dieBase die + 0x3100 + slice * 8) 8 value.toNat)) ∧
    (∀ w, w < 16 → exec (.windowCommit src die w) s = .next (s.strobe src (dieBase die + 0x4000 + w * 0x40 + 0x18) 63 0)) ∧
    (∀ set, set < 8 → exec (.spreadCommit src die set) s =
      .next (s.strobe src (dieBase die + 0x5000 + set * 0x80 + 0x20) 63 0)) ∧
    exec (.finCtlCommit src die) s = .next (s.strobe src (dieBase die + 0x200) 63 0) ∧
    exec (.clkCtlCommit src die) s = .next (s.strobe src (dieBase die + 0x300) 63 0) ∧
    exec (.inject src die value) s = .next (s.poke src (dieBase die + 0x211) 1 (Word.fld value 15 8)) ∧
    exec (.fabEcoWrite src die value) s = .next (s.poke src (dieBase die + 0x306) 1 (Word.fld value 55 48))) ∧
  (∀ (s : State) (src : Accessor),
    (∀ site, site < 80 → exec (.dramMgnStart src site) s = .next (s.strobe src (siteBase site + 0x6000) 63 0)) ∧
    (∀ r, r < 76 → (72 ≤ r ∨ s.present r = true) →
      exec (.routeCtlCommit src r) s = .next (s.strobe src (routerBase r + 0x7600) 63 0) ∧
      ∀ p, p < 10 → s.hasCut r p = true →
        exec (.cutRetrain src r p) s = .next (s.strobe src (cutCtlA r p) 63 0x40) ∧
        exec (.cutRestore src r p) s = .next (s.strobe src (cutCtlA r p) 61 0x40) ∧
        ∀ on, exec (.cutForceDown src r p on) s = .next (s.poke src (cutCtlA r p + 7) 1 (if on then 0x40 else 0))) ∧
    (∀ berth bank (value : BitVec 64), berth < 255 →
      (bank < 2 → exec (.bmapRootWrite src berth bank value) s =
        .next (s.poke src (bmapBase berth + bank * 8) 8 value.toNat)) ∧
      exec (.bmapCommit src berth) s = .next (s.strobe src (bmapBase berth + 0x10) 63 0)) ∧
    exec (.erhRctlCommit src) s = .next (s.strobe src erhRctlA 63 0) ∧
    (∀ port, port < 36 →
      exec (.erhRetrain src port) s = .next (s.strobe src (erhCtlA port) 63 0x50) ∧
      exec (.erhRestore src port) s = .next (s.strobe src (erhCtlA port) 61 0x50) ∧
      ∀ on, exec (.erhForceDown src port on) s = .next (s.poke src (erhCtlA port + 7) 1
        ((if on then 0x40 else 0) ||| ((s.reg (erhCtlA port)).toNat / 2 ^ 56 &&& 0x10)))) ∧
    (∀ addr bytes (value : BitVec 64), isReg addr = true → 1 ≤ bytes → bytes ≤ 8 →
      exec (.registerWrite src addr bytes value) s = .next (s.poke src addr bytes value.toNat)))

/-- What a pending change brings (R178, R199, R222, R236): maintenance ends and clears BUSY; a far quota takes effect once the ways that
change part are cleared; a margining step reports its errors and leaves RUNNING; an epoch broadcast switches every router. -/
def Obligations.PendingChangesApply : Prop :=
  (∀ (s : State) die, die < 72 → s.present die = true →
    (NMap.has s.basin.maint die = true → exec (.basinMaintDone die) s =
      .next ((s.modBasin fun b => { b with maint := NMap.erase b.maint die }).setRbit (dieBase die + 0x3008) 0 false)) ∧
    (∀ slice q, NMap.get? s.basin.quotaNew (die * 64 + slice) = some q →
      exec (.farQuotaApply die slice) s = .next ((s.clearWays die slice q).quotaApply die slice q))) ∧
  (∀ (s : State) site errs, site < 80 → s.mem.margining.contains site = true →
    Gives (.dramMgnDone site errs) s fun n => n.mem.margining.contains site = false ∧
      n.rfld (n.canon (siteBase site + 0x6000)) 55 32 = Nat.min errs 0xFFFFFF ∧
      n.rbit (n.canon (siteBase site + 0x6000)) 62 = false) ∧
  (∀ (s : State), exec .epochBroadcast s = .next s.epochApply)

/-- Frames and training of cuts (R225 to R230, R239, R240): the next frame in sequence is taken, acknowledges, returns credits and may
ask for a replay; one that is out of sequence is discarded, one with a bad bundle asks for it again; training whose widths
agree makes a side active with the width and version found, three failed attempts or a failed end take it down. -/
def Obligations.CutsRun : Prop :=
  ∀ (s : State) r p, r < 76 → p < 10 → s.hasCut r p = true →
    (∀ f : CutFrame, s.cutState r p = 2 →
      (((List.range 9).filter fun b => f.badBundles.contains b && bitAt (s.rfld (cutStatA r p) 52 44) b) = [] →
        (f.seq ≠ (s.cutPort r p).rxSeq + 1 → exec (.cutFrame r p f) s = .next s) ∧
        (f.seq = (s.cutPort r p).rxSeq + 1 → exec (.cutFrame r p f) s = .next ((s.modCutPort r p fun k => { k with
          rxSeq := f.seq, lastFwd := f.seq, nakSent := false }).cutControl r p f))) ∧
      (∀ bad, bad = ((List.range 9).filter fun b => f.badBundles.contains b && bitAt (s.rfld (cutStatA r p) 52 44) b) → bad ≠ [] →
        exec (.cutFrame r p f) s = .next (s.cutBad r p bad))) ∧
    (∀ q, (s.cutPort r p).nakReq = some q →
      exec (.cutReplay r p) s = .next (s.modCutPort r p fun k => { k with nakReq := none })) ∧
    (s.cutState r p = 1 ∨ s.cutState r p = 3 →
      (∀ x v w used, trainResult (s.cutPort r p).activeOff.toNat x = some (v, w, used) → x.confirm = true → w ≠ 0 →
        x.localGood = 0x1FF →
        Gives (.cutTrain r p x) s fun n => (n.cutPort r p).training = some x ∧ (n.cutPort r p).trained = true ∧
          (n.cutPort r p).peerSeq = some x.peerSeq) ∧
      (∀ x v w used, (s.cutPort r p).trained = true → (s.cutPort r p).training = some x →
        trainResult (s.cutPort r p).activeOff.toNat x = some (v, w, used) →
        exec (.cutTrainDone r p) s = .next (((s.setReg (cutStatA r p) (Word.setFld (Word.setFld (Word.setFld (Word.setFld
            (Word.setFld (s.reg (cutStatA r p)) 63 60 2) 59 56 v) 55 53 w) 52 44 used) 25 24 0)).modCutPort r p fun k => { k with
          training := none, trained := false, nakSent := false, peerSeq := none, nakReq := none, isReset := false
          rxSeq := if k.isReset then k.lastFwd else k.rxSeq
          replay := k.replay.filter fun e => seqAfter e.1 x.peerSeq
          credits := Vector.ofFn fun i => x.credits.getD i.val 0 }).cutTx r p)) ∧
      (∀ q, exec (.cutFreezeTimeout r p q) s = .next (s.attemptFails r p q))) ∧
    (∀ q, s.cutState r p ≠ 0 →
      s.cutFailedEnd r p = true ∨ s.rbit (cutCtlA r p) 62 = true ∨ s.rfld (cutStatA r p) 25 24 = 3 →
      exec (.cutDown r p q) s = .next (s.cutDown r p q)) ∧
    (∀ m, m = (s.modCutPort r p fun k => { k with
        credits := Vector.replicate 8 0, nakSent := false, training := none, trained := false, isReset := true }) →
      (m.cutState r p ≠ 0 → exec (.cutPortReset r p) s = .next (m.cutStart r p)) ∧
      (m.cutState r p = 0 → exec (.cutPortReset r p) s = .next m)) ∧
    (∀ pkt : CutPkt, pkt.reserved = true ∨ cutTypeOk pkt.typ.toNat = false ∨ 64 < pkt.len.toNat →
      exec (.cutPacketForward r 0 pkt) s = .next (s.cutMalformed r pkt)) ∧
    (∀ pkt : CutPkt, pkt.reserved = false → cutTypeOk pkt.typ.toNat = true → pkt.len.toNat ≤ 64 →
      exec (.cutPacketForward r 0 pkt) s = .next (s.cutForward r 0 { pkt with
        epoch := s.rbit (routerBase r + 0x7600) 16, detour := false, hopCount := 0, hops := [] }) ∧
      (s.cutState r p ≠ 0 → exec (.cutPacketForward r (p + 1) pkt) s = .next (s.cutForward r (p + 1) pkt)))

/-- Erhar frames, training and ports that go down or are reset (R276 to R280, R289, R308): the next frame in sequence moves it,
acknowledges and returns credits, one out of sequence is discarded, one whose CRC fails asks for a replay; training with lanes
in common and both sides' consent makes the port active, and an attempt that fails is counted, the third taking it down. -/
def Obligations.ErharPortsRun : Prop :=
  (∀ (s : State) p, p < 36 → s.panel.fencedGh.contains (p / 9) = false →
    (∀ (f : ErhFrame) m, s.erhState p = 2 → m = s.gcnt (p / 9) 0 f.fecCorr →
      (f.crcOk = false → exec (.erhFrame p f) s = .next (m.erhCrcBad p)) ∧
      (f.crcOk = true → f.seq ≠ (m.erhPort p).rxSeq + 1 → exec (.erhFrame p f) s = .next m) ∧
      (f.crcOk = true → f.seq = (m.erhPort p).rxSeq + 1 → exec (.erhFrame p f) s =
        .next (((m.gcnt (p / 9) 8 (64 * f.flits)).modErhPort p fun k => { k with
          rxSeq := f.seq, lastFwd := f.seq, nakSent := false, replay := k.replay.filter fun e => seqAfter e.1 f.ack
          credits := addCredits k.credits f.credits }).erhTx p))) ∧
    (∀ (x : ErhTrainIn) m, s.erhState p = 1 ∨ s.erhState p = 3 →
      m = (s.setRfld (erhStatA p) 45 28 x.peerDev.toNat).modErhPort p (fun k => { k with training := some x }) →
      (∀ w lanes, erhLanes x.localLanes x.peerLanes = some (w, lanes) → (x.peerValid = false ∨ m.ownDev ≠ some x.peerDev.toNat) →
        1 ≤ x.peerHi → x.peerLo ≤ 1 → x.confirm = true → exec (.erhTrain p x) s = .next (m.erhUp p x w lanes)) ∧
      (erhLanes x.localLanes x.peerLanes = none → exec (.erhTrain p x) s = .next (m.erhAttemptFails p none))) ∧
    (∀ q, s.erhState p = 1 ∨ s.erhState p = 3 → exec (.erhFreezeTimeout p q) s = .next (s.erhAttemptFails p q)) ∧
    (∀ q, s.erhState p ≠ 0 → s.erhState p ≠ 4 → s.rbit (erhCtlA p) 62 = true ∨ s.rfld (erhStatA p) 47 46 = 3 →
      exec (.erhPortDown p q) s = .next (s.erhPortOff p q 0)) ∧
    (∀ m, m = (s.modErhPort p fun k => { k with
        credits := Vector.replicate 8 0, nakSent := false, training := none, isReset := true }) →
      (m.erhState p ≠ 0 → m.erhState p ≠ 4 → exec (.erhPortReset p) s = .next (m.erhStart p)) ∧
      (m.erhState p = 0 ∨ m.erhState p = 4 → exec (.erhPortReset p) s = .next m)) ∧
    (∀ pkt : ErhPkt, s.erhState p = 2 →
      (erhMalformed pkt = true → exec (.erhPacketRoute p pkt) s = .next (s.erhDiscard p pkt) ∧
        (pkt.typ = 0x30 → exec (.linkMgmt p pkt) s = .next (s.erhDiscard p pkt)) ∧
        (pkt.typ = 0x31 → exec (.fwMgmt p pkt) s = .next (s.erhDiscard p pkt))) ∧
      (erhMalformed pkt = false →
        (pkt.typ = 0x30 → exec (.linkMgmt p pkt) s = .next s) ∧
        (pkt.typ = 0x31 → exec (.fwMgmt p pkt) s = .next s) ∧
        (s.ownDev ≠ some pkt.dst.toNat → pkt.typ ≠ 0x30 → exec (.erhPacketRoute p pkt) s = .next (s.erhForward p pkt)) ∧
        (s.ownDev = some pkt.dst.toNat → pkt.typ ≠ 0x20 → exec (.erhPacketRoute p pkt) s = .next s)))) ∧
  (∀ s : State, s.rbit erhRctlA 40 = true → s.erh.oldHeldAt + 100000 ≤ s.clk.now →
    (s.erh.ports.all fun e => !e.2.queue.any (fun k => k.epoch != s.rbit erhRctlA 32) &&
      !e.2.replay.any fun f => f.2.any fun k => k.epoch != s.rbit erhRctlA 32) = true →
    exec .erhOldBusyClear s = .next (s.setRbit erhRctlA 40 false))

/-- Requests of other devices (R291, R294 to R296, R360): one that a span of the device accepts is performed at the home and answered
with PUT_ACK, GET_DATA or ATOMIC_RESP, or with an ERR of the status that its access gives; one that no span accepts is answered
with ERR 0x4801, one under alarm with 0x4B05. -/
def Obligations.ErharRequestsServed : Prop :=
  ∀ (s : State) p (k : ErhPkt) (u : Upset), p < 36 → s.panel.fencedGh.contains (p / 9) = false → s.erhState p = 2 →
    s.ownDev = some k.dst.toNat → erhMalformed k = false →
    (∀ i, (i = .put p k ∧ k.typ = 0x01) ∨ (i = .get p k u ∧ k.typ = 0x03) ∨ (i = .atomic p k u ∧ k.typ = 0x05) →
      (s.sec.alarmLock = true → exec i s = .next (s.erhAnswer k 0x07 0x4B05 [])) ∧
      (s.sec.alarmLock = false → s.spanBerth k = none →
        exec i s = .next ((s.gcnt (p / 9) 5 1).erhAnswer k 0x07 0x4801 []))) ∧
    (∀ b, s.sec.alarmLock = false → s.spanBerth k = some b → isReg k.addr.toNat = false →
      (∀ st m, k.typ = 0x01 → State.putWrite (proxyReq p b) (putPieces k) s = (st, false, m) →
        exec (.put p k) s = .next (if st = 0 then m.erhAnswer k 0x02 0 [] else m.erhAnswer k 0x07 st [])) ∧
      (∀ rd m, k.typ = 0x03 →
        readPieces (fun s q n => s.gaReadSec (if isDram q then homeOf q else 0) (proxyReq p b) q n true u)
          (sectorPieces (64 * k.len.toNat + 1) k.addr.toNat (64 * k.len.toNat)) s = (rd, m) → rd.wait = false →
        exec (.get p k u) s = .next (if rd.st = 0 then m.erhAnswer k 0x04 0 rd.bytes
          else m.erhAnswer k 0x07 (if rd.st = 0x3707 then 0x3701 else rd.st) [])) ∧
      (∀ op wd pa st old m, k.typ = 0x05 → atomicOp k = some (op, wd) → k.addr.toNat % amoBytes wd = 0 →
        s.dramAddr 0 k.addr.toNat = some pa →
        s.nearAtomic (proxyReq p b) pa op wd (rdLE k.data 16 16) (rdLE k.data 32 16) u = (st, false, old, m) →
        exec (.atomic p k u) s =
          .next (if st = 0 then m.erhAnswer k 0x06 0 (bytesOf 64 old) else m.erhAnswer k 0x07 st [])))

/-- Answers to this device's remote operations (R110, R293, R297): each takes its open operation off the list. The last PUT_ACK of a
thread lets its release go on; the data of a GET is there for who asked; the old value ends an atomic; an ERR, or TMO_US
without an answer, fails the operation. A late answer is discarded. -/
def Obligations.ErharAnswers : Prop :=
  (∀ (s : State) (k : ErhPkt), s.ownDev = some k.dst.toNat → erhMalformed k = false →
    (∀ typ kind i, (typ, kind, i) = ((0x02 : BitVec 8), 0, Instr.putAck k) ∨ (typ, kind, i) = (0x04, 1, Instr.getData k) ∨
        (typ, kind, i) = (0x06, 2, Instr.atomicResp k) →
      k.typ = typ → s.openOf k kind = none → exec i s = .next s) ∧
    (∀ kind o m, s.openOf k kind = some o → m = s.modErh (fun e => { e with opens := removeFirst (· == o) e.opens }) →
      (kind = 0 → k.typ = 0x02 → (m.erh.opens.any fun q => q.uid == o.uid && q.kind == 0) = true →
        exec (.putAck k) s = .next m) ∧
      (kind = 0 → k.typ = 0x02 → (m.erh.opens.any fun q => q.uid == o.uid && q.kind == 0) = false →
        exec (.putAck k) s = .next (m.modThread o.tid fun t =>
          if t.uid = o.uid ∧ t.wait = .puts then { t with wait := .none } else t)) ∧
      (kind = 1 → k.typ = 0x04 → o.ticket = none → exec (.getData k) s =
        .next ((m.gotPut o.uid 0 o.addr k.data).wakeMem o.tid o.uid)) ∧
      (∀ n, kind = 1 → k.typ = 0x04 → o.ticket = some n →
        exec (.getData k) s = .next (m.gotPut o.uid n o.addr k.data)) ∧
      (∀ op wd rd va a c t, kind = 2 → k.typ = 0x06 → o.access = .amo op wd rd va a c false →
        m.thread? o.tid = some t → t.uid = o.uid → t.wait = .memory →
        exec (.atomicResp k) s = .next ((m.modThread o.tid fun t => { t with wait := .none }).retire o.tid 4 fun t =>
          t.putOld rd wd (rdLE k.data 0 (amoBytes wd))))) ∧
    (k.typ = 0x07 → (s.erh.opens.find? fun o => o.txn == k.txn.toNat) = none → exec (.erhErr k) s = .next s) ∧
    (∀ o, k.typ = 0x07 → (s.erh.opens.find? fun o => o.txn == k.txn.toNat) = some o →
      exec (.erhErr k) s = .next (s.openFail o k.status))) ∧
  (∀ (s : State) txn o, (s.erh.opens.find? fun o => o.txn == txn) = some o →
    o.since + s.rfld erhRctlA 16 1 * 1000 ≤ s.clk.now →
    exec (.erhRequestTimeout txn) s = .next ((s.gcnt o.gate 4 1).openFail o 0x3802))

/-- Collectives (R298 to R304): with ARRIVE reached, a valid descriptor and this device's data start the generation; a bad descriptor
fails it with 0x6801, unreadable data with the status of the read. A chunk of a child adds to the sums, or waits for this
device to arrive; a chunk of the parent adds to the result; a failure is taken over and passed on. -/
def Obligations.CollectivesRun : Prop :=
  (∀ (s : State) n g c x (u : Upset), 1 ≤ n → n ≤ 4095 → s.group? n = some g → counterId g.arrive = some c →
    s.ctx? c.1 = some x → (g.gen + 1) * g.localCnt ≤ (x.ctr c.2).toNat →
    (∀ r, NMap.get? s.erh.runs n = some r → ((List.range (dChunks r.desc)).all fun c => NMap.has r.result c) = true →
      exec (.collArrive n u) s = .next (s.collPush n g r)) ∧
    (∀ rd m, NMap.get? s.erh.runs n = none → s.collFetch g g.desc 64 u = (rd, m) → rd.wait = false →
      (rd.st = 0 → m.descOk g rd.bytes = false → exec (.collArrive n u) s = .next (m.collFail n g 0x6801 none)) ∧
      (rd.st = 0 → m.descOk g rd.bytes = true →
        (dGives rd.bytes g.rank = false → exec (.collArrive n u) s = .next (m.collBegin n g rd.bytes [])) ∧
        (∀ src k, dGives rd.bytes g.rank = true →
          m.collFetch g (dSrc rd.bytes) (dCount rd.bytes * dElem rd.bytes) u = (src, k) → src.wait = false →
          (src.st = 0 → exec (.collArrive n u) s = .next (k.collBegin n g rd.bytes src.bytes)) ∧
          (src.st ≠ 0 → exec (.collArrive n u) s = .next (k.collFail n g src.st none)))))) ∧
  (∀ (s : State) (k : ErhPkt) g, s.ownDev = some k.dst.toNat → erhMalformed k = false → s.group? k.group.toNat = some g →
    (k.gen.toNat = g.gen + 1 →
      (k.typ = 0x10 → (g.child.take g.nchild).contains k.src.toNat = true →
        (NMap.get? s.erh.runs k.group.toNat = none →
          exec (.collUp k) s = .next (s.modErh fun e => { e with early := e.early ++ [k] })) ∧
        (∀ r, NMap.get? s.erh.runs k.group.toNat = some r →
          exec (.collUp k) s = .next (s.collTake k.group.toNat g r k))) ∧
      (∀ r, k.typ = 0x11 → NMap.get? s.erh.runs k.group.toNat = some r → g.root = false → k.src.toNat = g.parent →
        exec (.collDown k) s = .next (s.collPush k.group.toNat g { r with
          result := NMap.put r.result k.chunk.toNat k.data, info := k.aux, flags := k.status })) ∧
      (k.typ = 0x12 → exec (.collFail k) s = .next (s.collFail k.group.toNat g k.status (some k.src.toNat)))) ∧
    (k.gen.toNat ≠ g.gen + 1 → ∀ i, (i = .collUp k ∧ k.typ = 0x10) ∨ (i = .collDown k ∧ k.typ = 0x11) ∨
      (i = .collFail k ∧ k.typ = 0x12) → exec i s = .next s))

/-- Synchronized time (R305 to R307, R388, R444): an exchange counts itself missed until its response comes; a response gives the
offset ((t2 − t1) − (t4 − t3) − corrections) / 2, and 16 in bound one after the other lock a follower; eight missed put it in
holdover. A slew is taken up to 200 ns while none is under way, a step only while no berth is ACTIVE, and a backward one holds
the time. An edge of PPS_IN within 1 ms of its second, or after three ignored, gives its offset. -/
def Obligations.TimeIsKept : Prop :=
  (∀ (s : State) ok, s.erh.role = 2 → Gives (.tsync ok) s fun n => n.erh.pendingT = ok ∧
    n.erh.missed = s.erh.missed + (if s.erh.pendingT then 1 else 0) + (if ok then 0 else 1)) ∧
  (∀ (s : State) (t1 t2 t3 t4 aux : Int), s.erh.role = 2 → s.erh.pendingT = true →
    Gives (.tsyncResp t1 t2 t3 t4 aux) s fun n => n.erh.offset = ((t2 - t1) - (t4 - t3) - aux) / 2 ∧ n.erh.missed = 0 ∧
      n.erh.pendingT = false ∧ n.erh.inBound = (if n.erh.offset.natAbs ≤ 10 then s.erh.inBound + 1 else 0) ∧
      (s.erh.sync = .free ∨ s.erh.sync = .holdover → n.erh.sync = .locking) ∧
      (s.erh.sync = .locking → n.erh.sync = if n.erh.inBound ≥ 16 then .locked else .locking) ∧
      (s.erh.sync = .locked → n.erh.sync = .locked)) ∧
  (∀ (s : State), s.erh.sync = .locking ∨ s.erh.sync = .locked → 8 ≤ s.erh.missed →
    exec .tsyncHoldover s = .next (s.modErh fun e => { e with sync := .holdover, inBound := 0 })) ∧
  (∀ (s : State) (ns : Int), s.erh.role ≠ 0 →
    (ns.natAbs ≤ 200 → s.clk.slew = 0 → exec (.timeCorrection false ns) s =
      .next (s.modClk fun c => { c with slew := ns, slewEdge := 0 })) ∧
    (s.erh.stepAllowed = true → (∀ e ∈ s.bth.berths, e.1 = 0 ∨ e.2.state ≠ .active) →
      (0 ≤ ns → exec (.timeCorrection true ns) s = .next (s.modClk fun c => { c with now := c.now + ns.toNat })) ∧
      (ns < 0 → exec (.timeCorrection true ns) s = .next (s.modClk fun c => { c with hold := c.hold + ns.natAbs })))) ∧
  (∀ (s : State) stamp, s.erh.role ≠ 1 ∨ s.erh.ppsEn = false → exec (.ppsIn stamp) s = .next s) ∧
  (∀ (s : State) stamp t, s.erh.role = 1 → s.erh.ppsEn = true → s.erh.ppsLast = some t →
    ((t + 999000000 ≤ stamp ∧ stamp ≤ t + 1001000000) ∨ 3 ≤ s.erh.ppsIgnored →
      exec (.ppsIn stamp) s = .next (s.modErh fun e => { e with
        ppsLast := some stamp, ppsIgnored := 0
        offset := (((stamp + 500000000) / 1000000000 * 1000000000 : Nat) : Int) - (stamp : Int) })) ∧
    (¬(t + 999000000 ≤ stamp ∧ stamp ≤ t + 1001000000) → s.erh.ppsIgnored < 3 →
      exec (.ppsIn stamp) s = .next (s.modErh fun e => { e with ppsIgnored := e.ppsIgnored + 1 })))

/-- Decoders and loss of a CXL port (R311, R314, R315, R318, R322, R328): a commit with aligned range, one way, HDM-DB and a valid
extension maps the range, any other sets its error; an uncommit ends once the host holds no line of it. A port that is lost,
or whose snoop or request has had no answer, ends its copies, requests and watches; an integrity failure tears the stream
down first; PERST# resets it; training brings it up at a width and rate, reported where either is low. -/
def Obligations.HostPorts : Prop :=
  (∀ (s : State) port, PortUp s port →
    (∀ n base size ways hdmDb ok, n < 32 → s.decBusy port n = false → s.decLocked port n = false →
      ok = (base % 0x10000000 == 0 && size % 0x10000000 == 0 && ways == 1 && hdmDb && s.rbit (ghBase 0 + hdmExtOff port n) 63) →
      exec (.hdmDecoderCommit port n base size ways hdmDb) s = .next (s.modPort port fun p => { p with
        decoders := NMap.put p.decoders n { base, size, committed := ok, error := !ok, uncommitting := false } })) ∧
    (∀ n d, NMap.get? (s.cport port).decoders n = some d → d.committed = true → s.decLocked port n = false →
      (s.basin.dir.filter fun e => decide (s.decDpa port n ≤ e.1 + 127) && decide (e.1 < s.decDpa port n + d.size) &&
        e.2.hostHolds port) = [] →
      exec (.hdmDecoderUncommit port n) s = .next (s.modPort port fun p => { p with
        decoders := NMap.put p.decoders n { d with committed := false, uncommitting := false } })) ∧
    exec (.portLost port) s = .next (s.portLost port) ∧
    (∀ line m, s.biMsg port line = some m → exec (.bisnpTimeout port line) s = .next (s.portLost port)) ∧
    ((s.cport port).hreqs ≠ [] ∨ (s.cport port).atsReqs ≠ [] → exec (.hostRequestTimeout port) s = .next (s.portLost port)) ∧
    (∀ i skid, NMap.get? (s.cport port).ide 0 = some i → i.running = true →
      exec (.ideIntegrityFailure port skid) s = .next (((s.modPort port fun p => { p with
        ide := NMap.erase p.ide 0, rspPoison := if skid then p.rspPoison else true }).cxlEvent 3 false
        (bytesOf 1 port)).portLost port))) ∧
  (∀ (s : State) port, port < 2 → (port = 1 → s.panel.fencedGh.contains 2 = false) →
    (∀ m, m = (if (s.cport port).up then s.portLost port else s) → exec (.perst port) s =
      .next (m.modPort port fun _ => { CxlPort.init with lost := (m.cport port).lost })) ∧
    (∀ width rate flit m, width ∈ [1, 2, 4, 8, 16] → rate ∈ [8, 16, 32, 64] → (flit = true ∨ rate ≤ 32) →
      s.pwr.standbyGood = true → (s.cport port).up = false →
      m = (s.modPort port fun p => { p with up := true, lost := false, width := width, rate := rate, flit256 := flit }) →
      exec (.cxlLinkTrain port width rate flit) s = .next (if width < 16 ∨ rate < 64
        then m.cxlEvent 1 false (bytesOf 1 port ++ bytesOf 1 width ++ bytesOf 1 rate) else m)) ∧
    (∀ offset, offset < 4096 → offset % 4 = 0 →
      (s.pwr.boot ≠ .links → s.pwr.boot ≠ .service →
        exec (.configRequest port offset) s = .next (s.hostRsp port [] false true)) ∧
      (s.pwr.boot = .links ∨ s.pwr.boot = .service → Gives (.configRequest port offset) s fun n =>
        (n.cport port).rspAbort = false ∧ (n.cport port).rsp.length = 4 ∧
        (offset = 8 → (n.cport port).rsp.drop 1 = [0x00, 0x00, 0x12]))))

/-- Host accesses (R316, R323, R325): a read that is refused returns poison and is logged; one that is allowed gives the half of the
line that it names, a read for ownership once every other copy is gone. A write by the owner merges and may keep ownership; a
write with no grant merges at the home; a refused one is discarded and logged. A fetch-and-add of eight bytes gives the old
counter, any other access is refused. -/
def Obligations.HostAccesses : Prop :=
  (∀ (s : State) port, PortUp s port →
    (∀ addr want tee u n, s.hostWay port addr tee = .refused n →
      exec (.hostMemRd port addr want tee u) s =
        .next ((s.hostNote addr n).hostRsp port (List.replicate 64 0) true false)) ∧
    (∀ addr want tee u pa r m, s.hostWay port addr tee = .go pa r →
      (s.hostOwn r pa (want == .any) = .refuse → exec (.hostMemRd port addr want tee u) s =
        .next ((s.hostNote addr (r.node - 72)).hostRsp port (List.replicate 64 0) true false)) ∧
      (s.hostOwn r pa (want == .any) = .allow → (want = .none → s.snoopCur (lineOf pa) r = (false, m)) →
        (want = .shared → s.hostShared port (lineOf pa) r = (false, m)) →
        (want = .any → s.hostAny port (lineOf pa) r = (false, m)) →
        exec (.hostMemRd port addr want tee u) s = .next (m.hostData port pa u))) ∧
    (∀ addr (bytes : List (Nat × BitVec 8)) keep tee, (bytes.all fun b => decide (addr % 64 + b.1 < 64)) = true →
      (∀ n, s.hostWay port addr tee = .refused n →
        exec (.hostMemWr port addr bytes keep tee) s = .next ((s.hostNote addr n).hostRsp port [] false false)) ∧
      (∀ pa r e, s.hostWay port addr tee = .go pa r → NMap.get? s.basin.dir (lineOf pa) = some e →
        e.state = .owned (72 + port) →
        (exec (.hostMemWr port addr bytes true tee) s =
          .next ((s.mergeLine (lineOf pa) (bytes.map fun b => (pa % 128 + b.1, b.2)) []).hostRsp port [] false false)) ∧
        (exec (.hostMemWr port addr bytes false tee) s =
          .next (((s.mergeLine (lineOf pa) (bytes.map fun b => (pa % 128 + b.1, b.2)) []).dirRemove (lineOf pa)
            (72 + port)).hostRsp port [] false false))) ∧
      (∀ pa r, s.hostWay port addr tee = .go pa r → NMap.get? s.basin.dir (lineOf pa) = none →
        exec (.hostMemWr port addr bytes keep tee) s = .next
          (execHostMemWr.go port addr s r pa (lineOf pa) (bytes.map fun b => (pa % 128 + b.1, b.2))))) ∧
    (∀ line (bytes : List (Nat × BitVec 8)) m, s.biMsg port line = some m →
      (bytes.all fun b => decide (b.1 < 128)) = true →
      exec (.birsp port line bytes) s = .next ((s.dropMsg m).answer line (72 + port) bytes [] false false)) ∧
    (∀ tee berth offset (value : BitVec 64), berth < 255 → 0x1000 ≤ offset → offset < 0x3000 → s.teeBreaks berth tee = false →
      (∀ old m, s.winAdd berth offset value = (some old, m) →
        exec (.counterFetchadd (.host port tee) berth offset 8 .add value) s =
          .next (m.hostRsp port (bytesOf 8 old.toNat) false false)) ∧
      (∀ bytes kind, kind ≠ .add ∨ bytes ≠ 8 → exec (.counterFetchadd (.host port tee) berth offset bytes kind value) s =
        .next ((s.winRefused berth).hostRsp port [] false true)))) ∧
  (∀ (s : State) berth offset (value : BitVec 64), berth < 255 → 0x1000 ≤ offset → offset < 0x3000 →
    (∀ src, src = .thread berth ∨ src = .erhar berth →
      exec (.counterFetchadd src berth offset 8 .add value) s = .next (s.winAdd berth offset value).2) ∧
    (∀ src b, src = .thread b ∨ src = .erhar b → b ≠ berth → ∀ bytes kind,
      exec (.counterFetchadd src berth offset bytes kind value) s = .next (s.winRefused berth)))

/-- Host memory as the device uses it (R319 to R323): translations are kept or refused, and dropped once no request uses them; a
response fills its line of the host cache and lets the waiting accesses go on; a snoop takes its ownership or the line. Keys of
IDE streams are programmed, taken into use, switched and stopped; the interface of a trusted berth is locked, run and stopped. -/
def Obligations.HostMemoryUse : Prop :=
  (∀ (s : State) port, PortUp s port →
    (∀ pasid iova len, ((s.cport port).atc.any fun e => (e.pasid == pasid && decide (iova < (e.page + 1) * 4096) &&
          decide (e.page * 4096 < iova + len)) && (s.cport port).hreqs.any fun q => q.1 / 4096 == e.hpa) = false →
      exec (.atsInvalidation port pasid iova len) s = .next (s.modPort port fun p => { p with
        atc := p.atc.filter fun e => !(e.pasid == pasid && decide (iova < (e.page + 1) * 4096) &&
          decide (e.page * 4096 < iova + len)) })) ∧
    (∀ pasid iova write m, (s.cport port).atsReqs.contains (pasid, iova / 4096) = true →
      m = s.modPort port (fun p => { p with atsReqs := p.atsReqs.filter (· != (pasid, iova / 4096)) }) →
      (∀ h, exec (.atsCompletion port pasid iova (some h) write) s = .next ((m.modPort port fun p => { p with
        atc := (p.atc ++ [({ pasid := pasid, page := iova / 4096, hpa := h / 4096, write := write } : AtcEnt)]).drop
          (p.atc.length + 1 - 4096) }).hostWake ((1 + port) * 2 ^ 70 + iova / 4096) [5] 0)) ∧
      exec (.atsCompletion port pasid iova none write) s = .next ((m.modEng fun e => { e with
        xfers := e.xfers.map fun x => if x.ats = (1 + port) * 2 ^ 70 + iova / 4096 then { x with atsBad := true } else x }).hostWake
        ((1 + port) * 2 ^ 70 + iova / 4096) [5] 0x2103)) ∧
    (∀ line (data : List (BitVec 8)) ok own, ((s.cport port).hreqs.any fun q => q.1 == line) = true →
      Gives (.cxlCacheResponse port line data ok own) s fun n => ∃ m,
        n = State.hostWake m ((1 + port) * 2 ^ 70 + line) (if own ∨ !ok then [3, 4] else [3]) (if ok then 0 else 0x3C02) ∧
        ((m.cport port).hreqs = (s.cport port).hreqs.filter fun q => !(q.1 == line && (own || !q.2 || !ok))) ∧
        ∃ l, NMap.get? (m.cport port).hcache line = some l ∧ l.poison = !ok) ∧
    (∀ line l, NMap.get? (s.cport port).hcache line = some l →
      (exec (.hostCacheSnoop port line false) s = .next (s.modPort port fun p => { p with
        hcache := NMap.put p.hcache line { l with
          own := false, bytes := if l.own then NMap.mapV l.bytes fun _ c => { c with dirty := false } else l.bytes } })) ∧
      (l.own = true → exec (.hostCacheSnoop port line true) s =
        .next (s.modPort port fun p => { p with hcache := NMap.erase p.hcache line }))) ∧
    (∀ stream i, stream < 9 → s.sessionUp = true →
      i = NMap.getD (s.cport port).ide stream { keyed := false, keySet := 0, running := false } →
      exec (.ideKm port stream .program) s =
        .next (s.modPort port fun p => { p with ide := NMap.put p.ide stream { i with keyed := true } }) ∧
      (i.keyed = true → exec (.ideKm port stream .go) s =
        .next (s.modPort port fun p => { p with ide := NMap.put p.ide stream { i with running := true } })) ∧
      (i.keyed = true → i.running = true → exec (.ideKm port stream .refresh) s =
        .next (s.modPort port fun p => { p with ide := NMap.put p.ide stream { i with keySet := 1 - i.keySet } })) ∧
      exec (.ideKm port stream .stop) s = .next (s.modPort port fun p => { p with ide := NMap.erase p.ide stream })) ∧
    (∀ berth e, s.berth? berth = some e → e.trusted = true →
      (e.locked = false → exec (.tdisp port berth .lock) s = .next (s.modBerth berth fun e => { e with locked := true })) ∧
      (e.locked = true → e.running = false →
        exec (.tdisp port berth .start) s = .next (s.modBerth berth fun e => { e with running := true })) ∧
      exec (.tdisp port berth .stop) s = .next (s.modBerth berth fun e => { e with locked := false, running := false })))

/-- The CXL primary mailbox of C0 (R313, R327): every command answers with its return code and payload. Clearing takes the named
records, or all for none named, and the overflow count off the log; a handle that is not there clears nothing; the policy and
the time stamp hold what was set. -/
def Obligations.PrimaryMailbox : Prop :=
  ∀ (s : State), PortUp s 0 →
    Gives .identifyCxl s (fun n => n.cxl.replyStatus = 0 ∧ n.cxl.reply.length = 67) ∧
    (∀ log, Gives (.getEventRecords log) s fun n => n.cxl.replyStatus = 0 ∧ n.cxl.logs = s.cxl.logs) ∧
    (∀ log handles,
      ((handles.all fun h => (s.cxl.logs.toList.getD (CxlLog.num log) []).any fun r => r.handle == h) = true →
        Gives (.clearEventRecords log handles) s fun n => n.cxl.replyStatus = 0 ∧
          n.cxl.logs.toList.getD (CxlLog.num log) [] = (if handles = [] then []
            else (s.cxl.logs.toList.getD (CxlLog.num log) []).filter fun r => !handles.contains r.handle) ∧
          n.cxl.overflow.toList.getD (CxlLog.num log) 0 = 0 ∧
          ∀ k, k ≠ CxlLog.num log → n.cxl.logs.toList.getD k [] = s.cxl.logs.toList.getD k []) ∧
      ((handles.all fun h => (s.cxl.logs.toList.getD (CxlLog.num log) []).any fun r => r.handle == h) = false →
        Gives (.clearEventRecords log handles) s fun n => n.cxl.replyStatus = 0x0E ∧ n.cxl.logs = s.cxl.logs)) ∧
    Gives .getEventInterruptPolicy s (fun n => n.cxl.reply = (s.cxl.policy.map (bytesOf 1)).flatten) ∧
    (∀ pol : List Nat, pol.length = 4 → Gives (.setEventInterruptPolicy pol) s fun n => n.cxl.policy = pol.map (· % 256)) ∧
    (∀ uuid offset len, Gives (.getLog uuid offset len) s fun n => n.cxl.reply.length = len) ∧
    Gives .getSupportedLogs s (fun n => n.cxl.replyStatus = 0) ∧
    (∀ ns, Gives (.setTimestamp ns) s fun n => n.cxl.timestamp = ns ∧ n.clk = s.clk)

/-- The root of trust acts (R393, R395, R397, R405 to R407): a fuse anomaly or a tamper sensor locks the device at alarm level 1 with
the cause, unless it is locked already, and stops the taking of commands; level 2 erases key slots 1 to 255, level 3 blows KILL
and ends the identity. A debug unlock ends with its time. A firmware switch makes the staged image the active one and the old
one the previous, applies its directives and ends its operation. A PLDM update that passes starts a bring-up in RECOVERY. -/
def Obligations.RootOfTrustActs : Prop :=
  ∀ (s : State),
    (s.pwr.standbyGood = true →
      exec (.fuseReread false) s = .next s ∧
      (s.sec.alarmLock = false → Gives (.fuseReread true) s fun n =>
        n.sec.alarmLock = true ∧ n.sec.alarmCause = 5 ∧ n.sec.alarmLevel = 1 ∧ n.pwr.alarmN = true ∧ n.lk.takes = false) ∧
      (∀ cause, 1 ≤ cause → cause ≤ 5 →
        (s.sec.alarmLock = false → Gives (.tamperTrip cause) s fun n =>
          n.sec.alarmLock = true ∧ n.sec.alarmCause = cause ∧ n.sec.alarmLevel = 1 ∧ n.lk.takes = false) ∧
        (s.sec.alarmLock = true → exec (.tamperTrip cause) s = .next s))) ∧
    (s.sec.alarmLock = true → s.sec.alarmLevel = 1 → 2 ≤ s.sec.fuses.level → Gives .alarmErase s fun n =>
      n.sec.alarmLevel = 2 ∧ ∀ e ∈ n.sec.keys, e.1 = 0) ∧
    (s.sec.alarmLock = true → s.sec.alarmLevel = 2 → 3 ≤ s.sec.fuses.level → ∀ readBack, Gives (.alarmKill readBack) s fun n =>
      n.sec.alarmLevel = 3 ∧ (readBack = true → n.sec.fuses.kill = true) ∧ n.sec.identity = false) ∧
    (∀ t, s.sec.debugUntil = some t → t ≤ s.clk.now → Gives .debugUnlockExpire s fun n =>
      n.sec.debugUntil = none ∧ n.sec.debugScope = 0 ∧ n.sec.measGen = s.sec.measGen + 1) ∧
    (s.mbx.switching = true → ∀ img, img = (if s.sec.switchSlot = 0 then s.stagedImage else s.sec.previous) →
      Gives .fwSwitchEnd s fun n => n.sec.active = img ∧ n.sec.previous = s.sec.active ∧ n.sec.fwState = 0 ∧
        n.mbx.switching = false ∧ (s.sec.alarmLock = false → n.sec.fuses = s.sec.fuses.apply img)) ∧
    (∀ image : List (BitVec 8), s.pwr.standbyGood = true →
      (s.sec.fuses.checkImage image = 0 → s.sec.alarmLock = false → s.pwr.boot = .recovery →
        exec (.pldmFirmwareUpdate image) s = .next ((s.modSec fun x => { x with active := image }).bringUpStart)) ∧
      (s.sec.fuses.checkImage image = 0 → s.sec.alarmLock = false → s.pwr.boot = .service → s.bgRuns = false →
        s.mbx.switching = false → Gives (.pldmFirmwareUpdate image) s fun n => n.mbx.switching = true ∧
          n.sec.stagedTotal = image.length ∧ n.sec.switchSlot = 0 ∧ n.sec.active = s.sec.active) ∧
      (s.sec.fuses.checkImage image ≠ 0 ∨ s.sec.alarmLock = true → exec (.pldmFirmwareUpdate image) s = .next s))

/-- The SPDM responder (R398 to R402): GET_VERSION starts a connection again; capabilities and algorithms follow in this order; with
them negotiated, digests, certificates, challenges and measurements answer, a key exchange opens a session that FINISH
completes, and a session's keys move on or it ends. A request out of order, or that nothing answers, is answered with an error;
so is every request without an identity. -/
def Obligations.SpdmAnswers : Prop :=
  (∀ (s : State) tr, (∀ p, tr = .doe p → p < 2 ∧ (s.cport p).up = true) → s.pwr.standbyGood = true → s.sec.identity = false →
    ∀ i, i = .getVersion tr ∨ i = .getDigests tr → Gives i s fun n => n.sec.spdmError = true ∧ n.sec.spdm = s.sec.spdm) ∧
  (∀ (s : State) tr, (∀ p, tr = .doe p → p < 2 ∧ (s.cport p).up = true) → s.pwr.standbyGood = true → s.sec.identity = true →
    Gives (.getVersion tr) s (fun n => n.sec.spdmError = false ∧ (n.spdm? tr).version = true ∧ (n.spdm? tr).caps = false ∧
      (n.spdm? tr).algs = false ∧ (n.spdm? tr).sessions = (s.spdm? tr).sessions) ∧
    Gives (.getCapabilities tr) s (fun n => n.sec.spdmError = !(s.spdm? tr).version ∧
      ((s.spdm? tr).version = true → (n.spdm? tr).caps = true)) ∧
    (∀ rsa sha secp aes, Gives (.negotiateAlgorithms tr rsa sha secp aes) s fun n =>
      n.sec.spdmError = !((s.spdm? tr).version && (s.spdm? tr).caps && rsa && sha) ∧
      (n.sec.spdmError = false → (n.spdm? tr).algs = true ∧ (n.spdm? tr).dhe = (secp && aes))) ∧
    Gives (.getDigests tr) s (fun n => n.sec.spdmError = !(s.spdm? tr).ready) ∧
    (∀ slot offset len, Gives (.getCertificate tr slot offset len) s fun n =>
      n.sec.spdmError = !((s.spdm? tr).ready && decide (slot < 2)) ∧ n.sec.response.length ≤ len) ∧
    (∀ slot nonce, Gives (.challenge tr slot nonce) s fun n =>
      n.sec.spdmError = !((s.spdm? tr).ready && decide (slot < 2)) ∧ n.spdm? tr = s.spdm? tr) ∧
    (∀ op nonce, (s.spdm? tr).ready = true → Gives (.getMeasurements tr op nonce false) s fun n =>
      (1 ≤ op → op ≤ 7 → n.sec.response = s.measBlock op ++ bytesOf 8 s.sec.measGen) ∧
      (op = 0 → n.sec.response = bytesOf 1 7 ++ bytesOf 8 s.sec.measGen) ∧
      (op = 0xFF → n.sec.response = ((List.range 7).map fun i => s.measBlock (i + 1)).flatten ++ bytesOf 8 s.sec.measGen) ∧
      (7 < op → op ≠ 0xFF → n.sec.spdmError = true)) ∧
    (∀ reqId, (s.spdm? tr).ready = true → (s.spdm? tr).dhe = true → Gives (.keyExchange tr reqId) s fun n =>
      n.sec.spdmError = false ∧
      (n.spdm? tr).sessions = (s.spdm? tr).sessions ++ [((s.spdm? tr).nextSession, false, 0)]) ∧
    (∀ session, ((s.spdm? tr).sessions.any fun x => x.1 == session && !x.2.1) = true →
      Gives (.finish tr session true) s (fun n => n.sec.spdmError = false ∧
        ∀ x ∈ (n.spdm? tr).sessions, x.1 = session → x.2.1 = true) ∧
      Gives (.finish tr session false) s (fun n => n.sec.spdmError = true ∧ ∀ x ∈ (n.spdm? tr).sessions, x.1 ≠ session)) ∧
    (∀ session both, ((s.spdm? tr).sessions.any fun x => x.1 == session && x.2.1) = true →
      Gives (.keyUpdate tr session both) s fun n => n.sec.spdmError = false ∧
        (n.spdm? tr).sessions = (s.spdm? tr).sessions.map fun x =>
          if x.1 == session then (x.1, x.2.1, x.2.2 + (if both then 2 else 1)) else x) ∧
    (∀ session, ((s.spdm? tr).sessions.any fun x => x.1 == session) = true →
      Gives (.endSession tr session) s fun n => n.sec.spdmError = false ∧ ∀ x ∈ (n.spdm? tr).sessions, x.1 ≠ session))

/-- Mailbox pages (R330, R331, R345, R422): a caller that sets OWNER while firmware runs has its request accepted; while it does not,
the page waits, and after 100 ms outside a switch the management is due for a restart. While a request is in progress the
caller's write is discarded and counted. -/
def Obligations.MailboxPages : Prop :=
  ∀ (s : State) mb, mbExists mb = true → s.pwr.standbyGood = true →
    (mb = .op ∨ (∃ e, s.berth? (mbKey mb) = some e ∧ e.state ≠ .free) →
      (∀ m, (s.mbPage (mbKey mb)).owned = false → m = s.modPage (mbKey mb) (fun p => p.set 0 [1]) →
        (m.mbRuns = true → exec (.mailboxOwnerSet mb) s = .next (m.mbAccept mb)) ∧
        (m.mbRuns = false → exec (.mailboxOwnerSet mb) s = .next m)) ∧
      ((s.mbPage (mbKey mb)).owned = true → (s.mbPage (mbKey mb)).req.isSome = true →
        exec (.mailboxOwnerSet mb) s = .next (s.modPage (mbKey mb) fun p =>
          p.set 0x2C (bytesOf 4 (satAdd 32 (p.num 0x2C 4) 1))))) ∧
    ((s.mbPage (mbKey mb)).owned = true → (s.mbPage (mbKey mb)).req = none → s.mbx.switching = false → s.mbx.resetting = false →
      exec (.mailboxAcceptTimeout mb) s = .next (s.modPwr fun p => { p with restartDue := true }))

/-- How a mailbox request ends (R331, R334): the response, its length, the status and BG_ID stand in the page, OWNER is clear and the
request is gone. A background operation answers 0x0901 with its BG_ID and is listed, a ninth of its mailbox is refused with
0x5902; one that ends keeps its status and result. A change of a map (R337): while the banks differ the request waits for the old one;
then the change is made and committed, and the answer follows when the old bank is up to date again. A change that fails, or that
finds no room, answers with its status. -/
def Obligations.RequestsEndAndMapsChange : Prop :=
  ((∀ (s : State) mb st rsp bg, rsp.length < 0x1000 → bg < 2 ^ 32 →
    NMap.sorted none (s.mbPage (mbKey mb)).bytes = true → ∀ p, p = (s.mbAnswer mb st rsp bg).mbPage (mbKey mb) →
    p.num 0x0A 2 = st.toNat ∧ p.num 0x0E 2 = rsp.length ∧ p.num 0x28 4 = bg ∧ p.owned = false ∧ p.req = none ∧ p.stage = false ∧
    p.get 0x100 rsp.length = rsp) ∧
  (∀ (s : State) mb r aux, (s.bgCount mb ≥ 8 → s.bgBegin mb r aux = s.mbAnswer mb 0x5902 [] 0) ∧
    (s.bgCount mb < 8 → ∃ m : State, s.bgBegin mb r aux = m.mbAnswer mb 0x0901 [] s.mbx.nextBg ∧
      m.mbx.nextBg = s.mbx.nextBg + 1 ∧ ∃ g, m.mbx.bgs = s.mbx.bgs ++ [g] ∧ g.id = s.mbx.nextBg ∧ g.mb = mb ∧ g.req = r ∧
        g.ended = false ∧ g.aux = aux)) ∧
  (∀ (s : State) id st rsp g, s.bg? id = some g → g.ended = false → (s.mbx.bgs.map (·.id)).Nodup →
    (∀ h ∈ s.mbx.bgs, h.endOrder ≤ s.mbx.ends) →
    ∃ h, (s.bgEnd id st rsp).bg? id = some h ∧ h.ended = true ∧ h.status = st ∧ h.rsp = rsp ∧ h.tDone = s.clk.now)) ∧
  (∀ (s : State) mb b change fin, (s.mbPage (mbKey mb)).stage = false →
    (s.mapReady b = false → s.mapTurn mb b change fin = s.mapSync b) ∧
    (s.mapReady b = true → ∀ st m, change s = (st, m) →
      (st ≠ 0 → s.mapTurn mb b change fin = s.mbFail mb st) ∧
      (st = 0 → m.mapCommit b = none → s.mapTurn mb b change fin = s.mbFail mb 0x2404) ∧
      (∀ k t, st = 0 → m.mapCommit b = some k → t = (k.modPage (mbKey mb) fun p => { p with stage := true }).mapSync b →
        s.mapTurn mb b change fin = if t.mapReady b then fin t else t)))

/-- Berth operations (Tables 13.3, 13.11, R242, R271, R336, R340, R341): what each does where its checks pass. A reset or destruction
halts the berth's contexts and runs in the background, a handover likewise; the rest answer at once. -/
def Obligations.BerthOperations : Prop :=
  ∀ (s : State) mb r,
    (∀ b ds m, Requests s mb 0x0200 r → b = r.num 0 1 → ds = bitsOf 72 (r.num 8 16) → b ≤ Word.fld s.fusePolicy 35 28 →
      s.berth? b = none → r.num 1 1 = 0 → r.num 3 1 ≤ 7 → r.num 26 1 ≤ 1 → ds ≠ [] →
      (r.num 32 4 = 0 ∨ (64 ≤ r.num 32 4 ∧ r.num 32 4 ≤ 4096)) → s.newDies ds = 0 → r.num 28 4 ≤ r.num 4 4 →
      s.berthBuild b (r.num 28 4) { Berth.blank s.clk.now with
        kind := 0, trusted := bitAt (r.num 2 1) 0, opEntry := bitAt (r.num 2 1) 1, prioMax := r.num 3 1, quota := r.num 4 4
        dies := ds, ownedAt := ds.map fun d => (d, s.clk.now), rowCap := r.num 24 2, growPolicy := r.num 26 1
        faultqEntries := r.num 32 4 } = (0, m) →
      exec (.berthCreate mb) s = .next (m.mbOk mb (bytesOf 8 (0x7F000000000 + b * 0x10000)))) ∧
    (∀ e b code state i, (code, state, i) = (0x0202, BerthState.resetting, Instr.berthReset mb) ∨
        (code, state, i) = (0x0201, BerthState.destroying, Instr.berthDestroy mb) →
      Requests s mb code r → b = r.num 0 1 → b ≠ 0 → s.berth? b = some e → e.state = .active →
      ([0, b].any fun k => k != mbKey mb && s.pageOn b k) = false → s.bgCount mb < 8 →
      ∀ m, m = (s.bgsEnd b 0x2002).modBerth b (fun e => { e with state := state }) →
        exec i s = .next (((m.ctxsOf b).foldl State.haltBegin m).bgBegin mb r [])) ∧
    (∀ e, Requests s mb 0x0205 r → r.num 2 1 < 72 → r.num 0 1 ≠ r.num 1 1 → s.spaceBerth (r.num 0 1) = true →
      (r.num 1 1 = 0 ∨ s.spaceBerth (r.num 1 1) = true) → s.present (r.num 2 1) = true → s.berth? (r.num 0 1) = some e →
      e.dies.contains (r.num 2 1) = true → exec (.dieHandover mb) s = .next (s.bgBegin mb r [0, 0, 0, 0])) ∧
    (Requests s mb 0x0203 r → ∃ rsp, exec (.berthQuery mb) s = .next (s.mbOk mb rsp) ∧ rsp.length = 40 ∧
      ∀ e, s.berth? (r.num 0 1) = some e → rdLE rsp 0 1 = e.state.code % 256 ∧ rdLE rsp 8 4 = e.quota % 2 ^ 32 ∧
        rdLE rsp 16 16 = maskOf e.dies % 2 ^ 128) ∧
    (∀ e, Requests s mb 0x0204 r → r.num 0 1 ≠ 0 → s.berth? (r.num 0 1) = some e → r.num 1 1 ≤ 7 → r.num 4 1 ≤ 1 → e.kind ≠ 1 →
      exec (.berthLimits mb) s = .next ((s.modBerth (r.num 0 1) fun e => { e with
        prioMax := r.num 1 1, rowCap := r.num 2 2, growPolicy := r.num 4 1, quota := r.num 8 4 }).mbOk mb [])) ∧
    (∀ e, Requests s mb 0x0208 r → r.num 0 1 ≠ 0 → s.berth? (r.num 0 1) = some e → exec (.accountRead mb) s =
      .next (s.mbOk mb (e.account.bytes (r.num 0 1) e.kind s.clk.now
        (e.account.dieNs + sumNat (e.ownedAt.map fun q => s.clk.now - q.2))))) ∧
    (∀ rd m, Requests s mb 0x0206 r → r.num 0 1 ≤ 1 → s.vaRead (mbBerth mb) (r.num 8 8) (24 * r.num 16 4) = (rd, m) →
      rd.wait = false → rd.st = 0 → (∀ e ∈ moveEntries rd.bytes, e.2.2 % 0x10000 = 0 ∧ e.1 % 0x10000 = 0) →
      exec (.moveListSet mb) s = .next ((m.modBerth (mbBerth mb) fun x =>
        if r.num 0 1 = 0 then { x with saveList := moveEntries rd.bytes } else { x with loadList := moveEntries rd.bytes }).mbOk mb [])) ∧
    (∀ e, Requests s mb 0x0207 r → s.berth? (mbBerth mb) = some e → e.kind ≠ 1 → 64 ≤ r.num 16 4 → r.num 16 4 ≤ 4096 →
      e.handlerTid = none → exec (.faultSetup mb) s = .next ((s.modBerth (mbBerth mb) fun e => { e with
        handlerEntry := some (BitVec.ofNat 64 (r.num 0 8)), faultqVa := r.num 8 8, faultqSize := r.num 16 4 }).mbOk mb [])) ∧
    (∀ e n k rd m, Requests s mb 0x0210 r → s.berth? (r.num 0 1) = some e → e.state = .active → e.kind ≠ 1 →
      r.num 2 1 = 0xFF → 6 ≤ r.num 3 1 → r.num 3 1 ≤ 16 → 6 ≤ r.num 4 1 → r.num 4 1 ≤ 16 → r.num 8 8 % 4096 = 0 →
      firstBelow 1024 (fun n => (s.ctx? n).isNone) = some n →
      firstBelow 64 (fun k => (e.slots.toList.getD k none).isNone) = some k →
      s.vaRead (r.num 0 1) (r.num 8 8) 16 = (rd, m) → rd.wait = false → rd.st = 0 →
      exec (.ctxCreate mb) s = .next ((m.ctxMake n { Context.blank with
        berth := r.num 0 1, home := 72, sqLog2 := r.num 3 1, cqLog2 := r.num 4 1, rcbVa := r.num 8 8
        defaultDur := r.num 16 4, slot := k }).mbOk mb (bytesOf 2 n ++ bytesOf 1 k))) ∧
    (∀ x n free m i, (free = false ∧ Requests s mb 0x0211 r ∧ i = .ctxReset mb) ∨
        (free = true ∧ Requests s mb 0x0212 r ∧ i = .ctxDestroy mb) →
      n = r.num 0 2 → s.ctx? n = some x → (mb = .op ∨ mb = .berth x.berth) →
      m = ((s.haltBegin n).modPage (mbKey mb) fun p => { p with stage := true }).haltGo n →
      exec i s = .next (if m.haltLeft n then m else (if free then m.ctxFree n else m.haltEnd n).mbOk mb []))

/-- Pages, moorings and regions of a berth (Tables 13.3, 13.9, R268, R292, R319, R340): pages are taken and entered in the map, taken
out and zeroed, or marked; moorings are taken for the pool, and leaked ones are free again; a region is set in the bank that
the map change commits; a PASID is set or cleared. -/
def Obligations.PageOperations : Prop :=
  ∀ (s : State) mb r b e, b = r.num 0 1 → s.berth? b = some e → e.state = .active →
    (Requests s mb 0x0220 r → r.num 2 1 ≤ 2 → r.num 4 4 ≠ 0 → r.num 4 4 % leafUnit (r.num 2 1) = 0 →
      r.num 8 8 % (leafUnit (r.num 2 1) * 0x10000) = 0 → r.num 8 8 + r.num 4 4 * 0x10000 ≤ 2 ^ 47 →
      (r.num 1 1 = 0xFF ∨ (r.num 1 1 < 72 ∧ s.present (r.num 1 1) = true)) →
      (s.leaves b).any (leafMeets (r.num 8 8 / 0x10000) (r.num 8 8 / 0x10000 + r.num 4 4)) = false →
      (s.pagesOf b).length + r.num 4 4 ≤ e.quota → exec (.pagesAlloc mb) s =
        .next (s.mapTurn mb b (State.pagesTake r e) fun s => s.mbOk mb (bytesOf 4 (r.num 4 4)))) ∧
    (∀ ps, ps = s.ownRange b (r.num 8 8 / 0x10000) (r.num 4 4) → s.berthActive b = true → r.num 8 8 % 0x10000 = 0 →
      r.num 4 4 ≠ 0 → r.num 8 8 + r.num 4 4 * 0x10000 ≤ 2 ^ 47 → (∀ p ∈ ps, (s.pot p.2).code = false) →
      (Requests s mb 0x0221 r → exec (.pagesFree mb) s = .next (s.mapTurn mb b
        (State.pagesCut (mbKey mb) b (r.num 8 8 / 0x10000) (r.num 4 4) ps) (State.pagesGone mb))) ∧
      (Requests s mb 0x0222 r → exec (.pagesAttr mb) s = .next (s.mapTurn mb b
        (State.pagesMark (r.num 3 1) b (r.num 8 8 / 0x10000) (r.num 4 4) ps) fun s => s.mbOk mb []))) ∧
    (∀ m ds, Requests s mb 0x0230 r → b ≠ 0 → e.pool = none → r.num 4 4 ≠ 0 → r.num 4 4 ≤ 2 ^ 20 →
      ds = bitsOf 72 (r.num 8 16) → ds ≠ [] → ds.all s.present = true →
      s.moorTake b { all := [], free := [], home := if e.kind = 1 then 72 else e.dies.headD 72, dies := ds, rot := 0 } (r.num 4 4)
        e.quota = some m → exec (.moorPoolCreate mb) s = .next (m.mbOk mb [])) ∧
    (∀ p m, Requests s mb 0x0231 r → e.pool = some p → r.num 4 4 ≠ 0 → p.all.length + r.num 4 4 ≤ 2 ^ 20 →
      s.moorTake b p (r.num 4 4) e.quota = some m → exec (.moorPoolGrow mb) s = .next (m.mbOk mb [])) ∧
    (∀ p, Requests s mb 0x0232 r → e.pool = some p → s.berthWorks b = false → exec (.moorPoolRebuild mb) s =
      .next ((s.modBerth b fun e => { e with pool := some { p with free := p.free ++ e.moorLeak }, moorLeak := [] }).mbOk mb
        (bytesOf 4 e.moorLeak.length))) ∧
    (Requests s mb 0x0807 r → s.berthActive b = true → regionBad (r.num 1 1) (r.num 8 8) (r.num 16 8) = false →
      r.num 2 1 ≤ 1 → r.num 4 4 < 2 ^ 18 → r.num 24 8 + (r.num 16 8 - r.num 8 8) ≤ 2 ^ 43 →
      exec (.peerRegionSet mb) s = .next (s.regionTurn mb b (r.num 1 1) { host := false, base := r.num 8 8, limit := r.num 16 8
                                                                          write := r.num 2 1 == 1, dest := r.num 4 4
                                                                          target := r.num 24 8, tee := false })) ∧
    (Requests s mb 0x0808 r → (e.trusted = false ∨ e.locked = false) → regionBad (r.num 1 1) (r.num 8 8) (r.num 16 8) = false →
      r.num 3 1 ≤ 1 → (b = 0 ∨ r.num 16 8 = 0 ∨ e.pasid.isSome = true) →
      exec (.hostRegionSet mb) s = .next (s.regionTurn mb b (r.num 1 1) { host := true, base := r.num 8 8, limit := r.num 16 8
                                                                          write := bitAt (r.num 2 1) 0, dest := r.num 3 1
                                                                          target := r.num 24 8, tee := bitAt (r.num 2 1) 1 })) ∧
    (Requests s mb 0x0809 r → b ≠ 0 → exec (.pasidSet mb) s = .next ((s.modBerth b fun e => { e with
      pasid := if bitAt (r.num 4 4) 31 then some (r.num 4 4 % 2 ^ 20) else none }).mbOk mb []))

/-- Cargo and convoy program (Table 13.4, R253 to R255, R342): opening, sealing and unloading run in the background; sources are noted
by page; a sealed cargo is mapped into and out of berths; a convoy program is registered over the operator's pages, which
become code, and unregistered. -/
def Obligations.CargoOperations : Prop :=
  ∀ (s : State) mb r,
    (∀ ds, Requests s mb 0x0300 r → s.bth.cargoState = .none → r.num 0 4 ≠ 0 → ds = bitsOf 72 (r.num 16 16) → ds ≠ [] →
      r.num 8 8 % 2 ^ 30 = 0 → r.num 8 8 + r.num 0 4 * 0x10000 ≤ 2 ^ 47 → ds.all s.present = true →
      s.vaFree 0 (r.num 8 8 / 0x10000) (r.num 0 4) = true → exec (.cargoOpen mb) s = .next (s.bgBegin mb r [])) ∧
    (Requests s mb 0x0301 r → s.bth.cargoState ≠ .none → r.num 4 4 ≠ 0 → r.num 0 4 + r.num 4 4 ≤ s.bth.cargoPages.length →
      r.num 8 1 ≤ 1 → r.num 9 1 ≤ 1 → exec (.cargoSource mb) s = .next ((s.modBth fun b => { b with
        sources := (List.range (r.num 4 4)).foldl (fun m i => NMap.put m (r.num 0 4 + i)
          { peer := r.num 8 1 == 1, port := r.num 9 1, dev := r.num 12 4, addr := r.num 16 8 + i * 0x10000 })
          b.sources }).mbOk mb [])) ∧
    (Requests s mb 0x0302 r → s.bth.cargoState = .loading →
      (∀ i, i < s.bth.cargoPages.length → NMap.has s.bth.sources i = true) →
      exec (.cargoSeal mb) s = .next (s.bgBegin mb r [])) ∧
    (∀ e, s.berth? (r.num 0 1) = some e → e.state = .active →
      (Requests s mb 0x0303 r → s.bth.cargoState = .sealed → e.cargoMapped = false →
        s.vaFree (r.num 0 1) (s.bth.cargoVa / 0x10000) s.bth.cargoPages.length = true →
        exec (.cargoMap mb) s = .next (s.mapTurn mb (r.num 0 1) (fun s =>
          (0, s.modBerth (r.num 0 1) fun e => { e with cargoMapped := true })) fun s => s.mbOk mb [])) ∧
      (Requests s mb 0x0304 r → e.cargoMapped = true → exec (.cargoUnmap mb) s = .next (s.mapTurn mb (r.num 0 1) (fun s =>
        (0, s.modBerth (r.num 0 1) fun e => { e with cargoMapped := false })) fun s => s.mbOk mb []))) ∧
    (Requests s mb 0x0305 r → s.bth.cargoState ≠ .none → s.cargoUsed = false →
      exec (.cargoUnload mb) s = .next (s.bgBegin mb r [])) ∧
    (Requests s mb 0x0306 r → ∃ rsp, exec (.cargoQuery mb) s = .next (s.mbOk mb rsp) ∧ rdLE rsp 0 1 = s.bth.cargoState.code ∧
      (s.bth.cargoState = .sealed → rdLE rsp 16 48 = s.bth.cargoHash.toNat)) ∧
    (∀ ps rd m x, Requests s mb 0x0310 r → s.bth.cargoState = .sealed → s.bth.convoy = none → r.num 16 4 ≠ 0 →
      1 ≤ r.num 20 4 → r.num 20 4 ≤ 65536 → r.num 24 1 ≤ 16 → r.num 8 8 % 0x10000 = 0 → s.ctx? (r.num 26 2) = some x →
      x.berth = 0 → s.imagePages (r.num 8 8) (r.num 16 4) = some ps →
      readPieces (fun s a k => s.paRead .firmware a k) (ps.map fun p => (p * 0x10000, 0x10000)) s = (rd, m) → rd.wait = false →
      rd.st = 0 → exec (.convoyRegister mb) s = .next (((m.codePages ps true).modBth fun b => { b with
        convoy := some { entry := BitVec.ofNat 64 (r.num 0 8), imageVa := r.num 8 8, imagePages := r.num 16 4, tpm := r.num 20 4
                         scratch := r.num 24 1, ctx := r.num 26 2, hash := Config.sha384 rd.bytes } }).measured.mbOk mb
        (bytesOf 48 (Config.sha384 rd.bytes).toNat))) ∧
    (∀ c, Requests s mb 0x0311 r → s.bth.convoy = some c → s.cargoUsed = false → exec (.convoyUnregister mb) s =
      .next (((s.codePages ((s.ownRange 0 (c.imageVa / 0x10000) c.imagePages).map (·.2)) false).modBth fun b => { b with
        convoy := none }).measured.mbOk mb []))

/-- Device operations (Tables 13.3, 13.11, R338, R339): identity and the state of a background operation are answered; an abort stops a
running operation of the same mailbox. The set-alls hold what R339 names and run in the background; a finishing image goes into
every die's inactive bank at once. At their time-out nothing is committed. A device reset starts a bring-up. -/
def Obligations.DeviceOperations : Prop :=
  (∀ (s : State) mb r,
    (Requests s mb 0x0100 r → ∃ rsp, exec (.identify mb) s = .next (s.mbOk mb rsp) ∧ rsp.length = 56 ∧
      rdLE rsp 16 8 = s.sec.fuses.dsn.toNat ∧ rdLE rsp 34 1 = s.bootCode ∧ rdLE rsp 48 8 = s.clk.now % 2 ^ 64) ∧
    (∀ g, s.namedBg mb (r.num 0 4) = (0, some g) →
      (Requests s mb 0x0102 r → ∃ rsp, exec (.bgStatus mb) s = .next (s.mbOk mb rsp) ∧
        rdLE rsp 0 2 = (if g.ended then g.status.toNat else 0x0901) ∧ (g.ended = true → rsp.drop 16 = g.rsp)) ∧
      (Requests s mb 0x0103 r → g.ended = false → g.req.opcode ≠ 0x0302 → (g.req.opcode ≠ 0x0901 ∨ s.mbx.switching = false) →
        exec (.bgAbort mb) s = .next ((s.bgStop g).mbOk mb []))) ∧
    (∀ w b, w = r.num 0 1 → b = r.num 1 1 → Requests s .op 0x0110 r → w ≤ 15 →
      Word.fld (BitVec.ofNat 64 (r.num 24 8)) 38 37 ≠ 3 → Word.fld (BitVec.ofNat 64 (r.num 24 8)) 43 40 < 14 →
      s.bgCount .op < 8 → exec (.windowSetAll .op) s =
        .next ((s.holdStarts (b :: (s.windowOf w).toList.filter (· != b))).bgBegin .op r
          (b :: (s.windowOf w).toList.filter (· != b)))) ∧
    (Requests s mb 0x0111 r → r.num 0 1 ≤ 7 → s.bgCount mb < 8 →
      (s.diesIn.all fun d => !Word.bit (BitVec.ofNat 64 (r.num 8 8)) 63 || s.sprOk d (r.num 0 1) (BitVec.ofNat 64 (r.num 8 8))
        (BitVec.ofNat 64 (r.num 16 8)) (BitVec.ofNat 64 (r.num 24 8)) (BitVec.ofNat 64 (r.num 32 8))) = true →
      exec (.spreadSetAll mb) s = .next ((s.holdStarts [255]).bgBegin mb r [255])) ∧
    (∀ rd m, Requests s mb 0x0112 r → s.bgCount mb < 8 → s.paRead .operator (r.num 0 8) 0x8000 = (rd, m) → rd.wait = false →
      rd.st = 0 → exec (.finImageSetAll mb) s = .next (((m.diesIn.foldl (fun (s : State) d =>
          (s.finWrite d (if s.finBank d = 0 then 0x8000 else 0) rd.bytes).finSelect d (decide (s.finBank d = 0))) m).modLk fun l =>
        { l with holdMulti := true }).bgBegin mb r (ofBytes (rd.bytes.take 2) :: m.diesIn.map fun d => d * 2 + m.finBank d))) ∧
    (Requests s mb 0x0120 r → r.num 0 4 = 1 → s.pwr.thermTrip = false →
      exec (.deviceReset mb) s = .next ((s.modMbx fun m => { m with resetting := true }).bringUpStart))) ∧
  (∀ (s : State) bg g off, s.bg? bg = some g → g.ended = false → setAllTmo g.req.opcode = some off →
    g.since + g.req.num off 4 * 1000000 ≤ s.clk.now →
    exec (.setAllTimeout bg) s = .next ((s.setAllDrop g).bgEnd bg 0x5903 []))

/-- Background operations go on to their end (R334, R339, R340, R342, R344): one that has nothing to wait for ends with its result. A
verification that fails clears the staging area, one that passes begins the switch once no accepted request is left. -/
def Obligations.BackgroundEnds : Prop :=
  ∀ (s : State) bg g, s.mbRuns = true → s.pwr.boot = .service → s.bg? bg = some g → g.ended = false → g.id = bg →
    (g.req.opcode = 0x0903 → exec (.bgOperationEnd bg) s = .next (s.bgEnd bg 0 [])) ∧
    (g.req.opcode = 0x0904 → exec (.bgOperationEnd bg) s =
      .next (s.bgEnd bg 0 (rspOf [(0, 1, g.aux.getD 0 0), (1, 1, g.aux.getD 1 0), (2, 1, g.aux.getD 2 0)]))) ∧
    (g.req.opcode = 0x0112 → (∀ d ∈ s.diesIn, NMap.has s.eng.finPending d = false) →
      exec (.bgOperationEnd bg) s = .next ((s.modLk fun l => { l with holdMulti := false }).bgEnd bg 0 (bytesOf 2 (g.aux.headD 0)))) ∧
    (∀ m, g.req.opcode = 0x0202 → s.berthQuiet (g.req.num 0 1) = (true, m) →
      Gives (.bgOperationEnd bg) s fun n => ∃ k : State, n = (((m.ctxsOf (g.req.num 0 1)).foldl State.haltEnd k).bgEnd bg 0 []) ∧
        k = (m.berthClear (g.req.num 0 1)).modBerth (g.req.num 0 1) fun e => { e with state := .active }) ∧
    (∀ m k, g.req.opcode = 0x0201 → s.berthQuiet (g.req.num 0 1) = (true, m) →
      (m.berthClear (g.req.num 0 1)).releasePages ((m.berthClear (g.req.num 0 1)).pagesOf (g.req.num 0 1)) = (true, k) →
      exec (.bgOperationEnd bg) s = .next ((k.berthRemove (g.req.num 0 1)).bgEnd bg 0 [])) ∧
    (∀ m, g.req.opcode = 0x0305 → s.releasePages (s.bth.cargoPages.map (· / 0x10000)) = (true, m) →
      Gives (.bgOperationEnd bg) s fun n => n.bth.cargoState = .none ∧ n.bth.cargoPages = [] ∧ n.bth.sources = []) ∧
    (∀ st, g.req.opcode = 0x0901 → s.sec.fuses.checkImage ((s.slotImage (g.req.num 0 1)).getD []) = st →
      (st ≠ 0 → exec (.bgOperationEnd bg) s = .next ((s.modSec fun x => { x with
        staged := [], stagedTotal := 0, fwState := 0 }).bgEnd bg st [])) ∧
      (st = 0 → (∀ p ∈ s.mbx.pages, p.2.req = none) → exec (.bgOperationEnd bg) s = .next ((s.modSec fun x => { x with
        fwState := 3, switchSlot := g.req.num 0 1, switchBg := bg }).modMbx fun m => { m with switching := true })))

/-- Link operations (Table 13.9, R286, R289, R290, R298): the device number while no port is active; entries of the inactive route bank,
and their commit; actions on ports and cuts; spans, groups and the roles of time synchronization. -/
def Obligations.LinkOperations : Prop :=
  ∀ (s : State) mb r,
    (Requests s mb 0x0800 r → s.erhBusy = false → exec (.devIdSet mb) s = .next ((s.setReg (ghBase 0 + 0x20000)
      (BitVec.ofNat 64 (fld (r.num 0 4) 31 31 * 2 ^ 63 + fld (r.num 0 4) 17 0))).mbOk mb [])) ∧
    (∀ es bank, Requests s mb 0x0801 r → r.num 0 1 ≤ 1 → r.num 4 2 ≠ 0 → r.num 4 2 ≤ 512 → r.num 2 2 + r.num 4 2 ≤ 512 →
      es = (List.range (r.num 4 2)).map (fun i => r.num (8 + 4 * i) 4) → (∀ e ∈ es, e < 2 ^ 27 ∧ routeEntryOk e = true) →
      s.rbit erhRctlA 40 = false → bank = (if s.rbit erhRctlA 32 then 0x22000 else 0x23000) →
      exec (.routeWrite mb) s = .next (((List.range (r.num 4 2)).foldl (fun (s : State) i =>
        let a := bank + r.num 0 1 * 0x800 + (r.num 2 2 + i) * 4
        s.erhBankWrite (a - a % 8) (BitVec.ofNat 64 (es.getD i 0 * 2 ^ (8 * (a % 8))))
          (BitVec.ofNat 64 (0xFFFFFFFF * 2 ^ (8 * (a % 8))))) s).mbOk mb [])) ∧
    (Requests s mb 0x0802 r → exec (.routeCommit mb) s =
      .next (((s.setRbit erhRctlA 0 (!s.rbit erhRctlA 32)).erhCommit).mbOk mb [])) ∧
    (∀ p, p = r.num 0 1 → Requests s mb 0x0803 r → p < 36 → s.panel.fencedGh.contains (p / 9) = false →
      (r.num 1 1 = 0 → exec (.portCtl mb) s = .next ((s.erhRetrainW p).mbOk mb [])) ∧
      (r.num 1 1 = 1 → exec (.portCtl mb) s = .next ((s.erhForceW p true).mbOk mb [])) ∧
      (r.num 1 1 = 2 → exec (.portCtl mb) s = .next ((s.erhForceW p false).mbOk mb [])) ∧
      (r.num 1 1 = 3 → exec (.portCtl mb) s = .next ((s.erhRestoreW p).mbOk mb [])) ∧
      (r.num 1 1 = 4 → exec (.portCtl mb) s = .next ((s.setRbit (erhCtlA p) 60 true).mbOk mb [])) ∧
      (r.num 1 1 = 5 → exec (.portCtl mb) s = .next ((s.setRbit (erhCtlA p) 60 false).mbOk mb []))) ∧
    (∀ t p, t = r.num 0 1 → p = r.num 1 1 → Requests s mb 0x0805 r → t < 72 → p < 6 → s.present t = true → s.hasCut t p = true →
      (r.num 2 1 = 0 → exec (.cutCtl mb) s = .next ((s.cutRetrainW t p).mbOk mb [])) ∧
      (r.num 2 1 = 1 → exec (.cutCtl mb) s = .next ((s.cutForceW t p true).mbOk mb [])) ∧
      (r.num 2 1 = 2 → exec (.cutCtl mb) s = .next ((s.cutForceW t p false).mbOk mb [])) ∧
      (r.num 2 1 = 3 → exec (.cutCtl mb) s = .next ((s.cutRestoreW t p).mbOk mb [])) ∧
      (r.num 2 1 = 4 → exec (.cutCtl mb) s = .next ((s.setRfld (cutCtlA t p) 8 0 (r.num 4 2)).mbOk mb []))) ∧
    (∀ b id, b = r.num 0 1 → id = r.num 4 4 → Requests s mb 0x0806 r → b ≠ 0 → b ≤ 254 → s.berthActive b = true →
      (id = 0 → exec (.spanSet mb) s = .next ((s.modErh fun e => { e with spans := NMap.erase e.spans b }).mbOk mb [])) ∧
      (id ≠ 0 → id < 2 ^ 24 → r.num 8 4 ≤ r.num 12 4 → r.num 12 4 < 2 ^ 18 →
        (∀ e ∈ s.erh.spans, e.1 = b ∨ e.2.id ≠ id) → exec (.spanSet mb) s = .next ((s.modErh fun e => { e with
          spans := NMap.put e.spans b { id := id, lo := r.num 8 4, hi := r.num 12 4 } }).mbOk mb []))) ∧
    (∀ n b g, n = r.num 0 2 → b = (r.payload.drop 8).take 64 → g = groupOf b (NMap.get? s.erh.groups n) →
      Requests s .op 0x080A r → 1 ≤ n → n ≤ 4095 → g.reservedBad b = false → NMap.has s.erh.runs n = false →
      (bitAt g.flags.toNat 0 = false ∨ (g.rangeBad = false ∧ s.berthActive g.berth = true ∧
        s.idOk g.berth g.arrive.toNat = true ∧ s.idOk g.berth g.release.toNat = true)) →
      exec (.groupSet .op) s = .next ((s.modErh fun e => { e with groups := NMap.put e.groups n g }).mbOk .op [])) ∧
    (Requests s mb 0x080B r → r.num 0 1 ≤ 2 → r.num 1 1 < 36 → r.num 2 1 ≤ 1 → r.num 3 1 ≤ 1 → exec (.tsyncSet mb) s =
      .next ((s.modErh fun e => { e with
        role := r.num 0 1, upstream := r.num 1 1, ppsEn := r.num 2 1 == 1, stepAllowed := r.num 3 1 == 1, sync := .free, inBound := 0
        missed := 0, pendingT := false, ppsLast := none, ppsIgnored := 0 }).mbOk mb []))

/-- Maintenance, power and security operations (Tables 13.5, 13.7, 13.10, R344, R382, R405, R417): staging a firmware image, its
activation while no other operation runs, DRAM of sites out of service, die repair by the row's standby; the cap, ratio limits
and fabric economy; the debug nonce, which serves one unlock. -/
def Obligations.UpkeepOperations : Prop :=
  ∀ (s : State) mb r,
    (∀ data, Requests s mb 0x0900 r → data = r.payload.drop 8 → r.num 4 4 ≠ 0 → r.num 4 4 ≤ 0x4000000 →
      r.num 0 4 + data.length ≤ r.num 4 4 → exec (.fwStage mb) s = .next ((s.modSec fun x => { x with
        staged := (List.range data.length).foldl (fun (m : NMap Byte) i => NMap.put m (r.num 0 4 + i) (byteAt data i))
          (if x.stagedTotal = r.num 4 4 then x.staged else [])
        stagedTotal := r.num 4 4, fwState := 1 }).mbOk mb [])) ∧
    (Requests s mb 0x0901 r → r.num 0 1 ≤ 1 → s.bgRuns = false → (s.slotImage (r.num 0 1)).isSome = true →
      exec (.fwActivate mb) s = .next ((s.modSec fun x => { x with fwState := 2 }).bgBegin mb r [])) ∧
    (Requests s mb 0x0902 r → ∃ rsp, exec (.fwQuery mb) s = .next (s.mbOk mb rsp) ∧ rdLE rsp 0 8 = s.fwVersion.toNat ∧
      rdLE rsp 28 1 = s.sec.fwState % 256) ∧
    (∀ n, s.outSite (r.num 0 1) = (0, n) →
      (Requests s mb 0x0903 r → exec (.dramInit mb) s = .next (s.bgBegin mb r [])) ∧
      (∀ lower upper, Requests s mb 0x0904 r → r.num 1 1 ≤ 63 → r.num 2 1 ≤ 3 → exec (.dramMargin mb lower upper) s =
        .next (s.bgBegin mb r [ofSigned 8 lower, ofSigned 8 upper, if marginPass (r.num 2 1) lower upper then 1 else 0]))) ∧
    (∀ d o n, d = r.num 0 1 → Requests s mb 0x0905 r → d < 72 → s.siteOf d = some o → s.rowStandby d = some n →
      s.panel.repair = none → s.bgCount mb < 8 → exec (.dieRepair mb) s = .next ((s.modPanel fun p => { p with
        repair := some { die := d, oldSite := o, newSite := n, phase := 1, passes := 0, dirty := [], bg := some s.mbx.nextBg }
        repairQ := p.repairQ.filter (· != d) }).bgBegin mb r [])) ∧
    (Requests s mb 0x0400 r → 4000 ≤ r.num 0 4 → r.num 0 4 ≤ 20000 → 1000 ≤ r.num 4 4 → r.num 4 4 ≤ 10000 →
      exec (.capSet mb) s = .next ((s.modPwr fun p => { p with capW := r.num 0 4, windowMs := r.num 4 4 }).mbOk mb [])) ∧
    (Requests s mb 0x0401 r → ∃ rsp, exec (.powerQuery mb) s = .next (s.mbOk mb rsp) ∧
      rdLE rsp 8 4 = s.pwr.windowMs % 2 ^ 32 ∧ (mb = .op → rdLE rsp 4 4 = s.pwr.capW % 2 ^ 32)) ∧
    (∀ ds, Requests s mb 0x0402 r → ds = bitsOf 72 (r.num 0 16) → ds.all s.present = true → 12 ≤ r.num 16 1 →
      r.num 16 1 ≤ 46 → exec (.ratioLimit mb) s = .next ((s.modPwr fun p => { p with
        ratioMax := ds.foldl (fun l d => NMap.put l d (r.num 16 1)) p.ratioMax }).mbOk mb [])) ∧
    (∀ d, d = r.num 0 1 → Requests s mb 0x0403 r → d < 72 → s.present d = true → r.num 1 1 ≤ 1 → r.num 2 1 ≤ 1 →
      exec (.fabricHalf mb) s = .next ((s.ecoWrite d (BitVec.ofNat 64 (r.num 2 1 * 2 ^ (49 + r.num 1 1)))
        (BitVec.ofNat 64 (2 ^ (49 + r.num 1 1)))).mbOk mb [])) ∧
    (Requests s mb 0x0600 r → ∃ rsp, exec (.secState mb) s = .next (s.mbOk mb rsp) ∧
      rdLE rsp 0 1 = s.sec.fuses.level % 256 ∧ rdLE rsp 1 1 = (if s.sec.alarmLock then 1 else 0)) ∧
    (Requests s mb 0x0601 r → ∃ n : Nat, n < 2 ^ 256 ∧ exec (.debugChallenge mb) s =
      .next (((s.drawn 4).modSec fun x => { x with nonce := some (BitVec.ofNat 256 n) }).mbOk mb (bytesOf 32 n))) ∧
    (∀ rd m, Requests s mb 0x0602 r → s.sec.fuses.debugPolicy.toNat < 2 → r.num 8 4 = tokenLen →
      s.paRead .operator (r.num 0 8) tokenLen = (rd, m) → rd.wait = false → rd.st = 0 →
      (m.tokenOk rd.bytes = false → exec (.debugUnlock mb) s =
        .next ((m.modSec fun x => { x with nonce := none }).mbFail mb 0x4B03)) ∧
      (m.tokenOk rd.bytes = true → exec (.debugUnlock mb) s = .next ((((m.modSec fun x => { x with nonce := none }).modSec fun x =>
        { x with debugUntil := some (m.clk.now + rdLE rd.bytes 48 4 * 1000000000)
                 debugScope := BitVec.ofNat 32 (rdLE rd.bytes 44 4) }).measured).mbOk mb [])))

/-- Reliability and observation (Tables 13.6, 13.8, R353, R362 to R367, R425, R427, R431, R433): signatures, tallies, repairs, events and
groups are read; tallies are cleared and logged; the Cupping floor and self-tests are set; a unit is retired as a full tally
would; counters and traces are configured; a snapshot runs in the background. -/
def Obligations.WatchOperations : Prop :=
  ∀ (s : State) mb r,
    (Requests s mb 0x0500 r → 1 ≤ r.num 8 1 → r.num 8 1 ≤ 15 → exec (.sigRead mb) s = .next (s.mbOk mb
      (((s.rel.sigs.filter fun g => decide (r.num 0 8 ≤ g.sigSeq)).take (r.num 8 1)).map Sig.bytes).flatten)) ∧
    (∀ u, s.tallyUnit r = (0, u) →
      (Requests s mb 0x0501 r → ∃ rsp, exec (.tallyRead mb) s = .next (s.mbOk mb rsp) ∧
        rdLE rsp 0 1 = (s.tallyTimes u).length % 256) ∧
      (Requests s mb 0x0502 r → r.num 2 2 ≠ 0xFFFF → exec (.tallyClear mb) s = .next (((s.modRel fun x => { x with
        tallies := x.tallies.filter fun e => !(e.1 == u) }).event 4 (s.tallySite (r.num 0 1) (r.num 1 1) (r.num 2 2)) (r.num 2 2) 0
        (BitVec.ofNat 64 (rdLE r.payload 0 8))).mbOk mb [])) ∧
      (Requests s mb 0x0505 r → s.bgCount mb < 8 →
        exec (.unitRetire mb) s = .next ((s.retireAsked r u).bgBegin mb r []))) ∧
    (Requests s mb 0x0503 r →
      (r.num 0 1 ≤ 5 → exec (.cupFloor mb) s = .next ((s.modLk fun l => { l with cupFloor := some (r.num 0 1) }).mbOk mb [])) ∧
      (r.num 0 1 = 0xFF → exec (.cupFloor mb) s = .next ((s.modLk fun l => { l with cupFloor := none }).mbOk mb []))) ∧
    (Requests s mb 0x0504 r →
      (r.num 0 1 = 1 → exec (.selftest mb) s = .next ((s.modRel fun x => { x with selftest := true }).mbOk mb [])) ∧
      (r.num 0 1 = 0 → exec (.selftest mb) s =
        .next ((s.modRel fun x => { x with selftest := false, testing := [] }).mbOk mb []))) ∧
    (Requests s mb 0x0506 r → exec (.repairList mb) s =
      .next (s.mbOk mb (((s.mem.repairs.drop (r.num 0 4)).take 240).map RowRepair.bytes).flatten)) ∧
    (∀ d k, d = r.num 0 1 → k = r.num 1 1 → Requests s .op 0x0700 r → d < 72 → k < 4 → s.present d = true → r.num 4 1 ≤ 2 →
      pmcEventOk (r.num 2 2) (r.num 4 1) = true → exec (.counterCfg .op) s = .next (((s.setReg (dieBase d + 0x800 + k * 0x10)
        0).setReg (dieBase d + 0x808 + k * 0x10) (BitVec.ofNat 64 (r.num 4 1 * 2 ^ 24 + mbBerth .op * 2 ^ 16 + r.num 2 2))).mbOk
        .op [])) ∧
    (∀ d, d = r.num 0 1 → Requests s .op 0x0701 r → d < 72 → s.present d = true →
      (r.num 1 1 = 0 → exec (.traceCfg .op) s = .next ((s.modRel fun x => { x with traces := NMap.erase x.traces d }).mbOk .op [])) ∧
      (r.num 1 1 = 1 → r.num 16 4 % 4096 = 0 → 8192 ≤ r.num 16 4 → r.num 16 4 ≤ 2 ^ 30 → r.num 8 8 % 4096 = 0 →
        r.num 8 8 + r.num 16 4 ≤ 2 ^ 47 → exec (.traceCfg .op) s = .next ((s.modRel fun x => { x with
          traces := NMap.put x.traces d { enabled := true, berth := mbBerth .op, bufVa := r.num 8 8, bytes := r.num 16 4
                                          filter := BitVec.ofNat 32 (r.num 20 4), recs := [], lost := 0, dropped := 0
                                          written := 0 } }).mbOk .op []))) ∧
    (Requests s mb 0x0702 r → exec (.snapshot mb) s = .next (s.bgBegin mb r [])) ∧
    (Requests s mb 0x0703 r → ∃ rsp, exec (.cfgEvents mb) s = .next (s.mbOk mb rsp) ∧
      rdLE rsp 0 8 = (s.rel.evtNext + 1) % 2 ^ 64 ∧
      rsp.drop 16 = (((s.rel.evts.filter fun e => decide (r.num 0 8 ≤ e.seq)).take 119).map Evt.bytes).flatten) ∧
    (∀ g, Requests s .op 0x0704 r → 1 ≤ r.num 0 2 → r.num 0 2 ≤ 4095 → NMap.get? s.erh.groups (r.num 0 2) = some g →
      ∃ rsp, exec (.groupStatus .op) s = .next (s.mbOk .op rsp) ∧ rdLE rsp 0 8 = g.gen % 2 ^ 64 ∧
        rdLE rsp 16 8 = g.lastCount % 2 ^ 64 ∧ rdLE rsp 32 2 = g.lastStatus.toNat)

/-- Bring-up (R408 to R415, Table 17.2): ROM ends in LOCKED under an alarm, in RECOVERY where neither image is accepted, and otherwise
takes the accepted image; WAIT_TRAY goes on once coolant and power are good. The identity brings SERVICE: the lock-keepers take
entries unless an alarm has locked the device, and a DEVICE_RESET that waits is answered. -/
def Obligations.BringUpRuns : Prop :=
  (∀ (s : State) (env : BringUpIn), s.pwr.standbyGood = true → s.pwr.thermTrip = false →
    (s.pwr.boot = .rom → s.sec.alarmLock = true →
      exec (.fullBringUp env) s = .next (s.modPwr fun p => { p with boot := .locked })) ∧
    (s.pwr.boot = .rom → s.sec.alarmLock = false → env.fuseAnomaly = false →
      s.sec.fuses.checkImage s.sec.active ≠ 0 → s.sec.fuses.checkImage s.sec.previous ≠ 0 →
      Gives (.fullBringUp env) s fun n => n.pwr.boot = .recovery ∧ n.sec.published = s.sec.fuses.publish ∧
        n.sec.fuses = s.sec.fuses) ∧
    (s.pwr.boot = .rom → s.sec.alarmLock = false → env.fuseAnomaly = false → s.sec.fuses.checkImage s.sec.active = 0 →
      (s.pwr.flow = false ∨ s.pwr.pwrGood = false) → env.badGatehouses.contains 0 = false → 2 ≤ env.clusters →
      Gives (.fullBringUp env) s fun n => n.pwr.boot = .waitTray ∧ n.sec.active = s.sec.active ∧
        n.sec.fuses = s.sec.fuses.apply s.sec.active) ∧
    (s.pwr.boot = .waitTray →
      (s.pwr.flow = true → s.pwr.pwrGood = true → exec (.fullBringUp env) s = .next (s.bringUpMap env)) ∧
      (s.pwr.flow = false ∨ s.pwr.pwrGood = false → exec (.fullBringUp env) s = .next s))) ∧
  (∀ (s : State) ok, s.pwr.boot = .links → s.pwr.stopping = false → Gives (.identityDerived ok) s fun n =>
    n.pwr.boot = .service ∧ n.sec.identity = (ok && !s.sec.fuses.kill) ∧ n.lk.takes = !s.sec.alarmLock ∧
    n.mbx.resetting = false)

/-- Restarts and die repair (R413, R416 to R422, Table 17.3): a watchdog makes a management restart due, which is signed and leaves the
rest running; during bring-up it starts it again, and the third time fails it. A standby that fails its test is FAILED, one that
passes is copied to in passes until 128 MiB or less are left, or four have not brought that; the switch gives the die the new
site, and fails and retires the old one. -/
def Obligations.RepairsRun : Prop :=
  (∀ (s : State) gh, gh < 4 → s.panel.fencedGh.contains gh = false → s.pwr.standbyGood = true →
    exec (.kiltorWatchdog gh) s = .next (s.modPwr fun p => { p with restartDue := true })) ∧
  (∀ (s : State), s.pwr.restartDue = true →
    (s.pwr.boot = .service → (s.pwr.restarts.filter fun t => decide (s.clk.now ≤ t + 3600000000000)).length < 3 →
      Gives .managementRestart s fun n => n.pwr.restartDue = false ∧ n.sec = s.sec ∧ n.lk = s.lk ∧ n.thr = s.thr ∧
        n.rel.sigNext = s.rel.sigNext + 1) ∧
    (s.pwr.boot = .recovery ∨ s.pwr.boot = .locked ∨ s.pwr.boot = .failed →
      exec .managementRestart s = .next (s.modPwr fun p => { p with restartDue := false })) ∧
    (s.pwr.boot = .dram → s.pwr.romRestarts = 2 → Gives .managementRestart s fun n => n.pwr.boot = .failed) ∧
    (s.pwr.boot = .dram → s.pwr.romRestarts < 2 → Gives .managementRestart s fun n => n.pwr.boot = .rom ∧
      n.pwr.romRestarts = s.pwr.romRestarts + 1)) ∧
  (∀ (s : State) r, s.panel.repair = some r →
    (r.phase = 1 → exec (.repairPhaseADone true) s =
        .next (s.modPanel fun p => { p with repair := some { r with phase := 2 } }) ∧
      Gives (.repairPhaseADone false) s fun n => NMap.get? n.panel.sites r.newSite = some .failed) ∧
    (∀ dirty : List Nat, r.phase = 2 → Gives (.repairPassEnd dirty) s fun n => ∃ q, n.panel.repair = some q ∧
      q.die = r.die ∧ q.newSite = r.newSite ∧ q.passes = r.passes + 1 ∧ q.dirty = dirty ∧
      q.phase = if dirty.length ≤ 2048 then 3 else if r.passes + 1 ≥ 4 then 4 else 2) ∧
    (∀ dirty : List Nat, r.phase = 4 → Gives (.repairPassEnd dirty) s fun n => ∃ q, n.panel.repair = some q ∧
      q.phase = 3 ∧ q.dirty = []) ∧
    (∀ readable, r.phase = 3 ∨ (2 ≤ r.phase ∧ readable = false) → r.oldSite ≠ r.newSite →
      Gives (.repairSwitch readable) s fun n => NMap.get? n.panel.sites r.newSite = some (.inService r.die) ∧
        NMap.get? n.panel.sites r.oldSite = some .failed ∧ (2, r.oldSite, 0) ∈ n.rel.retired))

/-- Forcing, droop and the power cap (R376 to R381, Table 15.4): a regulator alert or the fall of FLOW_OK forces every region to ratio
12, its release lets it return; a droop drops its region's ceiling to 12, and recovery starts it at 16. The cap step records the
module's power, steps at most 2 up from the last common ratio and commits every die; a die whose controller is absent for 10 ms
falls to 32. -/
def Obligations.PowerIsHeld : Prop :=
  (∀ (s : State), s.pwr.standbyGood = true →
    (s.pwr.vr = false → Gives .vrAlertN s fun n => n.pwr.vr = true ∧ s.clk.now ∈ n.pwr.vrTimes ∧
      ∀ t ∈ n.pwr.vrTimes, n.clk.now < t + 1000000000) ∧
    (s.pwr.vr = true → exec .vrAlertNRelease s = .next ((s.modPwr fun p => { p with vr := false }).forceAll 18 false)) ∧
    (s.pwr.flow = true → Gives .flowOk s fun n => n.pwr.flow = false ∧ n.pwr.flowFellAt = some s.clk.now) ∧
    (s.pwr.flow = false → Gives .flowOkRelease s fun n => n.pwr.flow = true ∧ n.pwr.flowFellAt = none)) ∧
  (∀ (s : State) die (east : Bool) r, r = die * 2 + (if east then 1 else 0) →
    (s.present die = true → s.pwr.boot ≠ .stopped → NMap.has s.pwr.droopSince r = false →
      Gives (.droopDetect die east) s fun n => NMap.get? n.pwr.droopSince r = some s.clk.now ∧
        NMap.get? n.pwr.droopCeil r = some 12) ∧
    (∀ since ns, NMap.get? s.pwr.droopSince r = some since → 50 ≤ ns → since + ns ≤ s.clk.now →
      NMap.sorted none s.pwr.droopSince = true → Gives (.droopRecover die east ns) s fun n =>
        NMap.get? n.pwr.droopSince r = none ∧ NMap.get? n.pwr.droopCeil r = some 16 ∧
        (10000 < s.clk.now - since → NMap.get? n.pwr.lowerUntil die = some (s.clk.now + 60000000000)))) ∧
  (∀ (s : State) watts pred, s.pwr.boot = .service → s.pwr.stopping = false → s.mbx.switching = false →
    Gives (.capControlStep watts pred) s fun n => n.pwr.history = (watts :: s.pwr.history).take 10000 ∧
      n.pwr.rPrev ≤ s.pwr.rPrev + 2 ∧ n.pwr.rPrev ≤ 46 ∧
      (13 ≤ n.pwr.rPrev → n.pwr.rPrev < s.pwr.rPrev + 2 → ∃ w, pred[n.pwr.rPrev - 12]? = some w ∧ w ≤ 19800) ∧
      ∀ d ∈ s.diesIn, NMap.get? n.pwr.lastCommit d = some s.clk.now) ∧
  (∀ (s : State) die, s.present die = true → s.mbx.switching = false → NMap.getD s.pwr.lastCommit die 0 + 10000000 ≤ s.clk.now →
    exec (.controllerAbsent die) s = .next ((
      (s.setRfld (dieBase die + 0x300) 29 24 (Nat.min 32 (s.rfld (dieBase die + 0x300) 29 24))).setRfld (dieBase die + 0x300) 35 30
        (Nat.min 32 ((s.setRfld (dieBase die + 0x300) 29 24 (Nat.min 32 (s.rfld (dieBase die + 0x300) 29 24))).rfld
          (dieBase die + 0x300) 35 30))).effSet die))

/-- The module stops and starts (R381 to R384, R438 to R443): 2 s of FLOW_OK low, or the fall of PWR_GOOD_IN, begin the stop, which
takes no more entries and abandons running tiles; its end writes back, turns the clocks off and reports. A rise starts a
bring-up, or is held through a trip or a stop. A reading of 115 °C trips; below 95 °C for 1 s the trip ends. Standby power
starts a bring-up; without it only fuses, the firmware store, repairs and straps remain. -/
def Obligations.ModuleStops : Prop :=
  ∀ (s : State),
    (∀ t, s.railsOn = true → s.pwr.stopping = false → s.pwr.flowFellAt = some t → t + 2000000000 ≤ s.clk.now →
      Gives .flowStop s fun n => n.pwr.stopping = true ∧ n.lk.takes = false ∧ n.eng.eng = []) ∧
    (s.pwr.stopping = true → s.pwr.riseHeld = false → Gives .moduleStopDone s fun n => n.pwr.boot = .stopped ∧
      n.pwr.stopping = false ∧ n.thr.threads = [] ∧ n.lk.takes = false) ∧
    (s.pwr.standbyGood = true → s.pwr.pwrGood = true →
      (Gives .pwrGoodInFall s fun n => n.pwr.pwrGood = false ∧ n.pwr.riseHeld = false ∧
        (s.railsOn = true → n.pwr.stopping = true)) ∧
      exec .inputUndervoltage s = .next s.powerFall) ∧
    (s.pwr.standbyGood = true → s.pwr.pwrGood = false →
      (s.pwr.thermTrip = true ∨ s.pwr.stopping = true → Gives .pwrGoodInRise s fun n => n.pwr.riseHeld = true ∧
        n.pwr.pwrGood = true) ∧
      (s.pwr.thermTrip = false → s.pwr.stopping = false → s.pwr.boot = .stopped → Gives .pwrGoodInRise s fun n =>
        n.pwr.boot = .rom ∧ n.pwr.pwrGood = true)) ∧
    (∀ modId, s.pwr.standbyGood = false → Gives (.standbyPowerGood modId) s fun n => n.pwr.standbyGood = true ∧
      n.pwr.modId = modId ∧ n.pwr.boot = .rom) ∧
    (s.pwr.standbyGood = true → Gives .standbyPowerLost s fun n => n.pwr.standbyGood = false ∧ n.sec.alarmLock = false ∧
      n.pwr.thermTrip = false ∧ n.sec.fuses = s.sec.fuses ∧ n.mem.dram = [] ∧ n.rel.retired = s.rel.retired ∧
      n.sec.active = s.sec.active) ∧
    (∀ unit (q : Int), unit < 76 → s.pwr.standbyGood = true →
      (460 ≤ q → s.pwr.thermTrip = false → Gives (.tempSample unit q) s fun n => n.pwr.thermTrip = true ∧
        NMap.get? n.pwr.temp unit = some q ∧ (s.railsOn = true → n.pwr.boot = .stopped)) ∧
      (-80 ≤ q → q < 460 → Gives (.tempSample unit q) s fun n => NMap.get? n.pwr.temp unit = some q ∧
        n.pwr.thermTrip = s.pwr.thermTrip ∧ n.sec = s.sec)) ∧
    (∀ t, s.pwr.thermTrip = true → s.pwr.coolSince = some t → t + 1000000000 ≤ s.clk.now → s.pwr.riseHeld = false →
      exec .thermTripRelease s = .next (s.modPwr fun p => { p with thermTrip := false }))

/-- Energy and the I3C address (R385, R386, R445): what an interval does not credit to commands goes to the operator's account, in
whole microjoules; a die with no command leaves all of it there. SETDASA reaches a module with a static address, ENTDAA one
without. -/
def Obligations.EnergyAndAddress : Prop :=
  (∀ (s : State) die nJ, s.present die = true ∨ (72 ≤ die ∧ die < 76) → s.pwr.boot ≠ .stopped →
    Gives (.energyInterval die nJ) s fun n => n.bth.opEnergyNJ < 1000 ∧
      (s.cmdsOn die = [] → n.bth.opAccount.energyUJ * 1000 + n.bth.opEnergyNJ =
        s.bth.opAccount.energyUJ * 1000 + s.bth.opEnergyNJ + nJ)) ∧
  (∀ (s : State) nJ, s.pwr.boot = .service → Gives (.remoteEnergyGather nJ) s fun n => n.bth.opEnergyNJ < 1000 ∧
    n.lk.cmds.length = s.lk.cmds.length) ∧
  (∀ (s : State) setdasa addr, s.pwr.standbyGood = true → addr < 128 → s.pwr.dynAddr = none →
    setdasa = decide (s.pwr.modId.toNat < 48) →
    exec (.i3cDynamicAddress setdasa addr) s = .next (s.modPwr fun p => { p with dynAddr := some addr }))
end

