-- ==== Sys2Proof/Laws/Map.lean ====
section
/-! SUPPORT. The laws of sparse tables: what a look-up finds after each operation, and that the rising order is kept. -/

set_option Elab.async false

namespace Sys2Proof

variable {α : Type}

@[simp] theorem NMap.get?_nil (k : Nat) : NMap.get? ([] : NMap α) k = none := rfl

theorem NMap.get?_put (m : NMap α) (k j : Nat) (v : α) :
    NMap.get? (NMap.put m k v) j = if j = k then some v else NMap.get? m j := by
  induction m with
  | nil => by_cases h : k = j <;> simp [NMap.put, NMap.get?, h, eq_comm]
  | cons e t ih =>
    obtain ⟨a, b⟩ := e
    by_cases h1 : k < a
    · simp only [NMap.put, h1, if_true, NMap.get?]
      by_cases h : k = j <;> simp [h, eq_comm]
    · by_cases h2 : k = a
      · subst h2
        by_cases h : k = j <;> simp [NMap.put, NMap.get?, h, eq_comm]
      · simp only [NMap.put, h1, if_false, h2, NMap.get?, ih]
        by_cases h : a = j <;> by_cases h' : j = k <;> simp_all

/-- A look-up of the key just put. -/
@[simp] theorem NMap.get?_put_self (m : NMap α) (k : Nat) (v : α) : NMap.get? (NMap.put m k v) k = some v := by
  simp [NMap.get?_put]

/-- A look-up of any other key. -/
theorem NMap.get?_put_ne (m : NMap α) {k j : Nat} (v : α) (h : j ≠ k) : NMap.get? (NMap.put m k v) j = NMap.get? m j := by
  simp [NMap.get?_put, h]

@[simp] theorem NMap.getD_put_self (m : NMap α) (k : Nat) (v d : α) : NMap.getD (NMap.put m k v) k d = v := by
  simp [NMap.getD]

theorem NMap.getD_put_ne (m : NMap α) {k j : Nat} (v d : α) (h : j ≠ k) :
    NMap.getD (NMap.put m k v) j d = NMap.getD m j d := by
  simp [NMap.getD, NMap.get?_put, h]

@[simp] theorem NMap.has_put_self (m : NMap α) (k : Nat) (v : α) : NMap.has (NMap.put m k v) k = true := by
  simp [NMap.has]

/-- Raising the bound below the first key keeps the order true. -/
theorem NMap.sorted_none {lo : Option Nat} {m : NMap α} (h : NMap.sorted lo m = true) : NMap.sorted none m = true := by
  cases m with
  | nil => rfl
  | cons e t => obtain ⟨a, b⟩ := e; cases lo <;> simp_all [NMap.sorted]

theorem NMap.sorted_lower {a b : Nat} {m : NMap α} (hab : a ≤ b) (h : NMap.sorted (some b) m = true) :
    NMap.sorted (some a) m = true := by
  cases m with
  | nil => rfl
  | cons e t => obtain ⟨c, d⟩ := e; simp [NMap.sorted] at *; exact ⟨by omega, h.2⟩

theorem NMap.get?_eq_none_of_lower {a j : Nat} {m : NMap α} (h : NMap.sorted (some a) m = true) (hj : j ≤ a) :
    NMap.get? m j = none := by
  induction m generalizing a with
  | nil => rfl
  | cons e t ih =>
    obtain ⟨c, d⟩ := e
    simp [NMap.sorted] at h
    have : c ≠ j := by omega
    simp [NMap.get?, this]
    exact ih h.2 (by omega)

theorem NMap.sorted_put {lo : Option Nat} {m : NMap α} {k : Nat} (v : α) (h : NMap.sorted lo m = true)
    (hk : ∀ l, lo = some l → l < k) : NMap.sorted lo (NMap.put m k v) = true := by
  induction m generalizing lo with
  | nil => cases lo <;> simp [NMap.put, NMap.sorted, hk]
  | cons e t ih =>
    obtain ⟨a, b⟩ := e
    have ht : NMap.sorted (some a) t = true := by cases lo <;> simp_all [NMap.sorted]
    by_cases h1 : k < a
    · cases lo <;> simp_all [NMap.put, NMap.sorted]
    · by_cases h2 : k = a
      · cases lo <;> simp_all [NMap.put, NMap.sorted]
      · have hr := ih ht (by intro l hl; simp at hl; omega)
        simp only [NMap.put, h1, if_false, h2]
        cases lo <;> simp_all [NMap.sorted]

theorem NMap.sorted_filter {lo : Option Nat} {m : NMap α} (p : Nat × α → Bool) (h : NMap.sorted lo m = true) :
    NMap.sorted lo (m.filter p) = true := by
  induction m generalizing lo with
  | nil => simpa using h
  | cons e t ih =>
    obtain ⟨a, b⟩ := e
    have ht : NMap.sorted (some a) t = true := by cases lo <;> simp_all [NMap.sorted]
    by_cases hp : p (a, b) = true
    · have hr := ih ht
      cases lo <;> simp_all [NMap.sorted]
    · simp only [List.filter_cons, hp]
      have hr := ih ht
      cases lo with
      | none => exact NMap.sorted_none hr
      | some l => exact NMap.sorted_lower (by simp [NMap.sorted] at h; omega) hr

theorem NMap.sorted_erase {lo : Option Nat} {m : NMap α} (k : Nat) (h : NMap.sorted lo m = true) :
    NMap.sorted lo (NMap.erase m k) = true := by
  induction m generalizing lo with
  | nil => simpa [NMap.erase] using h
  | cons e t ih =>
    obtain ⟨a, b⟩ := e
    have ht : NMap.sorted (some a) t = true := by cases lo <;> simp_all [NMap.sorted]
    by_cases hk : k = a
    · simp only [NMap.erase, hk, if_true]
      cases lo with
      | none => exact NMap.sorted_none ht
      | some l => exact NMap.sorted_lower (by simp [NMap.sorted] at h; omega) ht
    · have hr := ih ht
      cases lo <;> simp_all [NMap.erase, NMap.sorted]

/-- Every entry after an erasure was there before. -/
theorem NMap.mem_erase {m : NMap α} {k : Nat} {e : Nat × α} (h : e ∈ NMap.erase m k) : e ∈ m := by
  induction m with
  | nil => simp [NMap.erase] at h
  | cons a t ih =>
    obtain ⟨b, c⟩ := a
    by_cases hk : k = b
    · simp [NMap.erase, hk] at h; exact List.mem_cons_of_mem _ h
    · simp only [NMap.erase, hk, if_false, List.mem_cons] at h ⊢
      exact h.imp id ih

/-- Every entry after a put is the new one or was there before. -/
theorem NMap.mem_put {m : NMap α} {k : Nat} {v : α} {e : Nat × α} (h : e ∈ NMap.put m k v) : e = (k, v) ∨ e ∈ m := by
  induction m with
  | nil => simpa [NMap.put] using h
  | cons a t ih =>
    obtain ⟨b, c⟩ := a
    by_cases h1 : k < b
    · simp [NMap.put, h1] at h; simpa using h
    · by_cases h2 : k = b
      · simp [NMap.put, h2] at h
        rcases h with h | h
        · left; simp [h, h2]
        · right; exact List.mem_cons_of_mem _ h
      · simp only [NMap.put, h1, if_false, h2, List.mem_cons] at h ⊢
        rcases h with h | h
        · right; left; exact h
        · rcases ih h with h | h
          · left; exact h
          · right; right; exact h

theorem NMap.get?_erase {m : NMap α} (h : NMap.sorted none m = true) (k j : Nat) :
    NMap.get? (NMap.erase m k) j = if j = k then none else NMap.get? m j := by
  induction m with
  | nil => simp [NMap.erase]
  | cons e t ih =>
    obtain ⟨a, b⟩ := e
    have ht : NMap.sorted (some a) t = true := by simpa [NMap.sorted] using h
    by_cases hk : k = a
    · subst hk
      simp only [NMap.erase, if_true, NMap.get?]
      by_cases hj : j = k
      · subst hj; simpa using NMap.get?_eq_none_of_lower ht (le_refl _)
      · simp [hj, Ne.symm hj]
    · simp only [NMap.erase, hk, if_false, NMap.get?, ih (NMap.sorted_none ht)]
      by_cases hj : a = j <;> by_cases hj' : j = k <;> simp_all

end Sys2Proof
end

