-- ==== Sys2Proof/Laws/Memory.lean ====
section
/-! SUPPORT. The laws of DRAM bytes: read after write, and that every memory operation keeps the canonical form. -/

set_option Elab.async false

namespace Sys2Proof.Machine

theorem memory_wf_iff (m : List Host.Cell) :
    Memory.wf m = true ↔ NMap.sorted none m = true ∧ ∀ c ∈ m, c.2 ≠ 0 := by
  simp [Memory.wf]

theorem memory_wf_nil : Memory.wf [] = true := rfl

/-- Reading after writing one byte. -/
theorem memRead_memWrite {m : List Host.Cell} (h : Memory.wf m = true) (a c : Nat) (b : Byte) :
    memRead (memWrite m a b) c = if c = a then b else memRead m c := by
  have hs := ((memory_wf_iff m).1 h).1
  unfold memRead memWrite NMap.set
  by_cases hb : b = 0
  · simp only [hb, if_true, NMap.getD, NMap.get?_erase hs]
    by_cases hc : c = a <;> simp [hc]
  · simp only [hb, if_false, NMap.getD, NMap.get?_put]
    by_cases hc : c = a <;> simp [hc]

/-- Writing a byte keeps the canonical form. -/
theorem memWrite_wf {m : List Host.Cell} (h : Memory.wf m = true) (a : Nat) (b : Byte) :
    Memory.wf (memWrite m a b) = true := by
  rw [memory_wf_iff] at h ⊢
  unfold memWrite NMap.set
  by_cases hb : b = 0
  · rw [if_pos hb]
    exact ⟨NMap.sorted_erase _ h.1, fun c hc => h.2 c (NMap.mem_erase hc)⟩
  · rw [if_neg hb]
    refine ⟨NMap.sorted_put b h.1 (by simp), fun c hc => ?_⟩
    rcases NMap.mem_put hc with rfl | hc
    · exact hb
    · exact h.2 c hc

/-- Writing bytes keeps the canonical form. -/
theorem memWrites_wf {m : List Host.Cell} (h : Memory.wf m = true) (a : Nat) (l : List Byte) :
    Memory.wf (memWrites m a l) = true := by
  induction l generalizing m a with
  | nil => exact h
  | cons b t ih => exact ih (memWrite_wf h a b) (a + 1)

/-- Reading outside written bytes. -/
theorem memRead_memWrites_ne {m : List Host.Cell} (h : Memory.wf m = true) (a c : Nat) (l : List Byte)
    (hc : c < a ∨ a + l.length ≤ c) : memRead (memWrites m a l) c = memRead m c := by
  induction l generalizing m a with
  | nil => rfl
  | cons b t ih =>
    simp only [List.length_cons] at hc
    have hne : c ≠ a := by omega
    rw [memWrites, ih (memWrite_wf h a b) (a + 1) (by omega), memRead_memWrite h, if_neg hne]

/-- Reading a written byte. -/
theorem memRead_memWrites {m : List Host.Cell} (h : Memory.wf m = true) (a i : Nat) (l : List Byte) (hi : i < l.length) :
    memRead (memWrites m a l) (a + i) = l.getD i 0 := by
  induction l generalizing m a i with
  | nil => simp at hi
  | cons b t ih =>
    cases i with
    | zero =>
      rw [memWrites, memRead_memWrites_ne (memWrite_wf h a b) _ _ _ (by omega)]
      simp [memRead_memWrite h]
    | succ n =>
      have := ih (memWrite_wf h a b) (a + 1) n (by simpa using hi)
      rw [memWrites, show a + (n + 1) = a + 1 + n by omega, this]
      simp

/-- Keeping some bytes keeps the canonical form. -/
theorem memory_keep_wf {m : List Host.Cell} (h : Memory.wf m = true) (p : Nat → Byte → Bool) :
    Memory.wf (NMap.keep m p) = true := by
  rw [memory_wf_iff] at h ⊢
  exact ⟨NMap.sorted_filter _ h.1, fun c hc => h.2 c (List.mem_filter.1 hc).1⟩

/-- Copying stored bytes to other places keeps the canonical form. -/
theorem memory_copy_wf {m l : List Host.Cell} (h : Memory.wf m = true) (hl : ∀ c ∈ l, c.2 ≠ 0) (f : Nat → Nat) :
    Memory.wf (l.foldl (fun d c => NMap.put d (f c.1) c.2) m) = true := by
  induction l generalizing m with
  | nil => exact h
  | cons e t ih =>
    refine ih ?_ fun c hc => hl c (List.mem_cons_of_mem _ hc)
    rw [memory_wf_iff] at h ⊢
    refine ⟨NMap.sorted_put _ h.1 (by simp), fun c hc => ?_⟩
    rcases NMap.mem_put hc with rfl | hc
    · exact hl e (List.mem_cons_self ..)
    · exact h.2 c hc

theorem memory_move_wf {m : List Host.Cell} (h : Memory.wf m = true) (p : Host.Cell → Bool) (f : Nat → Nat) :
    Memory.wf ((m.filter p).foldl (fun d c => NMap.put d (f c.1) c.2) m) = true :=
  memory_copy_wf h (fun c hc => ((memory_wf_iff m).1 h).2 c (List.mem_filter.1 hc).1) f

end Sys2Proof.Machine
end

