-- ==== Sys2Proof/Laws/Does.lean ====
section
/-! SUPPORT. What an operation can do, as one relation: `Does w s t` says that t differs from s only in the parts whose bit of
the mask `w` is set (bit n is the n-th constructor of `Part`), that DRAM keeps its canonical form, that fuses only blow, and
that the retirement list only grows. The lemmas here compose it; the files `Laws/Does…` state it once per operation. -/

set_option Elab.async false

namespace Sys2Proof.Machine

theorem Fuses.Blown.rfl' (f : Fuses) : f.Blown f :=
  ⟨rfl, rfl, rfl, rfl, BitVec.or_self, BitVec.or_self, le_refl _, BitVec.or_self, BitVec.or_self, BitVec.or_self, id⟩

theorem bv_or_trans {n : Nat} {a b c : BitVec n} (h : a ||| b = b) (k : b ||| c = c) : a ||| c = c := by
  rw [← k, ← BitVec.or_assoc, h]

theorem Fuses.Blown.trans {f g k : Fuses} (h : f.Blown g) (h' : g.Blown k) : f.Blown k :=
  ⟨h'.rsaHash.trans h.rsaHash, h'.slhHash.trans h.slhHash, h'.idSeed.trans h.idSeed, h'.dsn.trans h.dsn,
    bv_or_trans h.revokeRsa h'.revokeRsa, bv_or_trans h.revokeSlh h'.revokeSlh, h.svn.trans h'.svn,
    bv_or_trans h.alarmPolicy h'.alarmPolicy, bv_or_trans h.debugPolicy h'.debugPolicy,
    bv_or_trans h.berthReduce h'.berthReduce, fun e => h'.kill (h.kill e)⟩

theorem Part.same_refl (s : State) (p : Part) : p.same s s := by cases p <;> rfl

theorem Part.same_trans {s t u : State} {p : Part} (h : p.same s t) (h' : p.same t u) : p.same s u := by
  cases p <;> exact Eq.trans h h'

/-- What an operation keeps: see the head of this file. -/
structure Does (w : Nat) (s t : State) : Prop where
  only : ∀ p : Part, w.testBit p.ctorIdx = false → p.same s t
  wf : Memory.wf s.mem.dram = true → Memory.wf t.mem.dram = true
  blown : s.sec.fuses.Blown t.sec.fuses
  grows : s.rel.retired ⊆ t.rel.retired

theorem Does.refl {w : Nat} {s : State} : Does w s s :=
  ⟨fun p _ => p.same_refl s, id, Fuses.Blown.rfl' _, fun _ h => h⟩

theorem testBit_of_sub {q w n : Nat} (h : q &&& w = q) (hn : w.testBit n = false) : q.testBit n = false := by
  rw [← h, Nat.testBit_land, hn, Bool.and_false]

/-- One operation after another. -/
theorem Does.trans {q w : Nat} {o s t : State} (h : Does w o s) (k : Does q s t) (hq : q &&& w = q) : Does w o t :=
  ⟨fun p hp => Part.same_trans (h.only p hp) (k.only p (testBit_of_sub hq hp)), fun e => k.wf (h.wf e), h.blown.trans k.blown,
    fun _ e => k.grows (h.grows e)⟩

/-- Masks within masks. -/
theorem Does.sub {a b c : Nat} (h : a &&& b = a) (k : b &&& c = b) : a &&& c = a := by
  rw [← h, Nat.land_assoc, k]

theorem Does.ite {w : Nat} {o a b : State} {c : Prop} [Decidable c] (h : Does w o a) (k : Does w o b) :
    Does w o (if c then a else b) := by
  split
  · exact h
  · exact k

/-- A fold whose every turn keeps a property. -/
theorem foldl_keeps {β γ : Type} {l : List γ} {f : β → γ → β} {b : β} (P : β → Prop) (hb : P b)
    (hf : ∀ r x, P r → P (f r x)) : P (l.foldl f b) := by
  induction l generalizing b with
  | nil => exact hb
  | cons x t ih => exact ih (hf b x hb)

/-- A fold of states. -/
theorem Does.foldl {γ : Type} {w : Nat} {o s : State} {l : List γ} {f : State → γ → State} (hs : Does w o s)
    (hf : ∀ r x, Does w o r → Does w o (f r x)) : Does w o (l.foldl f s) :=
  foldl_keeps (Does w o) hs hf

/-! ## Leaf updates -/

theorem subset_ite_append {α : Type} {c : Prop} [Decidable c] (l m : List α) : l ⊆ if c then l else l ++ m := by
  split
  · exact List.Subset.refl _
  · exact List.subset_append_left _ _


theorem Does.drawn {w : Nat} {o s : State} {n : Nat} (h : Does w o s) (c : w.testBit 41 = true := by rfl) : Does w o (s.drawn n) := by
  refine ⟨fun p hp => ?_, h.wf, h.blown, h.grows⟩
  cases p <;> first | exact h.only _ hp | exact absurd (c.symm.trans hp) (by decide)

theorem Does.setReg {w : Nat} {o s : State} {a : Nat} {v : Word} (h : Does w o s) (c : w.testBit 4 = true := by rfl) :
    Does w o (s.setReg a v) := by
  refine ⟨fun p hp => ?_, h.wf, h.blown, h.grows⟩
  cases p <;> first | exact h.only _ hp | exact absurd (c.symm.trans hp) (by decide)

theorem Does.modClk {w : Nat} {o s : State} {f : ClockSt → ClockSt} (h : Does w o s)
    (c0 : w.testBit 1 = true ∨ s.clk = f s.clk := by first | exact .inl rfl | exact .inr (by dsimp only)) :
    Does w o (s.modClk f) := by
  refine ⟨fun p hp => ?_, h.wf, h.blown, h.grows⟩
  have e := h.only p hp
  cases p <;> first | exact e | skip
  · exact Eq.trans e (c0.resolve_left (by simp [show w.testBit 1 = false from hp]))

theorem Does.modPanel {w : Nat} {o s : State} {f : PanelSt → PanelSt} (h : Does w o s)
    (c0 : w.testBit 2 = true ∨ (s.panel.sites, s.panel.fusedStandby, s.panel.grades, s.panel.fencedGh) = ((f s.panel).sites, (f s.panel).fusedStandby, (f s.panel).grades, (f s.panel).fencedGh)
      := by first | exact .inl rfl | exact .inr (by dsimp only))
    (c1 : w.testBit 3 = true ∨ (s.panel.repair, s.panel.repairQ) = ((f s.panel).repair, (f s.panel).repairQ)
      := by first | exact .inl rfl | exact .inr (by dsimp only)) :
    Does w o (s.modPanel f) := by
  refine ⟨fun p hp => ?_, h.wf, h.blown, h.grows⟩
  have e := h.only p hp
  cases p <;> first | exact e | skip
  · exact Eq.trans e (c0.resolve_left (by simp [show w.testBit 2 = false from hp]))
  · exact Eq.trans e (c1.resolve_left (by simp [show w.testBit 3 = false from hp]))

theorem Does.modMem {w : Nat} {o s : State} {f : MemSt → MemSt} (h : Does w o s)
    (c0 : w.testBit 5 = true ∨ (s.mem.dram, s.mem.sect, s.mem.spentSec) = ((f s.mem).dram, (f s.mem).sect, (f s.mem).spentSec)
      := by first | exact .inl rfl | exact .inr (by dsimp only))
    (c1 : w.testBit 6 = true ∨ s.mem.pot = (f s.mem).pot := by first | exact .inl rfl | exact .inr (by dsimp only))
    (c2 : w.testBit 7 = true ∨ (s.mem.zeroedAtBringUp, s.mem.heat, s.mem.blocked, s.mem.repairs, s.mem.refreshed, s.mem.stopReads, s.mem.stopWrites, s.mem.margining) = ((f s.mem).zeroedAtBringUp, (f s.mem).heat, (f s.mem).blocked, (f s.mem).repairs, (f s.mem).refreshed, (f s.mem).stopReads, (f s.mem).stopWrites, (f s.mem).margining)
      := by first | exact .inl rfl | exact .inr (by dsimp only))
    (hw : Memory.wf s.mem.dram = true → Memory.wf (f s.mem).dram = true := by
      dsimp only; with_reducible first | exact id | exact fun h => memWrites_wf h _ _ | exact fun h => memory_keep_wf h _ |
        exact fun h => memory_move_wf h _ _ | exact fun _ => memory_wf_nil) :
    Does w o (s.modMem f) := by
  refine ⟨fun p hp => ?_, fun e => hw (h.wf e), h.blown, h.grows⟩
  have e := h.only p hp
  cases p <;> first | exact e | skip
  · exact Eq.trans e (c0.resolve_left (by simp [show w.testBit 5 = false from hp]))
  · exact Eq.trans e (c1.resolve_left (by simp [show w.testBit 6 = false from hp]))
  · exact Eq.trans e (c2.resolve_left (by simp [show w.testBit 7 = false from hp]))

theorem Does.modBasin {w : Nat} {o s : State} {f : BasinSt → BasinSt} (h : Does w o s)
    (c0 : w.testBit 8 = true ∨ (s.basin.l1, s.basin.l1Poison, s.basin.icache, s.basin.far, s.basin.farPoison, s.basin.farLines, s.basin.home, s.basin.homePoison, s.basin.homeLines, s.basin.predictor, s.basin.stamp) = ((f s.basin).l1, (f s.basin).l1Poison, (f s.basin).icache, (f s.basin).far, (f s.basin).farPoison, (f s.basin).farLines, (f s.basin).home, (f s.basin).homePoison, (f s.basin).homeLines, (f s.basin).predictor, (f s.basin).stamp)
      := by first | exact .inl rfl | exact .inr (by dsimp only))
    (c1 : w.testBit 9 = true ∨ (s.basin.dir, s.basin.net, s.basin.pend, s.basin.starve, s.basin.nearHist) = ((f s.basin).dir, (f s.basin).net, (f s.basin).pend, (f s.basin).starve, (f s.basin).nearHist)
      := by first | exact .inl rfl | exact .inr (by dsimp only))
    (c2 : w.testBit 10 = true ∨ s.basin.resv = (f s.basin).resv := by first | exact .inl rfl | exact .inr (by dsimp only))
    (c3 : w.testBit 11 = true ∨ (s.basin.updq, s.basin.quotaNew, s.basin.maint, s.basin.winPending) = ((f s.basin).updq, (f s.basin).quotaNew, (f s.basin).maint, (f s.basin).winPending)
      := by first | exact .inl rfl | exact .inr (by dsimp only)) :
    Does w o (s.modBasin f) := by
  refine ⟨fun p hp => ?_, h.wf, h.blown, h.grows⟩
  have e := h.only p hp
  cases p <;> first | exact e | skip
  · exact Eq.trans e (c0.resolve_left (by simp [show w.testBit 8 = false from hp]))
  · exact Eq.trans e (c1.resolve_left (by simp [show w.testBit 9 = false from hp]))
  · exact Eq.trans e (c2.resolve_left (by simp [show w.testBit 10 = false from hp]))
  · exact Eq.trans e (c3.resolve_left (by simp [show w.testBit 11 = false from hp]))

theorem Does.modEng {w : Nat} {o s : State} {f : EngineSt → EngineSt} (h : Does w o s)
    (c0 : w.testBit 12 = true ∨ (s.eng.hold, s.eng.side, s.eng.holdTag) = ((f s.eng).hold, (f s.eng).side, (f s.eng).holdTag)
      := by first | exact .inl rfl | exact .inr (by dsimp only))
    (c1 : w.testBit 13 = true ∨ (s.eng.tileq, s.eng.reruns, s.eng.copies, s.eng.mism, s.eng.eng, s.eng.arithStopped, s.eng.workAt, s.eng.cupFirst, s.eng.spentPending) = ((f s.eng).tileq, (f s.eng).reruns, (f s.eng).copies, (f s.eng).mism, (f s.eng).eng, (f s.eng).arithStopped, (f s.eng).workAt, (f s.eng).cupFirst, (f s.eng).spentPending)
      := by first | exact .inl rfl | exact .inr (by dsimp only))
    (c2 : w.testBit 14 = true ∨ s.eng.xfers = (f s.eng).xfers := by first | exact .inl rfl | exact .inr (by dsimp only))
    (c3 : w.testBit 15 = true ∨ (s.eng.fin, s.eng.finPending) = ((f s.eng).fin, (f s.eng).finPending)
      := by first | exact .inl rfl | exact .inr (by dsimp only)) :
    Does w o (s.modEng f) := by
  refine ⟨fun p hp => ?_, h.wf, h.blown, h.grows⟩
  have e := h.only p hp
  cases p <;> first | exact e | skip
  · exact Eq.trans e (c0.resolve_left (by simp [show w.testBit 12 = false from hp]))
  · exact Eq.trans e (c1.resolve_left (by simp [show w.testBit 13 = false from hp]))
  · exact Eq.trans e (c2.resolve_left (by simp [show w.testBit 14 = false from hp]))
  · exact Eq.trans e (c3.resolve_left (by simp [show w.testBit 15 = false from hp]))

theorem Does.modThr {w : Nat} {o s : State} {f : ThreadSt → ThreadSt} (h : Does w o s)
    (c0 : w.testBit 16 = true ∨ (s.thr.threads, s.thr.nextUid) = ((f s.thr).threads, (f s.thr).nextUid)
      := by first | exact .inl rfl | exact .inr (by dsimp only))
    (c1 : w.testBit 17 = true ∨ s.thr.tickets = (f s.thr).tickets := by first | exact .inl rfl | exact .inr (by dsimp only)) :
    Does w o (s.modThr f) := by
  refine ⟨fun p hp => ?_, h.wf, h.blown, h.grows⟩
  have e := h.only p hp
  cases p <;> first | exact e | skip
  · exact Eq.trans e (c0.resolve_left (by simp [show w.testBit 16 = false from hp]))
  · exact Eq.trans e (c1.resolve_left (by simp [show w.testBit 17 = false from hp]))

theorem Does.modLk {w : Nat} {o s : State} {f : LockSt → LockSt} (h : Does w o s)
    (c0 : w.testBit 18 = true ∨ s.lk.ctxs = (f s.lk).ctxs := by first | exact .inl rfl | exact .inr (by dsimp only))
    (c1 : w.testBit 19 = true ∨ (s.lk.cmds, s.lk.spills, s.lk.held, s.lk.holdMulti, s.lk.takes, s.lk.resvDies, s.lk.cupFloor, s.lk.blockAt) = ((f s.lk).cmds, (f s.lk).spills, (f s.lk).held, (f s.lk).holdMulti, (f s.lk).takes, (f s.lk).resvDies, (f s.lk).cupFloor, (f s.lk).blockAt)
      := by first | exact .inl rfl | exact .inr (by dsimp only)) :
    Does w o (s.modLk f) := by
  refine ⟨fun p hp => ?_, h.wf, h.blown, h.grows⟩
  have e := h.only p hp
  cases p <;> first | exact e | skip
  · exact Eq.trans e (c0.resolve_left (by simp [show w.testBit 18 = false from hp]))
  · exact Eq.trans e (c1.resolve_left (by simp [show w.testBit 19 = false from hp]))

theorem Does.modBth {w : Nat} {o s : State} {f : BerthSt → BerthSt} (h : Does w o s)
    (c0 : w.testBit 20 = true ∨ (s.bth.berths, s.bth.rr, s.bth.opAccount, s.bth.opEnergyNJ, s.bth.seals, s.bth.nonces, s.bth.tables, s.bth.mapStale, s.bth.tlb, s.bth.refused) = ((f s.bth).berths, (f s.bth).rr, (f s.bth).opAccount, (f s.bth).opEnergyNJ, (f s.bth).seals, (f s.bth).nonces, (f s.bth).tables, (f s.bth).mapStale, (f s.bth).tlb, (f s.bth).refused)
      := by first | exact .inl rfl | exact .inr (by dsimp only))
    (c1 : w.testBit 21 = true ∨ (s.bth.cargoState, s.bth.cargoPages, s.bth.cargoVa, s.bth.cargoHash, s.bth.pageHashes, s.bth.sources, s.bth.relading, s.bth.moorLeak) = ((f s.bth).cargoState, (f s.bth).cargoPages, (f s.bth).cargoVa, (f s.bth).cargoHash, (f s.bth).pageHashes, (f s.bth).sources, (f s.bth).relading, (f s.bth).moorLeak)
      := by first | exact .inl rfl | exact .inr (by dsimp only))
    (c2 : w.testBit 22 = true ∨ (s.bth.convoy, s.bth.roll, s.bth.resv, s.bth.stepNo, s.bth.nextPsg) = ((f s.bth).convoy, (f s.bth).roll, (f s.bth).resv, (f s.bth).stepNo, (f s.bth).nextPsg)
      := by first | exact .inl rfl | exact .inr (by dsimp only)) :
    Does w o (s.modBth f) := by
  refine ⟨fun p hp => ?_, h.wf, h.blown, h.grows⟩
  have e := h.only p hp
  cases p <;> first | exact e | skip
  · exact Eq.trans e (c0.resolve_left (by simp [show w.testBit 20 = false from hp]))
  · exact Eq.trans e (c1.resolve_left (by simp [show w.testBit 21 = false from hp]))
  · exact Eq.trans e (c2.resolve_left (by simp [show w.testBit 22 = false from hp]))

theorem Does.modCut {w : Nat} {o s : State} {f : CutSt → CutSt} (h : Does w o s)
    (c0 : w.testBit 23 = true ∨ s.cut = f s.cut := by first | exact .inl rfl | exact .inr (by dsimp only)) :
    Does w o (s.modCut f) := by
  refine ⟨fun p hp => ?_, h.wf, h.blown, h.grows⟩
  have e := h.only p hp
  cases p <;> first | exact e | skip
  · exact Eq.trans e (c0.resolve_left (by simp [show w.testBit 23 = false from hp]))

theorem Does.modErh {w : Nat} {o s : State} {f : ErhSt → ErhSt} (h : Does w o s)
    (c0 : w.testBit 24 = true ∨ (s.erh.ports, s.erh.opens, s.erh.nextTxn, s.erh.spans, s.erh.got, s.erh.early, s.erh.oldHeldAt) = ((f s.erh).ports, (f s.erh).opens, (f s.erh).nextTxn, (f s.erh).spans, (f s.erh).got, (f s.erh).early, (f s.erh).oldHeldAt)
      := by first | exact .inl rfl | exact .inr (by dsimp only))
    (c1 : w.testBit 25 = true ∨ (s.erh.groups, s.erh.runs) = ((f s.erh).groups, (f s.erh).runs)
      := by first | exact .inl rfl | exact .inr (by dsimp only))
    (c2 : w.testBit 26 = true ∨ (s.erh.role, s.erh.upstream, s.erh.ppsEn, s.erh.stepAllowed, s.erh.sync, s.erh.offset, s.erh.inBound, s.erh.missed, s.erh.pendingT, s.erh.ppsLast, s.erh.ppsIgnored) = ((f s.erh).role, (f s.erh).upstream, (f s.erh).ppsEn, (f s.erh).stepAllowed, (f s.erh).sync, (f s.erh).offset, (f s.erh).inBound, (f s.erh).missed, (f s.erh).pendingT, (f s.erh).ppsLast, (f s.erh).ppsIgnored)
      := by first | exact .inl rfl | exact .inr (by dsimp only)) :
    Does w o (s.modErh f) := by
  refine ⟨fun p hp => ?_, h.wf, h.blown, h.grows⟩
  have e := h.only p hp
  cases p <;> first | exact e | skip
  · exact Eq.trans e (c0.resolve_left (by simp [show w.testBit 24 = false from hp]))
  · exact Eq.trans e (c1.resolve_left (by simp [show w.testBit 25 = false from hp]))
  · exact Eq.trans e (c2.resolve_left (by simp [show w.testBit 26 = false from hp]))

theorem Does.modCxl {w : Nat} {o s : State} {f : CxlSt → CxlSt} (h : Does w o s)
    (c0 : w.testBit 27 = true ∨ s.cxl.ports = (f s.cxl).ports := by first | exact .inl rfl | exact .inr (by dsimp only))
    (c1 : w.testBit 28 = true ∨ (s.cxl.logs, s.cxl.overflow, s.cxl.nextHandle, s.cxl.policy, s.cxl.timestamp, s.cxl.msix, s.cxl.reply, s.cxl.replyStatus) = ((f s.cxl).logs, (f s.cxl).overflow, (f s.cxl).nextHandle, (f s.cxl).policy, (f s.cxl).timestamp, (f s.cxl).msix, (f s.cxl).reply, (f s.cxl).replyStatus)
      := by first | exact .inl rfl | exact .inr (by dsimp only)) :
    Does w o (s.modCxl f) := by
  refine ⟨fun p hp => ?_, h.wf, h.blown, h.grows⟩
  have e := h.only p hp
  cases p <;> first | exact e | skip
  · exact Eq.trans e (c0.resolve_left (by simp [show w.testBit 27 = false from hp]))
  · exact Eq.trans e (c1.resolve_left (by simp [show w.testBit 28 = false from hp]))

theorem Does.modMbx {w : Nat} {o s : State} {f : MbSt → MbSt} (h : Does w o s)
    (c0 : w.testBit 29 = true ∨ (s.mbx.pages, s.mbx.switching, s.mbx.resetting) = ((f s.mbx).pages, (f s.mbx).switching, (f s.mbx).resetting)
      := by first | exact .inl rfl | exact .inr (by dsimp only))
    (c1 : w.testBit 30 = true ∨ (s.mbx.bgs, s.mbx.nextBg, s.mbx.ends) = ((f s.mbx).bgs, (f s.mbx).nextBg, (f s.mbx).ends)
      := by first | exact .inl rfl | exact .inr (by dsimp only)) :
    Does w o (s.modMbx f) := by
  refine ⟨fun p hp => ?_, h.wf, h.blown, h.grows⟩
  have e := h.only p hp
  cases p <;> first | exact e | skip
  · exact Eq.trans e (c0.resolve_left (by simp [show w.testBit 29 = false from hp]))
  · exact Eq.trans e (c1.resolve_left (by simp [show w.testBit 30 = false from hp]))

theorem Does.modRel {w : Nat} {o s : State} {f : RelSt → RelSt} (h : Does w o s)
    (c0 : w.testBit 31 = true ∨ (s.rel.tallies, s.rel.lastDet, s.rel.tagLog, s.rel.lanePos, s.rel.sigs, s.rel.sigNext) = ((f s.rel).tallies, (f s.rel).lastDet, (f s.rel).tagLog, (f s.rel).lanePos, (f s.rel).sigs, (f s.rel).sigNext)
      := by first | exact .inl rfl | exact .inr (by dsimp only))
    (c1 : w.testBit 32 = true ∨ (s.rel.evts, s.rel.evtNext, s.rel.evtLast) = ((f s.rel).evts, (f s.rel).evtNext, (f s.rel).evtLast)
      := by first | exact .inl rfl | exact .inr (by dsimp only))
    (c2 : w.testBit 33 = true ∨ s.rel.traces = (f s.rel).traces := by first | exact .inl rfl | exact .inr (by dsimp only))
    (c3 : w.testBit 34 = true ∨ (s.rel.retired, s.rel.retiring) = ((f s.rel).retired, (f s.rel).retiring)
      := by first | exact .inl rfl | exact .inr (by dsimp only))
    (c4 : w.testBit 35 = true ∨ (s.rel.selftest, s.rel.testing, s.rel.testAge, s.rel.testDone, s.rel.snapshots) = ((f s.rel).selftest, (f s.rel).testing, (f s.rel).testAge, (f s.rel).testDone, (f s.rel).snapshots)
      := by first | exact .inl rfl | exact .inr (by dsimp only))
    (hg : s.rel.retired ⊆ (f s.rel).retired := by
      dsimp only; with_reducible first | exact List.Subset.refl _ | exact List.subset_append_left _ _ | exact List.subset_cons_self _ _ |
        exact subset_ite_append _ _) :
    Does w o (s.modRel f) := by
  refine ⟨fun p hp => ?_, h.wf, h.blown, fun _ e => hg (h.grows e)⟩
  have e := h.only p hp
  cases p <;> first | exact e | skip
  · exact Eq.trans e (c0.resolve_left (by simp [show w.testBit 31 = false from hp]))
  · exact Eq.trans e (c1.resolve_left (by simp [show w.testBit 32 = false from hp]))
  · exact Eq.trans e (c2.resolve_left (by simp [show w.testBit 33 = false from hp]))
  · exact Eq.trans e (c3.resolve_left (by simp [show w.testBit 34 = false from hp]))
  · exact Eq.trans e (c4.resolve_left (by simp [show w.testBit 35 = false from hp]))

theorem Does.modPwr {w : Nat} {o s : State} {f : PowerSt → PowerSt} (h : Does w o s)
    (c0 : w.testBit 36 = true ∨ s.pwr = f s.pwr := by first | exact .inl rfl | exact .inr (by dsimp only)) :
    Does w o (s.modPwr f) := by
  refine ⟨fun p hp => ?_, h.wf, h.blown, h.grows⟩
  have e := h.only p hp
  cases p <;> first | exact e | skip
  · exact Eq.trans e (c0.resolve_left (by simp [show w.testBit 36 = false from hp]))

theorem Does.modSec {w : Nat} {o s : State} {f : SecSt → SecSt} (h : Does w o s)
    (c0 : w.testBit 37 = true ∨ s.sec.fuses = (f s.sec).fuses := by first | exact .inl rfl | exact .inr (by dsimp only))
    (c1 : w.testBit 38 = true ∨ (s.sec.alarmLock, s.sec.alarmCause, s.sec.alarmLevel) = ((f s.sec).alarmLock, (f s.sec).alarmCause, (f s.sec).alarmLevel)
      := by first | exact .inl rfl | exact .inr (by dsimp only))
    (c2 : w.testBit 39 = true ∨ (s.sec.nonce, s.sec.debugUntil, s.sec.debugScope, s.sec.keys, s.sec.genNext, s.sec.measGen, s.sec.identity, s.sec.spdm, s.sec.response, s.sec.spdmError) = ((f s.sec).nonce, (f s.sec).debugUntil, (f s.sec).debugScope, (f s.sec).keys, (f s.sec).genNext, (f s.sec).measGen, (f s.sec).identity, (f s.sec).spdm, (f s.sec).response, (f s.sec).spdmError)
      := by first | exact .inl rfl | exact .inr (by dsimp only))
    (c3 : w.testBit 40 = true ∨ (s.sec.published, s.sec.active, s.sec.previous, s.sec.staged, s.sec.stagedTotal, s.sec.fwState, s.sec.switchSlot, s.sec.switchBg) = ((f s.sec).published, (f s.sec).active, (f s.sec).previous, (f s.sec).staged, (f s.sec).stagedTotal, (f s.sec).fwState, (f s.sec).switchSlot, (f s.sec).switchBg)
      := by first | exact .inl rfl | exact .inr (by dsimp only))
    (hb : s.sec.fuses.Blown (f s.sec).fuses := by dsimp only; with_reducible exact Fuses.Blown.rfl' _) :
    Does w o (s.modSec f) := by
  refine ⟨fun p hp => ?_, h.wf, h.blown.trans hb, h.grows⟩
  have e := h.only p hp
  cases p <;> first | exact e | skip
  · exact Eq.trans e (c0.resolve_left (by simp [show w.testBit 37 = false from hp]))
  · exact Eq.trans e (c1.resolve_left (by simp [show w.testBit 38 = false from hp]))
  · exact Eq.trans e (c2.resolve_left (by simp [show w.testBit 39 = false from hp]))
  · exact Eq.trans e (c3.resolve_left (by simp [show w.testBit 40 = false from hp]))

/-! ## Outcomes and optional results -/

/-- `Does` of an outcome: of its next state, if it has one. -/
def OutDoes (w : Nat) (o : State) (x : Out) : Prop := ∀ t, x = .next t → Does w o t

theorem OutDoes.next {w : Nat} {o s : State} (h : Does w o s) : OutDoes w o (.next s) := by
  intro t e; cases e; exact h

theorem OutDoes.fault {w : Nat} {o : State} {f : Fault} : OutDoes w o (.fault f) := by
  intro t e; cases e

theorem OutDoes.need {w : Nat} {o : State} {b : Bool} {f : Fault} {k : Out} (h : OutDoes w o k) :
    OutDoes w o (need b f k) := by
  unfold Machine.need
  split
  · exact h
  · exact .fault

theorem OutDoes.needSome {α : Type} {w : Nat} {o : State} {x : Option α} {f : Fault} {k : α → Out}
    (h : ∀ a, OutDoes w o (k a)) : OutDoes w o (needSome x f k) := by
  unfold Machine.needSome
  split
  · exact h _
  · exact .fault

theorem OutDoes.ite {w : Nat} {o : State} {a b : Out} {c : Prop} [Decidable c] (h : OutDoes w o a) (k : OutDoes w o b) :
    OutDoes w o (if c then a else b) := by
  split
  · exact h
  · exact k

theorem OutDoes.after {q w : Nat} {o s : State} {x : Out} (h : Does w o s) (k : OutDoes q s x) (hq : q &&& w = q) :
    OutDoes w o x := fun t e => h.trans (k t e) hq

/-- `Does` of an optional result whose state `pr` picks. -/
def OptDoes {α : Type} (w : Nat) (o : State) (pr : α → State) (x : Option α) : Prop := ∀ r, x = some r → Does w o (pr r)

theorem OptDoes.some {α : Type} {w : Nat} {o : State} {pr : α → State} {r : α} (h : Does w o (pr r)) :
    OptDoes w o pr (some r) := by
  intro t e; cases e; exact h

theorem OptDoes.none {α : Type} {w : Nat} {o : State} {pr : α → State} : OptDoes w o pr (Option.none) := by
  intro t e; cases e

theorem OptDoes.ite {α : Type} {w : Nat} {o : State} {pr : α → State} {a b : Option α} {c : Prop} [Decidable c]
    (h : OptDoes w o pr a) (k : OptDoes w o pr b) : OptDoes w o pr (if c then a else b) := by
  split
  · exact h
  · exact k

theorem OptDoes.after {α : Type} {q w : Nat} {o s : State} {pr : α → State} {x : Option α} (h : Does w o s)
    (k : OptDoes q s pr x) (hq : q &&& w = q) : OptDoes w o pr x := fun r e => h.trans (k r e) hq

theorem OptDoes.mapTo {α β : Type} {w : Nat} {o : State} {pr : α → State} {pr' : β → State} {f : β → α} {x : Option β}
    (h : OptDoes w o pr' x) (k : ∀ a, Does w o (pr' a) → Does w o (pr (f a))) : OptDoes w o pr (x.map f) := by
  intro r hr
  obtain ⟨a, ha, rfl⟩ := Option.map_eq_some_iff.1 hr
  exact k a (h a ha)

theorem OptDoes.ofMap {α β : Type} {w : Nat} {o : State} {pr : α → State} {f : β → α} {x : Option β}
    (h : ∀ a, Does w o (pr (f a))) : OptDoes w o pr (x.map f) := by
  intro r hr
  obtain ⟨a, _, rfl⟩ := Option.map_eq_some_iff.1 hr
  exact h a

theorem Does.getD {w : Nat} {o d : State} {x : Option State} (h : OptDoes w o (fun r => r) x) (hd : Does w o d) :
    Does w o (x.getD d) := by
  cases x with
  | none => exact hd
  | some a => exact h a rfl

theorem Does.ite' {α : Type} (pr : α → State) {w : Nat} {o : State} {a b : α} {c : Prop} [Decidable c] (h : Does w o (pr a))
    (k : Does w o (pr b)) : Does w o (pr (if c then a else b)) := by
  split
  · exact h
  · exact k

/-! ## The state beside a result, once the result is named -/

/-- A state under a name of its own, so that the kernel need not look into what it is. -/
theorem Does.name {w : Nat} {o s : State} (h : Does w o s) : ∃ y, Does w o y ∧ s = y := ⟨s, h, rfl⟩

theorem Does.name2 {α : Type} {w : Nat} {o : State} {x : α × State} (h : Does w o x.2) : ∃ y : α × State, Does w o y.2 ∧ x = y :=
  ⟨x, h, rfl⟩

theorem Does.named1 {α : Type} {w : Nat} {o t : State} {x : α × State} {a : α}
    (k : Does w o x.2) (h : x = (a, t)) : Does w o t := by subst h; exact k

theorem Does.named2 {α β : Type} {w : Nat} {o t : State} {x : α × β × State} {a : α} {b : β}
    (k : Does w o x.2.2) (h : x = (a, b, t)) : Does w o t := by subst h; exact k

theorem Does.named3 {α β γ : Type} {w : Nat} {o t : State} {x : α × β × γ × State} {a : α} {b : β} {c : γ}
    (k : Does w o x.2.2.2) (h : x = (a, b, c, t)) : Does w o t := by subst h; exact k

theorem Does.named4 {α β γ δ : Type} {w : Nat} {o t : State} {x : α × β × γ × δ × State} {a : α} {b : β} {c : γ} {d : δ}
    (k : Does w o x.2.2.2.2) (h : x = (a, b, c, d, t)) : Does w o t := by subst h; exact k

theorem Does.named5 {α β γ δ ε : Type} {w : Nat} {o t : State} {x : α × β × γ × δ × ε × State} {a : α} {b : β} {c : γ} {d : δ} {e : ε}
    (k : Does w o x.2.2.2.2.2) (h : x = (a, b, c, d, e, t)) : Does w o t := by subst h; exact k

theorem Does.named6 {α β γ δ ε ζ : Type} {w : Nat} {o t : State} {x : α × β × γ × δ × ε × ζ × State} {a : α} {b : β} {c : γ} {d : δ} {e : ε} {f : ζ}
    (k : Does w o x.2.2.2.2.2.2) (h : x = (a, b, c, d, e, f, t)) : Does w o t := by subst h; exact k

theorem Does.named1st {α : Type} {w : Nat} {o t : State} {x : State × α} {a : α} (k : Does w o x.1) (h : x = (t, a)) :
    Does w o t := by subst h; exact k

theorem Does.opt0 {w : Nat} {o t : State} {x : Option (State)} 
    (k : OptDoes w o (fun r => r) x) (h : x = some t) : Does w o t := k _ h

theorem Does.opt1 {α : Type} {w : Nat} {o t : State} {x : Option (α × State)} {a : α}
    (k : OptDoes w o (fun r => Prod.snd r) x) (h : x = some (a, t)) : Does w o t := k _ h

theorem Does.opt2 {α β : Type} {w : Nat} {o t : State} {x : Option (α × β × State)} {a : α} {b : β}
    (k : OptDoes w o (fun r => Prod.snd (Prod.snd r)) x) (h : x = some (a, b, t)) : Does w o t := k _ h

end Sys2Proof.Machine
end

