-- ==== Sys2Proof/Laws/DoesBase.lean ====
section
/-! SUPPORT. What each operation can do, once per operation (registers, the event log, DRAM, caches, translation, trace). Read `Does w o t` in Laws/Does.lean. -/

set_option Elab.async false

namespace Sys2Proof.Machine

theorem State.setRfld_does {o a2 a3 a4 a5} : Does 0x10 o (State.setRfld o a2 a3 a4 a5) := by
  unfold State.setRfld
  exact Does.setReg Does.refl

theorem State.repairNext_does {o} : Does 0x8 o (State.repairNext o) := by
  unfold State.repairNext
  refine Does.ite ?_ ?_
  · exact Does.refl
  · split
    · exact Does.refl
    · split
      · exact Does.modPanel Does.refl
      · exact Does.modPanel Does.refl

theorem State.setRbit_does {o a2 a3 a4} : Does 0x10 o (State.setRbit o a2 a3 a4) := by
  unfold State.setRbit
  exact Does.trans Does.refl State.setRfld_does rfl

theorem State.askRepair_does {o a2} : Does 0x8 o (State.askRepair o a2) := by
  unfold State.askRepair
  refine Does.ite ?_ ?_
  · exact Does.trans (Does.modPanel Does.refl) State.repairNext_does rfl
  · exact Does.refl

theorem State.gcnt_does {o a2 a3 a4} : Does 0x10 o (State.gcnt o a2 a3 a4) := by
  unfold State.gcnt
  extract_lets +onlyGivenNames x1
  clear_value x1
  exact Does.setReg Does.refl

theorem State.event.log_does {o a2 a3 a4 a5 a6 a7} : Does 0x100000000 o (State.event.log o a2 a3 a4 a5 a6 a7) := by
  unfold State.event.log
  extract_lets +onlyGivenNames x1
  clear_value x1
  exact Does.modRel Does.refl

theorem State.event_does {o a2 a3 a4 a5 a6} : Does 0x100000010 o (State.event o a2 a3 a4 a5 a6) := by
  unfold State.event
  extract_lets +onlyGivenNames x1
  clear_value x1
  split
  · refine Does.ite ?_ ?_
    · exact Does.trans Does.refl State.gcnt_does rfl
    · exact Does.trans Does.refl State.event.log_does rfl
  · exact Does.trans Does.refl State.event.log_does rfl

theorem State.ignored_does {o a2 a3 a4 a5 a6 a7} : Does 0x100000010 o (State.ignored o a2 a3 a4 a5 a6 a7) := by
  unfold State.ignored
  exact Does.trans (Does.trans Does.refl State.setRbit_does rfl) State.event_does rfl

theorem State.pmcOne_does {a1 a2 a3 a4 o a6} : Does 0x10 o (State.pmcOne a1 a2 a3 a4 o a6) := by
  unfold State.pmcOne
  extract_lets +onlyGivenNames x1 x2
  clear_value x1 x2
  refine Does.ite ?_ ?_
  · exact Does.setReg Does.refl
  · exact Does.refl

theorem State.pmc_does {o a2 a3 a4 a5} : Does 0x10 o (State.pmc o a2 a3 a4 a5) := by
  unfold State.pmc
  refine Does.foldl ?_ fun r1 x2 h3 => ?_
  · exact Does.refl
  · exact Does.trans ‹_› State.pmcOne_does rfl

theorem State.pmcStart_does {o a2 a3} : Does 0x10 o (State.pmcStart o a2 a3) := by
  unfold State.pmcStart
  refine Does.foldl ?_ fun r1 x2 h3 => ?_
  · exact Does.refl
  · extract_lets +onlyGivenNames x4
    clear_value x4
    refine Does.ite ?_ ?_
    · exact Does.setReg ‹_›
    · assumption

theorem State.cxlEvent_does {o a2 a3 a4} : Does 0x10000000 o (State.cxlEvent o a2 a3 a4) := by
  unfold State.cxlEvent
  extract_lets +onlyGivenNames x1 x2
  clear_value x1 x2
  refine Does.ite ?_ ?_
  · exact Does.modCxl Does.refl
  · exact Does.modCxl Does.refl

theorem State.sign_does {o a2} : Does 0x90000010 o (State.sign o a2) := by
  unfold State.sign
  extract_lets +onlyGivenNames x1 x2
  clear_value x1
  have h3 : Does 0x90000010 o x2 := by
    unfold x2
    refine Does.ite ?_ ?_
    · exact Does.trans Does.refl State.gcnt_does rfl
    · exact Does.refl
  clear_value x2
  extract_lets +onlyGivenNames x4
  have h5 : Does 0x90000010 o x4 := by
    unfold x4
    exact Does.modRel ‹_›
  clear_value x4
  exact Does.trans ‹_› State.cxlEvent_does rfl

theorem State.tally_does {o a2 a3} : Does 0x80000000 o (State.tally o a2 a3).1 := by
  unfold State.tally
  extract_lets +onlyGivenNames x1 x2
  clear_value x1 x2
  refine Does.ite' (fun r => Prod.fst (r)) ?_ ?_
  · dsimp -zeta -iota only
    exact Does.refl
  · extract_lets +onlyGivenNames x3 x4
    clear_value x3
    have h5 : Does 0x80000000 o x4 := by
      unfold x4
      exact Does.modRel Does.refl
    clear_value x4
    dsimp -zeta -iota only
    assumption

theorem State.cnt_does {o a2 a3 a4} : Does 0x10 o (State.cnt o a2 a3 a4) := by
  unfold State.cnt
  extract_lets +onlyGivenNames x1
  clear_value x1
  exact Does.setReg Does.refl

theorem State.homeDropSec_does {o a2} : Does 0x100 o (State.homeDropSec o a2) := by
  unfold State.homeDropSec
  exact Does.modBasin Does.refl

theorem State.setPot_does {o a2 a3} : Does 0x40 o (State.setPot o a2 a3) := by
  unfold State.setPot
  exact Does.modMem Does.refl

theorem State.dramReport_does {o a2 a3 a4 a5} : Does 0x900000d8 o (State.dramReport o a2 a3 a4 a5) := by
  unfold State.dramReport
  extract_lets +onlyGivenNames x1 x2 x3
  clear_value x1 x2 x3
  split
  rename_i x4 _ x5
  refine (fun h6 : Does 0x900000d8 o x4 => ?_) (Does.named1st ?_ x5)
  rotate_left
  · exact Does.trans Does.refl State.tally_does rfl
  extract_lets +onlyGivenNames x7
  clear_value x7
  split
  extract_lets +onlyGivenNames x8 x9 x10
  clear_value x8 x9
  have h11 : Does 0x900000d8 o x10 := by
    unfold x10
    exact Does.trans ‹_› State.sign_does rfl
  clear_value x10
  extract_lets +onlyGivenNames x12
  have h13 : Does 0x900000d8 o x12 := by
    unfold x12
    refine Does.ite ?_ ?_
    · exact Does.trans ‹_› State.setPot_does rfl
    · assumption
  clear_value x12
  extract_lets +onlyGivenNames x14 x15
  clear_value x14
  have h16 : Does 0x900000d8 o x15 := by
    unfold x15
    refine Does.ite ?_ ?_
    · exact Does.trans (Does.modMem ‹_›) State.sign_does rfl
    · assumption
  clear_value x15
  refine Does.ite ?_ ?_
  · extract_lets +onlyGivenNames x17 x18 x19 x20
    clear_value x17 x18 x19
    have h21 : Does 0x900000d8 o x20 := by
      unfold x20
      exact Does.modRel ‹_›
    clear_value x20
    refine Does.ite ?_ ?_
    · split
      rename_i x22 _ x23
      refine (fun h24 : Does 0x900000d8 o x22 => ?_) (Does.named1st ?_ x23)
      rotate_left
      · exact Does.trans ‹_› State.tally_does rfl
      exact Does.trans (Does.trans ‹_› State.askRepair_does rfl) State.sign_does rfl
    · assumption
  · assumption

theorem State.dramSector_does {o a2 a3} : Does 0x900000f8 o (State.dramSector o a2 a3).2.2 := by
  unfold State.dramSector
  extract_lets +onlyGivenNames x1 x2 x3 x4
  clear_value x1 x2 x3
  have h5 : Does 0x900000f8 o x4 := by
    unfold x4
    refine Does.ite ?_ ?_
    · exact Does.refl
    · exact Does.modMem Does.refl
  clear_value x4
  extract_lets +onlyGivenNames x6 x7 x8 x9
  clear_value x6 x7 x8
  have h10 : Does 0x900000f8 o x9 := by
    unfold x9
    exact Does.trans (Does.trans ‹_› State.cnt_does rfl) State.pmc_does rfl
  clear_value x9
  extract_lets +onlyGivenNames x11 x12 x13
  clear_value x11 x12 x13
  split
  · dsimp -zeta -iota only
    assumption
  · dsimp -zeta -iota only
    exact Does.trans ‹_› State.dramReport_does rfl
  · dsimp -zeta -iota only
    assumption
  · dsimp -zeta -iota only
    exact Does.trans ‹_› State.dramReport_does rfl
  · dsimp -zeta -iota only
    assumption
  · dsimp -zeta -iota only
    exact Does.trans ‹_› State.dramReport_does rfl

theorem State.dramPut_does {o a2 a3 a4} : Does 0x30 o (State.dramPut o a2 a3 a4) := by
  unfold State.dramPut
  extract_lets +onlyGivenNames x1 x2
  clear_value x1
  have h3 : Does 0x30 o x2 := by
    unfold x2
    exact Does.trans (Does.trans Does.refl State.cnt_does rfl) State.pmc_does rfl
  clear_value x2
  exact Does.modMem ‹_›

theorem State.homeClean_does {o a2} : Does 0x900001f8 o (State.homeClean o a2) := by
  unfold State.homeClean
  extract_lets +onlyGivenNames x1 x2 x3
  clear_value x1 x2 x3
  refine Does.ite ?_ ?_
  · exact Does.refl
  · refine Does.ite ?_ ?_
    · exact Does.modMem Does.refl
    · extract_lets +onlyGivenNames x4
      clear_value x4
      split
      rename_i x5 x6
      refine (fun h7 : Does 0x900001f8 o x5 => ?_) (Does.named2 ?_ x6)
      rotate_left
      · refine Does.ite' (fun r => Prod.snd (Prod.snd (r))) ?_ ?_
        · dsimp -zeta -iota only
          exact Does.refl
        · exact Does.trans Does.refl State.dramSector_does rfl
      extract_lets +onlyGivenNames x8 x9
      clear_value x8
      have h10 : Does 0x900001f8 o x9 := by
        unfold x9
        exact Does.trans ‹_› State.dramPut_does rfl
      clear_value x9
      exact Does.modBasin ‹_›

theorem State.homeEvict_does {o a2} : Does 0x900001f8 o (State.homeEvict o a2) := by
  unfold State.homeEvict
  extract_lets +onlyGivenNames x1
  have h2 : Does 0x900001f8 o x1 := by
    unfold x1
    refine Does.foldl ?_ fun r3 x4 h5 => ?_
    · exact Does.refl
    · exact Does.trans (Does.trans ‹_› State.homeClean_does rfl) State.homeDropSec_does rfl
  clear_value x1
  exact Does.modBasin ‹_›

theorem State.homeAlloc_does {o a2} : Does 0x900001f8 o (State.homeAlloc o a2).2 := by
  unfold State.homeAlloc
  extract_lets +onlyGivenNames x1 x2 x3 x4
  clear_value x1 x2 x3
  refine Does.ite' (fun r => Prod.snd (r)) ?_ ?_
  · dsimp -zeta -iota only
    unfold x4
    exact Does.modBasin Does.refl
  · refine Does.ite' (fun r => Prod.snd (r)) ?_ ?_
    · dsimp -zeta -iota only
      exact Does.refl
    · split
      · dsimp -zeta -iota only
        exact Does.refl
      · extract_lets +onlyGivenNames x5
        have h6 : Does 0x900001f8 o x5 := by
          unfold x5
          split
          · exact Does.trans Does.refl State.homeEvict_does rfl
          · exact Does.refl
        clear_value x5
        dsimp -zeta -iota only
        exact Does.modBasin ‹_›

theorem State.homeMerge_does {o a2 a3 a4} : Does 0x900001f8 o (State.homeMerge o a2 a3 a4) := by
  unfold State.homeMerge
  extract_lets +onlyGivenNames x1
  clear_value x1
  split
  rename_i x2 x3
  refine (fun h4 : Does 0x900001f8 o x2 => ?_) (Does.named1 ?_ x3)
  rotate_left
  · exact Does.trans Does.refl State.homeAlloc_does rfl
  extract_lets +onlyGivenNames x5
  have h6 : Does 0x900001f8 o x5 := by
    unfold x5
    exact Does.modBasin ‹_›
  clear_value x5
  extract_lets +onlyGivenNames x7
  have h8 : Does 0x900001f8 o x7 := by
    unfold x7
    refine Does.ite ?_ ?_
    · exact Does.modMem ‹_›
    · assumption
  clear_value x7
  refine Does.ite ?_ ?_
  · assumption
  · exact Does.trans (Does.trans ‹_› State.homeClean_does rfl) State.homeDropSec_does rfl

theorem State.flushHome_does {o a2 a3} : Does 0x900001f8 o (State.flushHome o a2 a3) := by
  unfold State.flushHome
  extract_lets +onlyGivenNames x1
  clear_value x1
  refine Does.foldl ?_ fun r2 x3 h4 => ?_
  · exact Does.refl
  · exact Does.trans ‹_› State.homeClean_does rfl

theorem State.zeroPage_does {o a2} : Does 0x20 o (State.zeroPage o a2) := by
  unfold State.zeroPage
  exact Does.modMem Does.refl

theorem State.sliceRetire_does {o a2 a3} : Does 0x4900001f8 o (State.sliceRetire o a2 a3) := by
  unfold State.sliceRetire
  refine Does.ite ?_ ?_
  · exact Does.refl
  · exact Does.trans (Does.trans (Does.modRel Does.refl) State.flushHome_does rfl) State.askRepair_does rfl

theorem State.sliceReport_does {o a2 a3 a4 a5} : Does 0x4900001f8 o (State.sliceReport o a2 a3 a4 a5) := by
  unfold State.sliceReport
  extract_lets +onlyGivenNames x1
  clear_value x1
  split
  rename_i x2 _ x3
  refine (fun h4 : Does 0x4900001f8 o x2 => ?_) (Does.named1st ?_ x3)
  rotate_left
  · exact Does.trans Does.refl State.tally_does rfl
  extract_lets +onlyGivenNames x5 x6 x7
  clear_value x5 x6
  have h8 : Does 0x4900001f8 o x7 := by
    unfold x7
    exact Does.trans ‹_› State.sign_does rfl
  clear_value x7
  refine Does.ite ?_ ?_
  · exact Does.trans (Does.trans ‹_› State.sign_does rfl) State.sliceRetire_does rfl
  · assumption

theorem State.homeSector_does {o a2 a3 a4 a5} : Does 0x4900001f8 o (State.homeSector o a2 a3 a4 a5).2 := by
  unfold State.homeSector
  extract_lets +onlyGivenNames x1 x2 x3 x4 x5 x6 x7
  clear_value x1 x2 x3 x4 x5 x6
  have h8 : Does 0x4900001f8 o x7 := by
    unfold x7
    refine Does.ite ?_ ?_
    · exact Does.modBasin Does.refl
    · exact Does.refl
  clear_value x7
  extract_lets +onlyGivenNames x9
  have h10 : Does 0x4900001f8 o x9 := by
    unfold x9
    refine Does.ite ?_ ?_
    · exact Does.trans ‹_› State.homeDropSec_does rfl
    · assumption
  clear_value x9
  extract_lets +onlyGivenNames x11
  have h12 : Does 0x4900001f8 o x11 := by
    unfold x11
    refine Does.ite ?_ ?_
    · exact Does.trans ‹_› State.sliceReport_does rfl
    · assumption
  clear_value x11
  extract_lets +onlyGivenNames x13
  clear_value x13
  refine Does.ite' (fun r => Prod.snd (r)) ?_ ?_
  · extract_lets +onlyGivenNames x14
    have h15 : Does 0x4900001f8 o x14 := by
      unfold x14
      refine Does.ite ?_ ?_
      · exact Does.trans ‹_› State.homeAlloc_does rfl
      · assumption
    clear_value x14
    extract_lets +onlyGivenNames x16
    have h17 : Does 0x4900001f8 o x16 := by
      unfold x16
      exact Does.trans ‹_› State.pmc_does rfl
    clear_value x16
    dsimp -zeta -iota only
    assumption
  · refine Does.ite' (fun r => Prod.snd (r)) ?_ ?_
    · dsimp -zeta -iota only
      assumption
    · extract_lets +onlyGivenNames x18
      have h19 : Does 0x4900001f8 o x18 := by
        unfold x18
        exact Does.trans ‹_› State.pmc_does rfl
      clear_value x18
      split
      rename_i x20 x21
      refine (fun h22 : Does 0x4900001f8 o x20 => ?_) (Does.named2 ?_ x21)
      rotate_left
      · exact Does.trans ‹_› State.dramSector_does rfl
      extract_lets +onlyGivenNames x23 x24
      clear_value x23 x24
      split
      rename_i x25 x26
      refine (fun h27 : Does 0x4900001f8 o x25 => ?_) (Does.named1 ?_ x26)
      rotate_left
      · refine Does.ite' (fun r => Prod.snd (r)) ?_ ?_
        · exact Does.trans ‹_› State.homeAlloc_does rfl
        · dsimp -zeta -iota only
          assumption
      extract_lets +onlyGivenNames x28
      have h29 : Does 0x4900001f8 o x28 := by
        unfold x28
        refine Does.ite ?_ ?_
        · exact Does.modBasin ‹_›
        · assumption
      clear_value x28
      extract_lets +onlyGivenNames x30
      clear_value x30
      dsimp -zeta -iota only
      assumption

theorem State.dramZero_does {o a2} : Does 0x20 o (State.dramZero o a2) := by
  unfold State.dramZero
  exact Does.modMem Does.refl

theorem State.breakResv_does {o a2} : Does 0x400 o (State.breakResv o a2) := by
  unfold State.breakResv
  exact Does.modBasin Does.refl

theorem State.l1MarkClean_does {o a2 a3} : Does 0x100 o (State.l1MarkClean o a2 a3) := by
  unfold State.l1MarkClean
  exact Does.modBasin Does.refl

theorem State.modPort_does {o a2 a3} : Does 0x8000000 o (State.modPort o a2 a3) := by
  unfold State.modPort
  exact Does.modCxl Does.refl

theorem State.hostAsk_does {o a2 a3 a4} : Does 0x8000000 o (State.hostAsk o a2 a3 a4) := by
  unfold State.hostAsk
  exact Does.trans Does.refl State.modPort_does rfl

theorem State.hostWrite_does {o a2 a3} : Does 0x8000000 o (State.hostWrite o a2 a3).2 := by
  unfold State.hostWrite
  refine foldl_keeps (fun r => Does 0x8000000 o (Prod.snd (r))) ?_ fun r1 x2 h3 => ?_
  · dsimp -zeta -iota only
    exact Does.refl
  · extract_lets +onlyGivenNames x4 x5 x6
    clear_value x4 x5
    have h7 : Does 0x8000000 o x6 := by
      unfold x6
      exact Does.trans ‹_› State.modPort_does rfl
    clear_value x6
    extract_lets +onlyGivenNames x8
    have h9 : Does 0x8000000 o x8 := by
      unfold x8
      refine Does.ite ?_ ?_
      · assumption
      · exact Does.trans ‹_› State.hostAsk_does rfl
    clear_value x8
    dsimp -zeta -iota only
    assumption

theorem State.farDrop_does {o a2 a3} : Does 0x100 o (State.farDrop o a2 a3) := by
  unfold State.farDrop
  exact Does.modBasin Does.refl

theorem State.farWriteBack_does {o a2 a3} : Does 0x900001f8 o (State.farWriteBack o a2 a3) := by
  unfold State.farWriteBack
  refine Does.foldl ?_ fun r1 x2 h3 => ?_
  · exact Does.refl
  · extract_lets +onlyGivenNames x4
    clear_value x4
    refine Does.ite ?_ ?_
    · assumption
    · extract_lets +onlyGivenNames x5
      have h6 : Does 0x900001f8 o x5 := by
        unfold x5
        exact Does.trans ‹_› State.homeMerge_does rfl
      clear_value x5
      exact Does.modBasin ‹_›

theorem State.predMove_does {o a2 a3} : Does 0x100 o (State.predMove o a2 a3) := by
  unfold State.predMove
  exact Does.modBasin Does.refl

theorem State.dirRemove_does {o a2 a3} : Does 0x200 o (State.dirRemove o a2 a3) := by
  unfold State.dirRemove
  split
  · exact Does.refl
  · extract_lets +onlyGivenNames x1 x2
    clear_value x1 x2
    refine Does.ite ?_ ?_
    · exact Does.modBasin Does.refl
    · exact Does.modBasin Does.refl

theorem State.send_does {o a2} : Does 0x200 o (State.send o a2) := by
  unfold State.send
  exact Does.modBasin Does.refl

theorem State.biSnoop_does {o a2 a3 a4 a5 a6} : Does 0x200 o (State.biSnoop o a2 a3 a4 a5 a6) := by
  unfold State.biSnoop
  extract_lets +onlyGivenNames x1
  have h2 : Does 0x200 o x1 := by
    unfold x1
    exact Does.trans Does.refl State.send_does rfl
  clear_value x1
  exact Does.modBasin ‹_›

theorem State.farEvict_does {o a2 a3} : Does 0x900003f8 o (State.farEvict o a2 a3) := by
  unfold State.farEvict
  extract_lets +onlyGivenNames x1
  have h2 : Does 0x900003f8 o x1 := by
    unfold x1
    exact Does.trans Does.refl State.farWriteBack_does rfl
  clear_value x1
  extract_lets +onlyGivenNames x3
  have h4 : Does 0x900003f8 o x3 := by
    unfold x3
    exact Does.trans ‹_› State.farDrop_does rfl
  clear_value x3
  split
  · refine Does.ite ?_ ?_
    · extract_lets +onlyGivenNames x5
      have h6 : Does 0x900003f8 o x5 := by
        unfold x5
        refine Does.ite ?_ ?_
        · exact Does.trans ‹_› State.predMove_does rfl
        · assumption
      clear_value x5
      exact Does.trans ‹_› State.dirRemove_does rfl
    · split
      · refine Does.ite ?_ ?_
        · exact Does.modBasin ‹_›
        · assumption
      · assumption
  · assumption

theorem State.farAlloc_does {o a2 a3} : Does 0x900003f8 o (State.farAlloc o a2 a3).2 := by
  unfold State.farAlloc
  extract_lets +onlyGivenNames x1 x2 x3
  clear_value x1 x2 x3
  refine Does.ite' (fun r => Prod.snd (r)) ?_ ?_
  · dsimp -zeta -iota only
    exact Does.modBasin Does.refl
  · refine Does.ite' (fun r => Prod.snd (r)) ?_ ?_
    · dsimp -zeta -iota only
      exact Does.refl
    · extract_lets +onlyGivenNames x4
      clear_value x4
      split
      · dsimp -zeta -iota only
        exact Does.refl
      · extract_lets +onlyGivenNames x5
        have h6 : Does 0x900003f8 o x5 := by
          unfold x5
          split
          · exact Does.trans Does.refl State.farEvict_does rfl
          · exact Does.refl
        clear_value x5
        dsimp -zeta -iota only
        exact Does.modBasin ‹_›

theorem State.l1WriteBack_does {o a2 a3} : Does 0x980003f8 o (State.l1WriteBack o a2 a3).2 := by
  unfold State.l1WriteBack
  extract_lets +onlyGivenNames x1 x2 x3
  clear_value x1 x2 x3
  refine Does.ite' (fun r => Prod.snd (r)) ?_ ?_
  · dsimp -zeta -iota only
    exact Does.refl
  · refine Does.ite' (fun r => Prod.snd (r)) ?_ ?_
    · dsimp -zeta -iota only
      exact Does.trans Does.refl State.l1MarkClean_does rfl
    · refine Does.ite' (fun r => Prod.snd (r)) ?_ ?_
      · split
        rename_i x4 x5
        refine (fun h6 : Does 0x980003f8 o x4 => ?_) (Does.named1 ?_ x5)
        rotate_left
        · exact Does.trans Does.refl State.hostWrite_does rfl
        dsimp -zeta -iota only
        exact Does.trans ‹_› State.l1MarkClean_does rfl
      · refine Does.ite' (fun r => Prod.snd (r)) ?_ ?_
        · split
          rename_i x7 x8
          refine (fun h9 : Does 0x980003f8 o x7 => ?_) (Does.named1 ?_ x8)
          rotate_left
          · unfold State.recall
            split
            · dsimp -zeta -iota only
              exact Does.refl
            · split
              · dsimp -zeta -iota only
                exact Does.refl
              · refine Does.ite' (fun r => Prod.snd (r)) ?_ ?_
                · extract_lets +onlyGivenNames x10
                  have h11 : Does 0x980003f8 o x10 := by
                    unfold x10
                    exact Does.trans (Does.trans Does.refl State.farWriteBack_does rfl) State.farDrop_does rfl
                  clear_value x10
                  extract_lets +onlyGivenNames x12
                  have h13 : Does 0x980003f8 o x12 := by
                    unfold x12
                    refine Does.ite ?_ ?_
                    · exact Does.trans ‹_› State.predMove_does rfl
                    · assumption
                  clear_value x12
                  dsimp -zeta -iota only
                  exact Does.trans ‹_› State.dirRemove_does rfl
                · dsimp -zeta -iota only
                  exact Does.trans Does.refl State.biSnoop_does rfl
              · extract_lets +onlyGivenNames x14
                have h15 : Does 0x980003f8 o x14 := by
                  unfold x14
                  refine Does.foldl ?_ fun r16 x17 h18 => ?_
                  · exact Does.refl
                  · exact Does.trans (Does.trans ‹_› State.farDrop_does rfl) State.dirRemove_does rfl
                clear_value x14
                refine Does.ite' (fun r => Prod.snd (r)) ?_ ?_
                · dsimp -zeta -iota only
                  exact Does.trans ‹_› State.biSnoop_does rfl
                · refine Does.ite' (fun r => Prod.snd (r)) ?_ ?_
                  · dsimp -zeta -iota only
                    exact Does.trans ‹_› State.biSnoop_does rfl
                  · dsimp -zeta -iota only
                    assumption
          refine Does.ite' (fun r => Prod.snd (r)) ?_ ?_
          · dsimp -zeta -iota only
            assumption
          · dsimp -zeta -iota only
            exact Does.trans (Does.trans ‹_› State.homeMerge_does rfl) State.l1MarkClean_does rfl
        · split
          rename_i x19 x20
          refine (fun h21 : Does 0x980003f8 o x19 => ?_) (Does.named1 ?_ x20)
          rotate_left
          · exact Does.trans Does.refl State.farAlloc_does rfl
          refine Does.ite' (fun r => Prod.snd (r)) ?_ ?_
          · extract_lets +onlyGivenNames x22
            have h23 : Does 0x980003f8 o x22 := by
              unfold x22
              exact Does.modBasin ‹_›
            clear_value x22
            dsimp -zeta -iota only
            exact Does.trans ‹_› State.l1MarkClean_does rfl
          · split
            rename_i x24 x25
            refine (fun h26 : Does 0x980003f8 o x24 => ?_) (Does.named1 ?_ x25)
            rotate_left
            · unfold State.recall
              split
              · dsimp -zeta -iota only
                assumption
              · split
                · dsimp -zeta -iota only
                  assumption
                · refine Does.ite' (fun r => Prod.snd (r)) ?_ ?_
                  · extract_lets +onlyGivenNames x27
                    have h28 : Does 0x980003f8 o x27 := by
                      unfold x27
                      exact Does.trans (Does.trans ‹_› State.farWriteBack_does rfl) State.farDrop_does rfl
                    clear_value x27
                    extract_lets +onlyGivenNames x29
                    have h30 : Does 0x980003f8 o x29 := by
                      unfold x29
                      refine Does.ite ?_ ?_
                      · exact Does.trans ‹_› State.predMove_does rfl
                      · assumption
                    clear_value x29
                    dsimp -zeta -iota only
                    exact Does.trans ‹_› State.dirRemove_does rfl
                  · dsimp -zeta -iota only
                    exact Does.trans ‹_› State.biSnoop_does rfl
                · extract_lets +onlyGivenNames x31
                  have h32 : Does 0x980003f8 o x31 := by
                    unfold x31
                    refine Does.foldl ?_ fun r33 x34 h35 => ?_
                    · assumption
                    · exact Does.trans (Does.trans ‹_› State.farDrop_does rfl) State.dirRemove_does rfl
                  clear_value x31
                  refine Does.ite' (fun r => Prod.snd (r)) ?_ ?_
                  · dsimp -zeta -iota only
                    exact Does.trans ‹_› State.biSnoop_does rfl
                  · refine Does.ite' (fun r => Prod.snd (r)) ?_ ?_
                    · dsimp -zeta -iota only
                      exact Does.trans ‹_› State.biSnoop_does rfl
                    · dsimp -zeta -iota only
                      assumption
            refine Does.ite' (fun r => Prod.snd (r)) ?_ ?_
            · dsimp -zeta -iota only
              assumption
            · dsimp -zeta -iota only
              exact Does.trans (Does.trans ‹_› State.homeMerge_does rfl) State.l1MarkClean_does rfl

theorem State.snoopCur_does {o a2 a3} : Does 0x900003f8 o (State.snoopCur o a2 a3).2 := by
  unfold State.snoopCur
  split
  · dsimp -zeta -iota only
    exact Does.refl
  · split
    · dsimp -zeta -iota only
      exact Does.refl
    · dsimp -zeta -iota only
      exact Does.refl
    · refine Does.ite' (fun r => Prod.snd (r)) ?_ ?_
      · dsimp -zeta -iota only
        exact Does.trans Does.refl State.farWriteBack_does rfl
      · dsimp -zeta -iota only
        exact Does.trans Does.refl State.biSnoop_does rfl

theorem State.farParity_does {o a2 a3 a4} : Does 0x4900001f8 o (State.farParity o a2 a3 a4) := by
  unfold State.farParity
  extract_lets +onlyGivenNames x1
  clear_value x1
  refine Does.ite ?_ ?_
  · refine Does.ite ?_ ?_
    · extract_lets +onlyGivenNames x2
      have h3 : Does 0x4900001f8 o x2 := by
        unfold x2
        exact Does.trans Does.refl State.sliceReport_does rfl
      clear_value x2
      exact Does.modBasin ‹_›
    · extract_lets +onlyGivenNames x4
      have h5 : Does 0x4900001f8 o x4 := by
        unfold x4
        exact Does.trans Does.refl State.sliceReport_does rfl
      clear_value x4
      exact Does.modBasin ‹_›
  · exact Does.refl

theorem State.l1Flush_does {o a2 a3 a4} : Does 0x980003f8 o (State.l1Flush o a2 a3 a4).2 := by
  unfold State.l1Flush
  refine foldl_keeps (fun r => Does 0x980003f8 o (Prod.snd (r))) ?_ fun r1 x2 h3 => ?_
  · dsimp -zeta -iota only
    exact Does.refl
  · split
    rename_i x4 x5
    refine (fun h6 : Does 0x980003f8 o x4 => ?_) (Does.named1 ?_ x5)
    rotate_left
    · exact Does.trans ‹_› State.l1WriteBack_does rfl
    dsimp -zeta -iota only
    assumption

theorem State.farWbU_does {o a2 a3} : Does 0x900003f8 o (State.farWbU o a2 a3).2 := by
  unfold State.farWbU
  extract_lets +onlyGivenNames x1
  clear_value x1
  refine Does.ite' (fun r => Prod.snd (r)) ?_ ?_
  · dsimp -zeta -iota only
    exact Does.trans Does.refl State.farWriteBack_does rfl
  · split
    rename_i x2 x3
    refine (fun h4 : Does 0x900003f8 o x2 => ?_) (Does.named1 ?_ x3)
    rotate_left
    · unfold State.recall
      split
      · dsimp -zeta -iota only
        exact Does.refl
      · split
        · dsimp -zeta -iota only
          exact Does.refl
        · refine Does.ite' (fun r => Prod.snd (r)) ?_ ?_
          · extract_lets +onlyGivenNames x5
            have h6 : Does 0x900003f8 o x5 := by
              unfold x5
              exact Does.trans (Does.trans Does.refl State.farWriteBack_does rfl) State.farDrop_does rfl
            clear_value x5
            extract_lets +onlyGivenNames x7
            have h8 : Does 0x900003f8 o x7 := by
              unfold x7
              refine Does.ite ?_ ?_
              · exact Does.trans ‹_› State.predMove_does rfl
              · assumption
            clear_value x7
            dsimp -zeta -iota only
            exact Does.trans ‹_› State.dirRemove_does rfl
          · dsimp -zeta -iota only
            exact Does.trans Does.refl State.biSnoop_does rfl
        · extract_lets +onlyGivenNames x9
          have h10 : Does 0x900003f8 o x9 := by
            unfold x9
            refine Does.foldl ?_ fun r11 x12 h13 => ?_
            · exact Does.refl
            · exact Does.trans (Does.trans ‹_› State.farDrop_does rfl) State.dirRemove_does rfl
          clear_value x9
          refine Does.ite' (fun r => Prod.snd (r)) ?_ ?_
          · dsimp -zeta -iota only
            exact Does.trans ‹_› State.biSnoop_does rfl
          · refine Does.ite' (fun r => Prod.snd (r)) ?_ ?_
            · dsimp -zeta -iota only
              exact Does.trans ‹_› State.biSnoop_does rfl
            · dsimp -zeta -iota only
              assumption
    refine Does.ite' (fun r => Prod.snd (r)) ?_ ?_
    · dsimp -zeta -iota only
      assumption
    · dsimp -zeta -iota only
      exact Does.trans ‹_› State.farWriteBack_does rfl

theorem State.farFlush_does {o a2 a3 a4} : Does 0x900003f8 o (State.farFlush o a2 a3 a4).2 := by
  unfold State.farFlush
  refine foldl_keeps (fun r => Does 0x900003f8 o (Prod.snd (r))) ?_ fun r1 x2 h3 => ?_
  · dsimp -zeta -iota only
    exact Does.refl
  · split
    rename_i x4 x5
    refine (fun h6 : Does 0x900003f8 o x4 => ?_) (Does.named1 ?_ x5)
    rotate_left
    · exact Does.trans ‹_› State.farWbU_does rfl
    dsimp -zeta -iota only
    assumption

theorem State.release_does {o a2 a3 a4} : Does 0x980003f8 o (State.release o a2 a3 a4).2 := by
  unfold State.release
  split
  rename_i x1 x2
  refine (fun h3 : Does 0x980003f8 o x1 => ?_) (Does.named1 ?_ x2)
  rotate_left
  · exact Does.trans Does.refl State.l1Flush_does rfl
  split
  rename_i x4 x5
  refine (fun h6 : Does 0x980003f8 o x4 => ?_) (Does.named1 ?_ x5)
  rotate_left
  · exact Does.trans ‹_› State.farFlush_does rfl
  dsimp -zeta -iota only
  assumption

theorem State.modCmd_does {o a2 a3 a4} : Does 0x80000 o (State.modCmd o a2 a3 a4) := by
  unfold State.modCmd
  exact Does.modLk Does.refl

theorem State.applyUpd_does {o a2} : Does 0x4900801f8 o (State.applyUpd o a2) := by
  unfold State.applyUpd
  extract_lets +onlyGivenNames x1 x2 x3
  clear_value x1 x2
  have h4 : Does 0x4900801f8 o x3 := by
    unfold x3
    refine Does.foldl ?_ fun r5 x6 h7 => ?_
    · exact Does.refl
    · extract_lets +onlyGivenNames x8
      clear_value x8
      refine Does.ite ?_ ?_
      · split
        rename_i x9 x10
        refine (fun h11 : Does 0x4900801f8 o x9 => ?_) (Does.named1 ?_ x10)
        rotate_left
        · exact Does.trans ‹_› State.homeSector_does rfl
        extract_lets +onlyGivenNames x12 x13
        clear_value x12 x13
        split
        extract_lets +onlyGivenNames x14
        have h15 : Does 0x4900801f8 o x14 := by
          unfold x14
          exact Does.trans ‹_› State.homeMerge_does rfl
        clear_value x14
        exact Does.trans ‹_› State.modCmd_does rfl
      · assumption
  clear_value x3
  refine Does.ite ?_ ?_
  · exact Does.trans ‹_› State.modCmd_does rfl
  · assumption

theorem State.attrCheck_does {o a2 a3} : Does 0x10 o (State.attrCheck o a2 a3) := by
  unfold State.attrCheck
  refine Does.ite ?_ ?_
  · exact Does.trans Does.refl State.cnt_does rfl
  · exact Does.refl

theorem State.drainOne_does {o a2 a3} : Does 0x4900809f8 o (State.drainOne o a2 a3) := by
  unfold State.drainOne
  split
  · exact Does.refl
  · exact Does.trans (Does.modBasin Does.refl) State.applyUpd_does rfl

theorem State.remoteBytes_does {o a2 a3 a4} : Does 0x10 o (State.remoteBytes o a2 a3 a4) := by
  unfold State.remoteBytes
  refine Does.ite ?_ ?_
  · exact Does.refl
  · exact Does.trans (Does.trans (Does.trans Does.refl State.cnt_does rfl) State.cnt_does rfl) State.pmc_does rfl

theorem State.drainLine_does {o a2} : Does 0x4900809f8 o (State.drainLine o a2) := by
  unfold State.drainLine
  extract_lets +onlyGivenNames x1 x2
  clear_value x1
  have h3 : Does 0x4900809f8 o x2 := by
    unfold x2
    exact Does.modBasin Does.refl
  clear_value x2
  refine Does.foldl ?_ fun r4 x5 h6 => ?_
  · assumption
  · exact Does.trans ‹_› State.applyUpd_does rfl

theorem State.homeWrite_does {o a2 a3 a4 a5 a6 a7} : Does 0x490080ff8 o (State.homeWrite o a2 a3 a4 a5 a6 a7).2.2 := by
  unfold State.homeWrite
  extract_lets +onlyGivenNames x1
  clear_value x1
  refine Does.ite' (fun r => Prod.snd (Prod.snd (r))) ?_ ?_
  · dsimp -zeta -iota only
    exact Does.refl
  · refine Does.ite' (fun r => Prod.snd (Prod.snd (r))) ?_ ?_
    · dsimp -zeta -iota only
      exact Does.refl
    · extract_lets +onlyGivenNames x2 x3
      clear_value x2
      have h4 : Does 0x490080ff8 o x3 := by
        unfold x3
        exact Does.trans (Does.trans Does.refl State.remoteBytes_does rfl) State.breakResv_does rfl
      clear_value x3
      refine Does.ite' (fun r => Prod.snd (Prod.snd (r))) ?_ ?_
      · extract_lets +onlyGivenNames x5 x6
        clear_value x5 x6
        split
        rename_i x7 x8
        refine (fun h9 : Does 0x490080ff8 o x7 => ?_) (Does.named1 ?_ x8)
        rotate_left
        · exact Does.trans ‹_› State.snoopCur_does rfl
        refine Does.ite' (fun r => Prod.snd (Prod.snd (r))) ?_ ?_
        · dsimp -zeta -iota only
          assumption
        · extract_lets +onlyGivenNames x10
          have h11 : Does 0x490080ff8 o x10 := by
            unfold x10
            refine Does.ite ?_ ?_
            · exact Does.trans ‹_› State.drainOne_does rfl
            · assumption
          clear_value x10
          extract_lets +onlyGivenNames x12
          have h13 : Does 0x490080ff8 o x12 := by
            unfold x12
            exact Does.modBasin ‹_›
          clear_value x12
          dsimp -zeta -iota only
          assumption
      · extract_lets +onlyGivenNames x14
        have h15 : Does 0x490080ff8 o x14 := by
          unfold x14
          exact Does.trans ‹_› State.drainLine_does rfl
        clear_value x14
        split
        rename_i x16 x17
        refine (fun h18 : Does 0x490080ff8 o x16 => ?_) (Does.named1 ?_ x17)
        rotate_left
        · unfold State.recall
          split
          · dsimp -zeta -iota only
            assumption
          · split
            · dsimp -zeta -iota only
              assumption
            · refine Does.ite' (fun r => Prod.snd (r)) ?_ ?_
              · extract_lets +onlyGivenNames x19
                have h20 : Does 0x490080ff8 o x19 := by
                  unfold x19
                  exact Does.trans (Does.trans ‹_› State.farWriteBack_does rfl) State.farDrop_does rfl
                clear_value x19
                extract_lets +onlyGivenNames x21
                have h22 : Does 0x490080ff8 o x21 := by
                  unfold x21
                  refine Does.ite ?_ ?_
                  · exact Does.trans ‹_› State.predMove_does rfl
                  · assumption
                clear_value x21
                dsimp -zeta -iota only
                exact Does.trans ‹_› State.dirRemove_does rfl
              · dsimp -zeta -iota only
                exact Does.trans ‹_› State.biSnoop_does rfl
            · extract_lets +onlyGivenNames x23
              have h24 : Does 0x490080ff8 o x23 := by
                unfold x23
                refine Does.foldl ?_ fun r25 x26 h27 => ?_
                · assumption
                · exact Does.trans (Does.trans ‹_› State.farDrop_does rfl) State.dirRemove_does rfl
              clear_value x23
              refine Does.ite' (fun r => Prod.snd (r)) ?_ ?_
              · dsimp -zeta -iota only
                exact Does.trans ‹_› State.biSnoop_does rfl
              · refine Does.ite' (fun r => Prod.snd (r)) ?_ ?_
                · dsimp -zeta -iota only
                  exact Does.trans ‹_› State.biSnoop_does rfl
                · dsimp -zeta -iota only
                  assumption
        refine Does.ite' (fun r => Prod.snd (Prod.snd (r))) ?_ ?_
        · dsimp -zeta -iota only
          assumption
        · dsimp -zeta -iota only
          exact Does.trans ‹_› State.homeMerge_does rfl

theorem State.homeRead_does {o a2 a3 a4 a5 a6} : Does 0x490080bf8 o (State.homeRead o a2 a3 a4 a5 a6).2 := by
  unfold State.homeRead
  extract_lets +onlyGivenNames x1
  clear_value x1
  refine Does.ite' (fun r => Prod.snd (r)) ?_ ?_
  · dsimp -zeta -iota only
    exact Does.refl
  · split
    · dsimp -zeta -iota only
      exact Does.refl
    · dsimp -zeta -iota only
      exact Does.refl
    · extract_lets +onlyGivenNames x2
      have h3 : Does 0x490080bf8 o x2 := by
        unfold x2
        exact Does.trans Does.refl State.drainLine_does rfl
      clear_value x2
      split
      rename_i x4 x5
      refine (fun h6 : Does 0x490080bf8 o x4 => ?_) (Does.named1 ?_ x5)
      rotate_left
      · exact Does.trans ‹_› State.snoopCur_does rfl
      refine Does.ite' (fun r => Prod.snd (r)) ?_ ?_
      · dsimp -zeta -iota only
        assumption
      · extract_lets +onlyGivenNames x7
        have h8 : Does 0x490080bf8 o x7 := by
          unfold x7
          exact Does.trans ‹_› State.remoteBytes_does rfl
        clear_value x7
        exact Does.trans ‹_› State.homeSector_does rfl

theorem State.farInvalidate_does {o a2 a3 a4} : Does 0x100 o (State.farInvalidate o a2 a3 a4) := by
  unfold State.farInvalidate
  extract_lets +onlyGivenNames x1 x2
  clear_value x1
  have h3 : Does 0x100 o x2 := by
    unfold x2
    exact Does.modBasin Does.refl
  clear_value x2
  exact Does.modBasin ‹_›

theorem State.l1Invalidate_does {o a2 a3 a4} : Does 0x100 o (State.l1Invalidate o a2 a3 a4) := by
  unfold State.l1Invalidate
  exact Does.modBasin Does.refl

theorem State.acquire_does {o a2 a3 a4} : Does 0x100 o (State.acquire o a2 a3 a4) := by
  unfold State.acquire
  exact Does.trans (Does.trans Does.refl State.l1Invalidate_does rfl) State.farInvalidate_does rfl

theorem State.farFill_does {o a2 a3 a4 a5} : Does 0x100 o (State.farFill o a2 a3 a4 a5) := by
  unfold State.farFill
  exact Does.modBasin Does.refl

theorem State.basinRead_does {o a2 a3 a4 a5 a6 a7} : Does 0x490080bf8 o (State.basinRead o a2 a3 a4 a5 a6 a7).2 := by
  unfold State.basinRead
  refine Does.ite' (fun r => Prod.snd (r)) ?_ ?_
  · exact Does.trans Does.refl State.homeRead_does rfl
  · extract_lets +onlyGivenNames x1
    have h2 : Does 0x490080bf8 o x1 := by
      unfold x1
      exact Does.trans Does.refl State.farParity_does rfl
    clear_value x1
    extract_lets +onlyGivenNames x3
    clear_value x3
    refine Does.ite' (fun r => Prod.snd (r)) ?_ ?_
    · extract_lets +onlyGivenNames x4
      have h5 : Does 0x490080bf8 o x4 := by
        unfold x4
        exact Does.trans ‹_› State.pmc_does rfl
      clear_value x4
      extract_lets +onlyGivenNames x6
      have h7 : Does 0x490080bf8 o x6 := by
        unfold x6
        refine Does.ite ?_ ?_
        · exact Does.trans ‹_› State.farAlloc_does rfl
        · assumption
      clear_value x6
      dsimp -zeta -iota only
      assumption
    · split
      rename_i x8 x9
      refine (fun h10 : Does 0x490080bf8 o x8 => ?_) (Does.named1 ?_ x9)
      rotate_left
      · exact Does.trans ‹_› State.homeRead_does rfl
      refine Does.ite' (fun r => Prod.snd (r)) ?_ ?_
      · dsimp -zeta -iota only
        assumption
      · extract_lets +onlyGivenNames x11 x12
        clear_value x11
        have h13 : Does 0x490080bf8 o x12 := by
          unfold x12
          refine Does.ite ?_ ?_
          · assumption
          · split
            rename_i x14 x15
            refine (fun h16 : Does 0x490080bf8 o x14 => ?_) (Does.named1 ?_ x15)
            rotate_left
            · exact Does.trans ‹_› State.farAlloc_does rfl
            refine Does.ite ?_ ?_
            · exact Does.trans ‹_› State.farFill_does rfl
            · assumption
        clear_value x12
        dsimp -zeta -iota only
        assumption

theorem State.l1Close_does {o a2} : Does 0x980003f8 o (State.l1Close o a2) := by
  unfold State.l1Close
  split
  rename_i x1 x2
  refine (fun h3 : Does 0x980003f8 o x1 => ?_) (Does.named1 ?_ x2)
  rotate_left
  · exact Does.trans Does.refl State.l1Flush_does rfl
  exact Does.trans ‹_› State.l1Invalidate_does rfl

theorem State.cleanFar_does {o a2 a3} : Does 0x900003f8 o (State.cleanFar o a2 a3) := by
  unfold State.cleanFar
  extract_lets +onlyGivenNames x1
  clear_value x1
  refine Does.foldl ?_ fun r2 x3 h4 => ?_
  · exact Does.refl
  · extract_lets +onlyGivenNames x5
    have h6 : Does 0x900003f8 o x5 := by
      unfold x5
      exact Does.trans ‹_› State.farEvict_does rfl
    clear_value x5
    exact Does.trans ‹_› State.dirRemove_does rfl

theorem writePieces_does {w : Nat} {o s : State} {f : State → Nat → List Byte → Status × Bool × State}
    {l : List (Nat × List Byte)} (h : Does w o s) (hf : ∀ r a n, Does w o r → Does w o (f r a n).2.2) :
    Does w o (writePieces f l s).2.2 := by
  induction l generalizing s with
  | nil => exact h
  | cons p t ih =>
    unfold writePieces
    split
    rename_i st b s1 e
    have k : Does w o s1 := .named2 (hf _ _ _ h) e
    exact Does.ite' (fun r => Prod.snd (Prod.snd r)) k (ih k)

theorem State.hostRead_does {o a2 a3} : Does 0x8000000 o (State.hostRead o a2 a3).2 := by
  unfold State.hostRead
  extract_lets +onlyGivenNames x1 x2 x3
  clear_value x1 x2 x3
  refine Does.ite' (fun r => Prod.snd (r)) ?_ ?_
  · dsimp -zeta -iota only
    exact Does.refl
  · extract_lets +onlyGivenNames x4 x5
    clear_value x4 x5
    refine Does.ite' (fun r => Prod.snd (r)) ?_ ?_
    · extract_lets +onlyGivenNames x6
      clear_value x6
      dsimp -zeta -iota only
      exact Does.refl
    · dsimp -zeta -iota only
      refine Does.foldl ?_ fun r7 x8 h9 => ?_
      · exact Does.refl
      · exact Does.trans ‹_› State.hostAsk_does rfl

theorem State.gaReadSec_does {o a2 a3 a4 a5 a6 a7} : Does 0x498080bf8 o (State.gaReadSec o a2 a3 a4 a5 a6 a7).2 := by
  unfold State.gaReadSec
  refine Does.ite' (fun r => Prod.snd (r)) ?_ ?_
  · exact Does.trans Does.refl State.hostRead_does rfl
  · refine Does.ite' (fun r => Prod.snd (r)) ?_ ?_
    · dsimp -zeta -iota only
      exact Does.refl
    · split
      · dsimp -zeta -iota only
        exact Does.refl
      · split
        rename_i x1 x2
        refine (fun h3 : Does 0x498080bf8 o x1 => ?_) (Does.named1 ?_ x2)
        rotate_left
        · exact Does.trans Does.refl State.basinRead_does rfl
        dsimp -zeta -iota only
        assumption

theorem State.gaWriteSec_does {o a2 a3 a4 a5 a6 a7 a8} : Does 0x498080ff8 o (State.gaWriteSec o a2 a3 a4 a5 a6 a7 a8).2.2 := by
  unfold State.gaWriteSec
  refine Does.ite' (fun r => Prod.snd (Prod.snd (r))) ?_ ?_
  · extract_lets +onlyGivenNames x1
    clear_value x1
    refine Does.ite' (fun r => Prod.snd (Prod.snd (r))) ?_ ?_
    · dsimp -zeta -iota only
      exact Does.refl
    · split
      rename_i x2 x3
      refine (fun h4 : Does 0x498080ff8 o x2 => ?_) (Does.named1 ?_ x3)
      rotate_left
      · exact Does.trans Does.refl State.hostWrite_does rfl
      dsimp -zeta -iota only
      assumption
  · refine Does.ite' (fun r => Prod.snd (Prod.snd (r))) ?_ ?_
    · dsimp -zeta -iota only
      exact Does.refl
    · split
      · dsimp -zeta -iota only
        exact Does.refl
      · exact Does.trans Does.refl State.homeWrite_does rfl

theorem State.paWrite_does {o a2 a3 a4} : Does 0x498080ff8 o (State.paWrite o a2 a3 a4).2.2 := by
  unfold State.paWrite
  refine writePieces_does ?_ fun y1 y2 y3 y4 => ?_
  · exact Does.refl
  · exact Does.trans ‹_› State.gaWriteSec_does rfl

theorem State.modBerth_does {o a2 a3} : Does 0x100000 o (State.modBerth o a2 a3) := by
  unfold State.modBerth
  exact Does.modBth Does.refl

theorem readPieces_does {w : Nat} {o s : State} {f : State → Nat → Nat → Rd × State} {l : List (Nat × Nat)} (h : Does w o s)
    (hf : ∀ r a n, Does w o r → Does w o (f r a n).2) : Does w o (readPieces f l s).2 := by
  induction l generalizing s with
  | nil => exact h
  | cons p t ih =>
    unfold readPieces
    split
    rename_i r s1 e
    have k : Does w o s1 := .named1 (hf _ _ _ h) e
    refine Does.ite' (fun r => Prod.snd r) k ?_
    split
    rename_i q s2 e2
    exact .named1 (ih k) e2

theorem State.paRead_does {o a2 a3 a4} : Does 0x498080bf8 o (State.paRead o a2 a3 a4).2 := by
  unfold State.paRead
  refine readPieces_does ?_ fun y1 y2 y3 y4 => ?_
  · exact Does.refl
  · exact Does.trans ‹_› State.gaReadSec_does rfl

theorem State.tlbDrop_does {o a2 a3} : Does 0x100000 o (State.tlbDrop o a2 a3) := by
  unfold State.tlbDrop
  exact Does.modBth Does.refl

theorem State.mapEntry_does {o a2} : Does 0x4900001f8 o (State.mapEntry o a2).2 := by
  unfold State.mapEntry
  refine Does.ite' (fun r => Prod.snd (r)) ?_ ?_
  · split
    rename_i x1 x2
    refine (fun h3 : Does 0x4900001f8 o x1 => ?_) (Does.named1 ?_ x2)
    rotate_left
    · exact Does.trans Does.refl State.homeSector_does rfl
    dsimp -zeta -iota only
    assumption
  · dsimp -zeta -iota only
    exact Does.refl

theorem State.walk_does {a1 o a3 a4 a5} : Does 0x4900001f8 o (State.walk a1 o a3 a4 a5).2 := by
  induction a1 generalizing o a3 a4 a5
  · unfold State.walk
    dsimp -zeta -iota only
    exact Does.refl
  · rename_i ih
    unfold State.walk
    split
    rename_i x1 x2
    refine (fun h3 : Does 0x4900001f8 o x1 => ?_) (Does.named1 ?_ x2)
    rotate_left
    · exact Does.trans Does.refl State.mapEntry_does rfl
    split
    · dsimp -zeta -iota only
      assumption
    · dsimp -zeta -iota only
      assumption
    · exact Does.trans ‹_› (ih ..) rfl

theorem State.translate_does {o a2 a3 a4 a5 a6} : Does 0x4981001f8 o (State.translate o a2 a3 a4 a5 a6).2 := by
  unfold State.translate
  refine Does.ite' (fun r => Prod.snd (r)) ?_ ?_
  · refine Does.ite' (fun r => Prod.snd (r)) ?_ ?_
    · dsimp -zeta -iota only
      exact Does.refl
    · dsimp -zeta -iota only
      exact Does.refl
  · refine Does.ite' (fun r => Prod.snd (r)) ?_ ?_
    · dsimp -zeta -iota only
      exact Does.refl
    · split
      · refine Does.ite' (fun r => Prod.snd (r)) ?_ ?_
        · dsimp -zeta -iota only
          exact Does.refl
        · refine Does.ite' (fun r => Prod.snd (r)) ?_ ?_
          · extract_lets +onlyGivenNames x1
            clear_value x1
            split
            · refine Does.ite' (fun r => Prod.snd (r)) ?_ ?_
              · dsimp -zeta -iota only
                exact Does.refl
              · dsimp -zeta -iota only
                exact Does.refl
            · dsimp -zeta -iota only
              exact Does.trans Does.refl State.modPort_does rfl
          · refine Does.ite' (fun r => Prod.snd (r)) ?_ ?_
            · dsimp -zeta -iota only
              exact Does.refl
            · dsimp -zeta -iota only
              exact Does.refl
      · extract_lets +onlyGivenNames x2 x3
        clear_value x2 x3
        split
        · dsimp -zeta -iota only
          exact Does.refl
        · split
          · rename_i x4 x5
            refine (fun h6 : Does 0x4981001f8 o x4 => ?_) (Does.named1 ?_ x5)
            rotate_left
            · exact Does.trans Does.refl State.walk_does rfl
            dsimp -zeta -iota only
            assumption
          · rename_i x7 x8
            refine (fun h9 : Does 0x4981001f8 o x7 => ?_) (Does.named1 ?_ x8)
            rotate_left
            · exact Does.trans Does.refl State.walk_does rfl
            dsimp -zeta -iota only
            exact Does.modBth ‹_›

theorem State.vaRead_does {o a2 a3 a4} : Does 0x498180bf8 o (State.vaRead o a2 a3 a4).2 := by
  unfold State.vaRead
  refine readPieces_does ?_ fun y1 y2 y3 y4 => ?_
  · exact Does.refl
  · split
    · rename_i x6 x7
      refine (fun h8 : Does 0x498180bf8 o x6 => ?_) (Does.named1 ?_ x7)
      rotate_left
      · exact Does.trans ‹_› State.translate_does rfl
      exact Does.trans ‹_› State.gaReadSec_does rfl
    · rename_i x9 x10
      refine (fun h11 : Does 0x498180bf8 o x9 => ?_) (Does.named1 ?_ x10)
      rotate_left
      · exact Does.trans ‹_› State.translate_does rfl
      dsimp -zeta -iota only
      assumption
    · rename_i x12 x13
      refine (fun h14 : Does 0x498180bf8 o x12 => ?_) (Does.named1 ?_ x13)
      rotate_left
      · exact Does.trans ‹_› State.translate_does rfl
      dsimp -zeta -iota only
      assumption

theorem State.vaWrite_does {o a2 a3 a4} : Does 0x498180ff8 o (State.vaWrite o a2 a3 a4).2.2 := by
  unfold State.vaWrite
  refine writePieces_does ?_ fun y1 y2 y3 y4 => ?_
  · exact Does.refl
  · split
    · rename_i x6 x7
      refine (fun h8 : Does 0x498180ff8 o x6 => ?_) (Does.named1 ?_ x7)
      rotate_left
      · exact Does.trans ‹_› State.translate_does rfl
      exact Does.trans ‹_› State.gaWriteSec_does rfl
    · rename_i x9 x10
      refine (fun h11 : Does 0x498180ff8 o x9 => ?_) (Does.named1 ?_ x10)
      rotate_left
      · exact Does.trans ‹_› State.translate_does rfl
      dsimp -zeta -iota only
      assumption
    · rename_i x12 x13
      refine (fun h14 : Does 0x498180ff8 o x12 => ?_) (Does.named1 ?_ x13)
      rotate_left
      · exact Does.trans ‹_› State.translate_does rfl
      dsimp -zeta -iota only
      assumption

theorem State.trace_does {o a2 a3} : Does 0x200000000 o (State.trace o a2 a3) := by
  unfold State.trace
  split
  · exact Does.refl
  · refine Does.ite ?_ ?_
    · exact Does.refl
    · extract_lets +onlyGivenNames x1 x2 x3 x4
      clear_value x1 x2 x3 x4
      exact Does.modRel Does.refl

theorem State.traceDrain_does {o a2} : Does 0x698180ff8 o (State.traceDrain o a2) := by
  unfold State.traceDrain
  split
  · exact Does.refl
  · refine Does.ite ?_ ?_
    · exact Does.refl
    · extract_lets +onlyGivenNames x1
      clear_value x1
      split
      rename_i x2 x3
      refine (fun h4 : Does 0x698180ff8 o x2 => ?_) (Does.named1 ?_ x3)
      rotate_left
      · refine foldl_keeps (fun r => Does 0x698180ff8 o (Prod.snd (r))) ?_ fun r5 x6 h7 => ?_
        · dsimp -zeta -iota only
          exact Does.refl
        · refine Does.ite' (fun r => Prod.snd (r)) ?_ ?_
          · assumption
          · extract_lets +onlyGivenNames x8
            clear_value x8
            split
            rename_i x9 x10
            refine (fun h11 : Does 0x698180ff8 o x9 => ?_) (Does.named2 ?_ x10)
            rotate_left
            · exact Does.trans ‹_› State.vaWrite_does rfl
            dsimp -zeta -iota only
            assumption
      split
      rename_i x12 x13
      refine (fun h14 : Does 0x698180ff8 o x12 => ?_) (Does.named2 ?_ x13)
      rotate_left
      · exact Does.trans ‹_› State.vaWrite_does rfl
      extract_lets +onlyGivenNames x15
      clear_value x15
      exact Does.modRel ‹_›

end Sys2Proof.Machine
end

