-- ==== Sys2Proof/Laws/DoesFabric.lean ====
section
/-! SUPPORT. What each operation can do, once per operation (commands, failures, holds, directories, cut and Erhar operations). Read `Does w o t` in Laws/Does.lean. -/

set_option Elab.async false

namespace Sys2Proof.Machine

theorem State.countIssue_does {o a2 a3} : Does 0x80010 o (State.countIssue o a2 a3) := by
  unfold State.countIssue
  extract_lets +onlyGivenNames x1
  have h2 : Does 0x80010 o x1 := by
    unfold x1
    exact Does.trans (Does.trans Does.refl State.cnt_does rfl) State.pmc_does rfl
  clear_value x1
  exact Does.trans ‹_› State.modCmd_does rfl

theorem State.evalWaits_does {o a2 a3 a4} : Does 0x80000 o (State.evalWaits o a2 a3 a4) := by
  unfold State.evalWaits
  exact Does.modLk Does.refl

theorem State.modCtx_does {o a2 a3} : Does 0x40000 o (State.modCtx o a2 a3) := by
  unfold State.modCtx
  exact Does.modLk Does.refl

theorem State.addCtr_does {o a2 a3 a4} : Does 0xc0000 o (State.addCtr o a2 a3 a4) := by
  unfold State.addCtr
  split
  · exact Does.refl
  · extract_lets +onlyGivenNames x1
    clear_value x1
    exact Does.trans (Does.trans Does.refl State.modCtx_does rfl) State.evalWaits_does rfl

theorem State.stopWork_does {o a2 a3} : Does 0xb6000 o (State.stopWork o a2 a3) := by
  unfold State.stopWork
  extract_lets +onlyGivenNames x1 x2 x3
  clear_value x1 x2
  have h4 : Does 0xb6000 o x3 := by
    unfold x3
    exact Does.modThr Does.refl
  clear_value x3
  extract_lets +onlyGivenNames x5
  have h6 : Does 0xb6000 o x5 := by
    unfold x5
    exact Does.modLk ‹_›
  clear_value x5
  exact Does.modEng ‹_›

theorem State.failCmd_does {o a2 a3 a4} : Does 0xb6000 o (State.failCmd o a2 a3 a4) := by
  unfold State.failCmd
  split
  · exact Does.refl
  · refine Does.ite ?_ ?_
    · exact Does.refl
    · extract_lets +onlyGivenNames x1
      have h2 : Does 0xb6000 o x1 := by
        unfold x1
        exact Does.trans Does.refl State.stopWork_does rfl
      clear_value x1
      exact Does.trans ‹_› State.modCmd_does rfl

theorem State.modThread_does {o a2 a3} : Does 0x10000 o (State.modThread o a2 a3) := by
  unfold State.modThread
  exact Does.modThr Does.refl

theorem State.handlerFault_does {o a2 a3 a4} : Does 0x1b6000 o (State.handlerFault o a2 a3 a4) := by
  unfold State.handlerFault
  split
  · exact Does.refl
  · extract_lets +onlyGivenNames x1
    have h2 : Does 0x1b6000 o x1 := by
      unfold x1
      refine Does.foldl ?_ fun r3 x4 h5 => ?_
      · exact Does.refl
      · exact Does.trans ‹_› State.failCmd_does rfl
    clear_value x1
    extract_lets +onlyGivenNames x6
    have h7 : Does 0x1b6000 o x6 := by
      unfold x6
      exact Does.trans ‹_› State.modBerth_does rfl
    clear_value x6
    exact Does.trans ‹_› State.modThread_does rfl

theorem State.traceFault_does {o a2 a3 a4 a5 a6 a7 a8} : Does 0x200000000 o (State.traceFault o a2 a3 a4 a5 a6 a7 a8) := by
  unfold State.traceFault
  exact Does.trans Does.refl State.trace_does rfl

theorem State.queueFault_does {o a2 a3} : Does 0x20498190ff8 o (State.queueFault o a2 a3) := by
  unfold State.queueFault
  extract_lets +onlyGivenNames x1 x2
  clear_value x1
  have h3 : Does 0x20498190ff8 o x2 := by
    unfold x2
    exact Does.drawn Does.refl
  clear_value x2
  split
  · assumption
  · extract_lets +onlyGivenNames x4 x5
    clear_value x4
    have h6 : Does 0x20498190ff8 o x5 := by
      unfold x5
      exact Does.trans ‹_› State.modBerth_does rfl
    clear_value x5
    extract_lets +onlyGivenNames x7
    have h8 : Does 0x20498190ff8 o x7 := by
      unfold x7
      refine Does.ite ?_ ?_
      · assumption
      · exact Does.trans ‹_› State.vaWrite_does rfl
    clear_value x7
    split
    · exact Does.trans ‹_› State.modThread_does rfl
    · assumption

theorem State.raise_does {o a2 a3 a4 a5} : Does 0x206981b6ff8 o (State.raise o a2 a3 a4 a5) := by
  unfold State.raise
  split
  · exact Does.refl
  · refine Does.ite ?_ ?_
    · exact Does.trans Does.refl State.handlerFault_does rfl
    · extract_lets +onlyGivenNames x1
      have h2 : Does 0x206981b6ff8 o x1 := by
        unfold x1
        exact Does.trans Does.refl State.traceFault_does rfl
      clear_value x1
      extract_lets +onlyGivenNames x3
      clear_value x3
      refine Does.ite ?_ ?_
      · extract_lets +onlyGivenNames x4
        have h5 : Does 0x206981b6ff8 o x4 := by
          unfold x4
          exact Does.trans ‹_› State.queueFault_does rfl
        clear_value x4
        exact Does.trans ‹_› State.modThread_does rfl
      · exact Does.trans ‹_› State.failCmd_does rfl

theorem State.raiseC_does {o a2 a3 a4} : Does 0x206981b6ff8 o (State.raiseC o a2 a3 a4) := by
  unfold State.raiseC
  exact Does.trans Does.refl State.raise_does rfl

theorem State.modAccount_does {o a2 a3} : Does 0x100000 o (State.modAccount o a2 a3) := by
  unfold State.modAccount
  refine Does.ite ?_ ?_
  · exact Does.modBth Does.refl
  · exact Does.trans Does.refl State.modBerth_does rfl

theorem State.endTicket_does {o a2 a3 a4 a5} : Does 0x20000 o (State.endTicket o a2 a3 a4 a5) := by
  unfold State.endTicket
  exact Does.modThr Does.refl

theorem State.replayCmd_does {o a2 a3 a4 a5} : Does 0xb6000 o (State.replayCmd o a2 a3 a4 a5) := by
  unfold State.replayCmd
  split
  · exact Does.refl
  · refine Does.ite ?_ ?_
    · exact Does.refl
    · refine Does.ite ?_ ?_
      · exact Does.trans Does.refl State.failCmd_does rfl
      · extract_lets +onlyGivenNames x1
        have h2 : Does 0xb6000 o x1 := by
          unfold x1
          exact Does.trans Does.refl State.stopWork_does rfl
        clear_value x1
        exact Does.trans ‹_› State.modCmd_does rfl

theorem State.asyncFault_does {o a2 a3 a4 a5 a6 a7 a8 a9} : Does 0x206981b6ff8 o (State.asyncFault o a2 a3 a4 a5 a6 a7 a8 a9) := by
  unfold State.asyncFault
  split
  · exact Does.refl
  · extract_lets +onlyGivenNames x1
    have h2 : Does 0x206981b6ff8 o x1 := by
      unfold x1
      exact Does.trans Does.refl State.traceFault_does rfl
    clear_value x1
    refine Does.ite ?_ ?_
    · exact Does.trans ‹_› State.replayCmd_does rfl
    · refine Does.ite ?_ ?_
      · exact Does.trans ‹_› State.queueFault_does rfl
      · exact Does.trans ‹_› State.failCmd_does rfl

theorem State.closeTicket_does {o a2 a3 a4 a5 a6 a7 a8 a9 a10} : Does 0x206981b6ff8 o (State.closeTicket o a2 a3 a4 a5 a6 a7 a8 a9 a10) := by
  unfold State.closeTicket
  extract_lets +onlyGivenNames x1
  have h2 : Does 0x206981b6ff8 o x1 := by
    unfold x1
    exact Does.trans Does.refl State.endTicket_does rfl
  clear_value x1
  refine Does.ite ?_ ?_
  · assumption
  · exact Does.trans ‹_› State.asyncFault_does rfl

theorem State.raiseSt_does {o a2 a3 a4} : Does 0x206981b6ff8 o (State.raiseSt o a2 a3 a4) := by
  unfold State.raiseSt
  split
  · exact Does.refl
  · extract_lets +onlyGivenNames x1
    clear_value x1
    refine Does.ite ?_ ?_
    · exact Does.trans Does.refl State.replayCmd_does rfl
    · refine Does.ite ?_ ?_
      · exact Does.trans Does.refl State.failCmd_does rfl
      · refine Does.ite ?_ ?_
        · exact Does.trans Does.refl State.raise_does rfl
        · refine Does.ite ?_ ?_
          · exact Does.trans (Does.trans Does.refl State.cnt_does rfl) State.raise_does rfl
          · exact Does.trans Does.refl State.raise_does rfl

theorem State.issueTicket_does {o a2 a3 a4} : Does 0x30000 o (State.issueTicket o a2 a3 a4).2 := by
  unfold State.issueTicket
  extract_lets +onlyGivenNames x1 x2
  clear_value x1
  have h3 : Does 0x30000 o x2 := by
    unfold x2
    exact Does.modThr Does.refl
  clear_value x2
  dsimp -zeta -iota only
  exact Does.trans ‹_› State.modThread_does rfl

theorem State.effSet_does {o a2} : Does 0x10 o (State.effSet o a2) := by
  unfold State.effSet
  exact Does.trans (Does.trans Does.refl State.setRfld_does rfl) State.setRfld_does rfl

theorem State.dieEdge_does {o a2} : Does 0x2 o (State.dieEdge o a2) := by
  unfold State.dieEdge
  extract_lets +onlyGivenNames x1 x2 x3 x4
  clear_value x1 x2 x3 x4
  exact Does.modClk Does.refl

theorem State.droopStep_does {o a2} : Does 0x1000000010 o (State.droopStep o a2) := by
  unfold State.droopStep
  split
  · exact Does.refl
  · refine Does.ite ?_ ?_
    · exact Does.refl
    · extract_lets +onlyGivenNames x1 x2 x3
      clear_value x1 x2
      have h4 : Does 0x1000000010 o x3 := by
        unfold x3
        exact Does.modPwr Does.refl
      clear_value x3
      exact Does.trans ‹_› State.effSet_does rfl

theorem State.rampStep_does {o a2} : Does 0x1000000010 o (State.rampStep o a2) := by
  unfold State.rampStep
  split
  · exact Does.refl
  · refine Does.ite ?_ ?_
    · exact Does.refl
    · extract_lets +onlyGivenNames x1 x2 x3
      clear_value x1
      have h4 : Does 0x1000000010 o x3 := by
        unfold x3
        exact Does.modPwr Does.refl
      clear_value x3
      exact Does.trans ‹_› State.effSet_does rfl

theorem State.tick_does {o} : Does 0x14900809fa o (State.tick o) := by
  unfold State.tick
  refine Does.ite ?_ ?_
  · exact Does.refl
  · extract_lets +onlyGivenNames x1
    have h2 : Does 0x14900809fa o x1 := by
      unfold x1
      exact Does.modClk Does.refl
    clear_value x1
    extract_lets +onlyGivenNames x3
    have h4 : Does 0x14900809fa o x3 := by
      unfold x3
      refine Does.ite ?_ ?_
      · assumption
      · refine Does.foldl ?_ fun r5 x6 h7 => ?_
        · assumption
        · exact Does.trans ‹_› State.dieEdge_does rfl
    clear_value x3
    extract_lets +onlyGivenNames x8
    have h9 : Does 0x14900809fa o x8 := by
      unfold x8
      refine Does.foldl ?_ fun r10 x11 h12 => ?_
      · assumption
      · exact Does.trans ‹_› State.rampStep_does rfl
    clear_value x8
    extract_lets +onlyGivenNames x13
    have h14 : Does 0x14900809fa o x13 := by
      unfold x13
      refine Does.foldl ?_ fun r15 x16 h17 => ?_
      · assumption
      · exact Does.trans ‹_› State.droopStep_does rfl
    clear_value x13
    split
    · assumption
    · exact Does.trans ‹_› State.drainOne_does rfl

theorem State.setUnitPos_does {o a2 a3 a4 a5} : Does 0x10 o (State.setUnitPos o a2 a3 a4 a5) := by
  unfold State.setUnitPos
  refine Does.ite ?_ ?_
  · exact Does.trans Does.refl State.setRfld_does rfl
  · exact Does.trans Does.refl State.setRfld_does rfl

theorem State.regrade_does {o a2 a3} : Does 0x10 o (State.regrade o a2 a3) := by
  unfold State.regrade
  extract_lets +onlyGivenNames x1 x2 x3
  clear_value x1 x2 x3
  split
  extract_lets +onlyGivenNames x4
  unfold x4
  exact Does.trans (Does.trans (Does.trans (Does.trans Does.refl State.setRfld_does rfl) State.setRfld_does rfl) State.setRfld_does rfl)
      State.setRfld_does rfl

theorem State.retireUnit_does {o a2 a3 a4} : Does 0x4000b6018 o (State.retireUnit o a2 a3 a4) := by
  unfold State.retireUnit
  extract_lets +onlyGivenNames x1
  clear_value x1
  split
  · exact Does.refl
  · extract_lets +onlyGivenNames x2
    have h3 : Does 0x4000b6018 o x2 := by
      unfold x2
      exact Does.modRel Does.refl
    clear_value x2
    split
    · extract_lets +onlyGivenNames x4
      have h5 : Does 0x4000b6018 o x4 := by
        unfold x4
        exact Does.modRel ‹_›
      clear_value x4
      refine Does.ite ?_ ?_
      · exact Does.modThr ‹_›
      · assumption
    · extract_lets +onlyGivenNames x6
      have h7 : Does 0x4000b6018 o x6 := by
        unfold x6
        exact Does.trans ‹_› State.setUnitPos_does rfl
      clear_value x6
      extract_lets +onlyGivenNames x8
      have h9 : Does 0x4000b6018 o x8 := by
        unfold x8
        refine Does.ite ?_ ?_
        · assumption
        · exact Does.trans ‹_› State.regrade_does rfl
      clear_value x8
      extract_lets +onlyGivenNames x10 x11
      clear_value x10
      have h12 : Does 0x4000b6018 o x11 := by
        unfold x11
        refine Does.foldl ?_ fun r13 x14 h15 => ?_
        · assumption
        · exact Does.trans ‹_› State.failCmd_does rfl
      clear_value x11
      exact Does.trans ‹_› State.askRepair_does rfl

theorem State.detectUnit_does {o a2 a3 a4 a5 a6} : Does 0x4900b6018 o (State.detectUnit o a2 a3 a4 a5 a6) := by
  unfold State.detectUnit
  extract_lets +onlyGivenNames x1
  clear_value x1
  split
  rename_i x2 _ x3
  refine (fun h4 : Does 0x4900b6018 o x2 => ?_) (Does.named1st ?_ x3)
  rotate_left
  · exact Does.trans Does.refl State.tally_does rfl
  extract_lets +onlyGivenNames x5 x6 x7 x8 x9
  clear_value x5 x6 x7 x8
  have h10 : Does 0x4900b6018 o x9 := by
    unfold x9
    exact Does.trans ‹_› State.sign_does rfl
  clear_value x9
  refine Does.ite ?_ ?_
  · extract_lets +onlyGivenNames x11
    have h12 : Does 0x4900b6018 o x11 := by
      unfold x11
      exact Does.trans ‹_› State.sign_does rfl
    clear_value x11
    split
    · exact Does.trans ‹_› State.retireUnit_does rfl
    · exact Does.modRel ‹_›
  · assumption

theorem State.signSlot_does {o a2 a3 a4 a5} : Does 0x90000010 o (State.signSlot o a2 a3 a4 a5) := by
  unfold State.signSlot
  extract_lets +onlyGivenNames x1 x2
  clear_value x1 x2
  exact Does.trans Does.refl State.sign_does rfl

theorem State.detectDie_does {o a2 a3 a4} : Does 0x90000018 o (State.detectDie o a2 a3 a4) := by
  unfold State.detectDie
  extract_lets +onlyGivenNames x1
  clear_value x1
  split
  rename_i x2 _ x3
  refine (fun h4 : Does 0x90000018 o x2 => ?_) (Does.named1st ?_ x3)
  rotate_left
  · exact Does.trans Does.refl State.tally_does rfl
  extract_lets +onlyGivenNames x5 x6 x7
  clear_value x5 x6
  have h8 : Does 0x90000018 o x7 := by
    unfold x7
    exact Does.trans ‹_› State.sign_does rfl
  clear_value x7
  refine Does.ite ?_ ?_
  · exact Does.trans (Does.trans ‹_› State.sign_does rfl) State.askRepair_does rfl
  · assumption

theorem State.tallySlot_does {o a2 a3 a4 a5} : Does 0x4900b6018 o (State.tallySlot o a2 a3 a4 a5) := by
  unfold State.tallySlot
  extract_lets +onlyGivenNames x1
  clear_value x1
  split
  rename_i x2 _ x3
  refine (fun h4 : Does 0x4900b6018 o x2 => ?_) (Does.named1st ?_ x3)
  rotate_left
  · exact Does.trans Does.refl State.tally_does rfl
  refine Does.ite ?_ ?_
  · extract_lets +onlyGivenNames x5 x6 x7
    clear_value x5 x6
    have h8 : Does 0x4900b6018 o x7 := by
      unfold x7
      exact Does.trans ‹_› State.sign_does rfl
    clear_value x7
    split
    · exact Does.trans ‹_› State.retireUnit_does rfl
    · exact Does.modRel ‹_›
  · assumption

theorem State.holdZero_does {o a2 a3} : Does 0x1000 o (State.holdZero o a2 a3) := by
  unfold State.holdZero
  exact Does.modEng Does.refl

theorem State.holdParity_does {o a2 a3 a4} : Does 0x4900b6018 o (State.holdParity o a2 a3 a4) := by
  unfold State.holdParity
  exact Does.trans Does.refl State.detectUnit_does rfl

theorem State.setSide_does {o a2 a3 a4} : Does 0x1000 o (State.setSide o a2 a3 a4) := by
  unfold State.setSide
  exact Does.modEng Does.refl

theorem State.holdPut_does {o a2 a3 a4 a5 a6} : Does 0x3000 o (State.holdPut o a2 a3 a4 a5 a6) := by
  unfold State.holdPut
  extract_lets +onlyGivenNames x1 x2 x3
  clear_value x1
  have h4 : Does 0x3000 o x3 := by
    unfold x3
    exact Does.modEng Does.refl
  clear_value x3
  exact Does.trans ‹_› State.setSide_does rfl

theorem State.holdWrite_does {o a2 a3 a4 a5} : Does 0x3000 o (State.holdWrite o a2 a3 a4 a5) := by
  unfold State.holdWrite
  refine Does.foldl ?_ fun r1 x2 h3 => ?_
  · exact Does.refl
  · extract_lets +onlyGivenNames x4 x5
    clear_value x4 x5
    exact Does.trans ‹_› State.holdPut_does rfl

theorem State.holdSpent_does {o a2 a3 a4} : Does 0x1000 o (State.holdSpent o a2 a3 a4) := by
  unfold State.holdSpent
  extract_lets +onlyGivenNames x1
  clear_value x1
  exact Does.trans Does.refl State.setSide_does rfl

theorem State.homeLine_does {o a2 a3 a4} : Does 0x4900001f8 o (State.homeLine o a2 a3 a4).2.2 := by
  unfold State.homeLine
  refine foldl_keeps (fun r => Does 0x4900001f8 o (Prod.snd (Prod.snd (r)))) ?_ fun r1 x2 h3 => ?_
  · dsimp -zeta -iota only
    exact Does.refl
  · extract_lets +onlyGivenNames x4
    clear_value x4
    split
    rename_i x5 x6
    refine (fun h7 : Does 0x4900001f8 o x5 => ?_) (Does.named1 ?_ x6)
    rotate_left
    · exact Does.trans ‹_› State.homeSector_does rfl
    dsimp -zeta -iota only
    assumption

theorem State.errTo_does {o a2 a3 a4} : Does 0x200 o (State.errTo o a2 a3 a4) := by
  unfold State.errTo
  exact Does.trans Does.refl State.send_does rfl

theorem State.queueStarve_does {o a2 a3} : Does 0x200 o (State.queueStarve o a2 a3) := by
  unfold State.queueStarve
  extract_lets +onlyGivenNames x1 x2
  clear_value x1 x2
  refine Does.ite ?_ ?_
  · exact Does.refl
  · exact Does.modBasin Does.refl

theorem State.nackTo_does {o a2 a3} : Does 0x200 o (State.nackTo o a2 a3) := by
  unfold State.nackTo
  exact Does.trans Does.refl State.send_does rfl

theorem State.gate_does {o a2 a3 a4 a5} : OptDoes 0x200 o (fun r => r) (State.gate o a2 a3 a4 a5) := by
  unfold State.gate
  extract_lets +onlyGivenNames x1
  clear_value x1
  split
  · exact OptDoes.some (Does.trans Does.refl State.errTo_does rfl)
  · exact OptDoes.some (Does.trans Does.refl State.errTo_does rfl)
  · extract_lets +onlyGivenNames x2
    have h3 : Does 0x200 o x2 := by
      unfold x2
      refine Does.ite ?_ ?_
      · exact Does.trans Does.refl State.queueStarve_does rfl
      · exact Does.refl
    clear_value x2
    extract_lets +onlyGivenNames x4
    clear_value x4
    refine OptDoes.ite ?_ ?_
    · exact OptDoes.some (Does.trans ‹_› State.nackTo_does rfl)
    · exact OptDoes.none

theorem State.putDir_does {o a2 a3} : Does 0x300 o (State.putDir o a2 a3) := by
  unfold State.putDir
  exact Does.modBasin Does.refl

theorem State.startFwd_does {o a2 a3 a4 a5 a6 a7 a8} : Does 0x300 o (State.startFwd o a2 a3 a4 a5 a6 a7 a8) := by
  unfold State.startFwd
  extract_lets +onlyGivenNames x1 x2 x3
  clear_value x1 x2
  have h4 : Does 0x300 o x3 := by
    unfold x3
    exact Does.trans Does.refl State.send_does rfl
  clear_value x3
  exact Does.trans ‹_› State.putDir_does rfl

theorem State.startInv_does {o a2 a3 a4 a5 a6} : Does 0x300 o (State.startInv o a2 a3 a4 a5 a6) := by
  unfold State.startInv
  extract_lets +onlyGivenNames x1
  have h2 : Does 0x300 o x1 := by
    unfold x1
    refine Does.foldl ?_ fun r3 x4 h5 => ?_
    · exact Does.refl
    · exact Does.trans ‹_› State.send_does rfl
  clear_value x1
  exact Does.trans ‹_› State.putDir_does rfl

theorem State.dirRoom_does {o a2} : Does 0x300 o (State.dirRoom o a2).2 := by
  unfold State.dirRoom
  extract_lets +onlyGivenNames x1
  clear_value x1
  refine Does.ite' (fun r => Prod.snd (r)) ?_ ?_
  · dsimp -zeta -iota only
    exact Does.refl
  · extract_lets +onlyGivenNames x2
    clear_value x2
    split
    · dsimp -zeta -iota only
      exact Does.refl
    · split
      · dsimp -zeta -iota only
        exact Does.trans Does.refl State.startFwd_does rfl
      · dsimp -zeta -iota only
        exact Does.trans Does.refl State.startInv_does rfl

theorem State.unstarve_does {o a2 a3} : Does 0x200 o (State.unstarve o a2 a3) := by
  unfold State.unstarve
  extract_lets +onlyGivenNames x1
  clear_value x1
  exact Does.modBasin Does.refl

theorem State.grantS_does {o a2 a3 a4 a5} : Does 0x300 o (State.grantS o a2 a3 a4 a5) := by
  unfold State.grantS
  exact Does.trans (Does.trans Does.refl State.putDir_does rfl) State.unstarve_does rfl

theorem State.sendData_does {o a2 a3 a4 a5} : Does 0x490080bf8 o (State.sendData o a2 a3 a4 a5) := by
  unfold State.sendData
  split
  rename_i x1 x2
  refine (fun h3 : Does 0x490080bf8 o x1 => ?_) (Does.named2 ?_ x2)
  rotate_left
  · exact Does.trans (Does.trans Does.refl State.drainLine_does rfl) State.homeLine_does rfl
  exact Does.trans ‹_› State.send_does rfl

theorem State.homeRdS_does {o a2 a3 a4 a5} : Does 0x490080bf8 o (State.homeRdS o a2 a3 a4 a5) := by
  unfold State.homeRdS
  split
  · rename_i x1 x2
    refine (fun h3 : Does 0x490080bf8 o x1 => ?_) (Does.opt0 ?_ x2)
    rotate_left
    · exact OptDoes.after Does.refl State.gate_does rfl
    assumption
  · extract_lets +onlyGivenNames x4
    have h5 : Does 0x490080bf8 o x4 := by
      unfold x4
      exact Does.trans Does.refl State.attrCheck_does rfl
    clear_value x4
    split
    · split
      rename_i x6 x7
      refine (fun h8 : Does 0x490080bf8 o x6 => ?_) (Does.named1 ?_ x7)
      rotate_left
      · exact Does.trans ‹_› State.dirRoom_does rfl
      refine Does.ite ?_ ?_
      · exact Does.trans (Does.trans ‹_› State.sendData_does rfl) State.grantS_does rfl
      · exact Does.trans ‹_› State.nackTo_does rfl
    · split
      · refine Does.ite ?_ ?_
        · exact Does.trans ‹_› State.sendData_does rfl
        · exact Does.trans ‹_› State.startFwd_does rfl
      · exact Does.trans (Does.trans ‹_› State.sendData_does rfl) State.grantS_does rfl

theorem State.serveInv_does {o a2 a3} : Does 0x300 o (State.serveInv o a2 a3) := by
  unfold State.serveInv
  extract_lets +onlyGivenNames x1
  have h2 : Does 0x300 o x1 := by
    unfold x1
    exact Does.trans Does.refl State.farDrop_does rfl
  clear_value x1
  exact Does.trans ‹_› State.send_does rfl

theorem State.dirRebuild_does {o a2} : Does 0x310 o (State.dirRebuild o a2) := by
  unfold State.dirRebuild
  extract_lets +onlyGivenNames x1 x2 x3
  clear_value x1 x2
  have h4 : Does 0x310 o x3 := by
    unfold x3
    exact Does.trans Does.refl State.cnt_does rfl
  clear_value x3
  extract_lets +onlyGivenNames x5
  have h6 : Does 0x310 o x5 := by
    unfold x5
    split
    · refine Does.ite ?_ ?_
      · exact Does.trans ‹_› State.nackTo_does rfl
      · assumption
    · assumption
  clear_value x5
  extract_lets +onlyGivenNames x7
  have h8 : Does 0x310 o x7 := by
    unfold x7
    refine Does.foldl ?_ fun r9 x10 h11 => ?_
    · assumption
    · exact Does.trans ‹_› State.send_does rfl
  clear_value x7
  exact Does.trans ‹_› State.startInv_does rfl

theorem State.setOwned_does {o a2 a3 a4} : Does 0x100 o (State.setOwned o a2 a3 a4) := by
  unfold State.setOwned
  exact Does.modBasin Does.refl

theorem State.farMarkClean_does {o a2 a3} : Does 0x100 o (State.farMarkClean o a2 a3) := by
  unfold State.farMarkClean
  exact Does.modBasin Does.refl

theorem State.grantX_does {o a2 a3 a4} : Does 0x700 o (State.grantX o a2 a3 a4) := by
  unfold State.grantX
  extract_lets +onlyGivenNames x1
  clear_value x1
  exact Does.trans (Does.trans (Does.trans Does.refl State.breakResv_does rfl) State.putDir_does rfl) State.unstarve_does rfl

theorem State.mergeLine_does {o a2 a3 a4} : Does 0x900001f8 o (State.mergeLine o a2 a3 a4) := by
  unfold State.mergeLine
  refine Does.foldl ?_ fun r1 x2 h3 => ?_
  · exact Does.refl
  · extract_lets +onlyGivenNames x4
    clear_value x4
    refine Does.ite ?_ ?_
    · assumption
    · exact Does.trans ‹_› State.homeMerge_does rfl

theorem State.endTxn_does {o a2 a3 a4 a5 a6} : Does 0x490080ff8 o (State.endTxn o a2 a3 a4 a5 a6) := by
  unfold State.endTxn
  extract_lets +onlyGivenNames x1
  clear_value x1
  split
  · extract_lets +onlyGivenNames x2
    have h3 : Does 0x490080ff8 o x2 := by
      unfold x2
      refine Does.ite ?_ ?_
      · exact Does.refl
      · exact Does.trans Does.refl State.sendData_does rfl
    clear_value x2
    exact Does.trans ‹_› State.grantS_does rfl
  · refine Does.trans ?_ State.grantX_does rfl
    refine Does.ite ?_ ?_
    · exact Does.refl
    · exact Does.trans Does.refl State.sendData_does rfl
  · exact Does.trans (Does.trans Does.refl State.send_does rfl) State.grantX_does rfl
  · refine Does.ite ?_ ?_
    · exact Does.trans Does.refl State.putDir_does rfl
    · exact Does.modBasin Does.refl

theorem State.homeWb_does {o a2 a3 a4 a5 a6} : Does 0x490080ff8 o (State.homeWb o a2 a3 a4 a5 a6) := by
  unfold State.homeWb
  extract_lets +onlyGivenNames x1
  have h2 : Does 0x490080ff8 o x1 := by
    unfold x1
    exact Does.trans Does.refl State.mergeLine_does rfl
  clear_value x1
  extract_lets +onlyGivenNames x3
  have h4 : Does 0x490080ff8 o x3 := by
    unfold x3
    exact Does.trans ‹_› State.send_does rfl
  clear_value x3
  split
  · assumption
  · split
    · refine Does.ite ?_ ?_
      · exact Does.trans ‹_› State.dirRemove_does rfl
      · assumption
    · extract_lets +onlyGivenNames x5
      refine Does.ite ?_ ?_
      · exact Does.trans ‹_› State.endTxn_does rfl
      · exact Does.trans ‹_› State.putDir_does rfl
    · assumption

theorem State.answer_does {o a2 a3 a4 a5 a6 a7} : Does 0x490080ff8 o (State.answer o a2 a3 a4 a5 a6 a7) := by
  unfold State.answer
  extract_lets +onlyGivenNames x1
  have h2 : Does 0x490080ff8 o x1 := by
    unfold x1
    exact Does.trans Does.refl State.mergeLine_does rfl
  clear_value x1
  split
  · assumption
  · split
    · refine Does.ite ?_ ?_
      · assumption
      · extract_lets +onlyGivenNames x3
        refine Does.ite ?_ ?_
        · exact Does.trans ‹_› State.endTxn_does rfl
        · exact Does.trans ‹_› State.putDir_does rfl
    · assumption

theorem State.install_does {o a2 a3 a4} : Does 0x900003f8 o (State.install o a2 a3 a4).2 := by
  unfold State.install
  split
  rename_i x1 x2
  refine (fun h3 : Does 0x900003f8 o x1 => ?_) (Does.named1 ?_ x2)
  rotate_left
  · exact Does.trans Does.refl State.farAlloc_does rfl
  extract_lets +onlyGivenNames x4
  clear_value x4
  dsimp -zeta -iota only
  exact Does.modBasin ‹_›

theorem State.nearSeen_does {o a2 a3} : Does 0x300 o (State.nearSeen o a2 a3) := by
  unfold State.nearSeen
  extract_lets +onlyGivenNames x1 x2 x3 x4
  clear_value x1 x2 x3
  have h5 : Does 0x300 o x4 := by
    unfold x4
    split
    · exact Does.trans Does.refl State.predMove_does rfl
    · exact Does.refl
  clear_value x4
  exact Does.modBasin ‹_›

theorem State.nearAtomic_does {o a2 a3 a4 a5 a6 a7 a8} : Does 0x490080ff8 o (State.nearAtomic o a2 a3 a4 a5 a6 a7 a8).2.2.2 := by
  unfold State.nearAtomic
  extract_lets +onlyGivenNames x1 x2
  clear_value x1 x2
  refine Does.ite' (fun r => Prod.snd (Prod.snd (Prod.snd (r)))) ?_ ?_
  · dsimp -zeta -iota only
    exact Does.refl
  · split
    · dsimp -zeta -iota only
      exact Does.refl
    · dsimp -zeta -iota only
      exact Does.refl
    · extract_lets +onlyGivenNames x3
      have h4 : Does 0x490080ff8 o x3 := by
        unfold x3
        exact Does.trans Does.refl State.drainLine_does rfl
      clear_value x3
      split
      rename_i x5 x6
      refine (fun h7 : Does 0x490080ff8 o x5 => ?_) (Does.named1 ?_ x6)
      rotate_left
      · refine Does.ite' (fun r => Prod.snd (r)) ?_ ?_
        · unfold State.recall
          split
          · dsimp -zeta -iota only
            assumption
          · split
            · dsimp -zeta -iota only
              assumption
            · refine Does.ite' (fun r => Prod.snd (r)) ?_ ?_
              · extract_lets +onlyGivenNames x8
                have h9 : Does 0x490080ff8 o x8 := by
                  unfold x8
                  exact Does.trans (Does.trans ‹_› State.farWriteBack_does rfl) State.farDrop_does rfl
                clear_value x8
                extract_lets +onlyGivenNames x10
                have h11 : Does 0x490080ff8 o x10 := by
                  unfold x10
                  refine Does.ite ?_ ?_
                  · exact Does.trans ‹_› State.predMove_does rfl
                  · assumption
                clear_value x10
                dsimp -zeta -iota only
                exact Does.trans ‹_› State.dirRemove_does rfl
              · dsimp -zeta -iota only
                exact Does.trans ‹_› State.biSnoop_does rfl
            · extract_lets +onlyGivenNames x12
              have h13 : Does 0x490080ff8 o x12 := by
                unfold x12
                refine Does.foldl ?_ fun r14 x15 h16 => ?_
                · assumption
                · exact Does.trans (Does.trans ‹_› State.farDrop_does rfl) State.dirRemove_does rfl
              clear_value x12
              refine Does.ite' (fun r => Prod.snd (r)) ?_ ?_
              · dsimp -zeta -iota only
                exact Does.trans ‹_› State.biSnoop_does rfl
              · refine Does.ite' (fun r => Prod.snd (r)) ?_ ?_
                · dsimp -zeta -iota only
                  exact Does.trans ‹_› State.biSnoop_does rfl
                · dsimp -zeta -iota only
                  assumption
        · exact Does.trans ‹_› State.snoopCur_does rfl
      refine Does.ite' (fun r => Prod.snd (Prod.snd (Prod.snd (r)))) ?_ ?_
      · dsimp -zeta -iota only
        assumption
      · extract_lets +onlyGivenNames x17
        have h18 : Does 0x490080ff8 o x17 := by
          unfold x17
          exact Does.trans (Does.trans ‹_› State.remoteBytes_does rfl) State.breakResv_does rfl
        clear_value x17
        extract_lets +onlyGivenNames x19
        have h20 : Does 0x490080ff8 o x19 := by
          unfold x19
          refine Does.ite ?_ ?_
          · exact Does.trans ‹_› State.nearSeen_does rfl
          · assumption
        clear_value x19
        split
        rename_i x21 x22
        refine (fun h23 : Does 0x490080ff8 o x21 => ?_) (Does.named1 ?_ x22)
        rotate_left
        · exact Does.trans ‹_› State.homeSector_does rfl
        refine Does.ite' (fun r => Prod.snd (Prod.snd (Prod.snd (r)))) ?_ ?_
        · dsimp -zeta -iota only
          assumption
        · refine Does.ite' (fun r => Prod.snd (Prod.snd (Prod.snd (r)))) ?_ ?_
          · dsimp -zeta -iota only
            assumption
          · extract_lets +onlyGivenNames x24 x25 x26
            clear_value x24 x25
            have h27 : Does 0x490080ff8 o x26 := by
              unfold x26
              exact Does.trans (Does.trans ‹_› State.homeMerge_does rfl) State.pmc_does rfl
            clear_value x26
            dsimp -zeta -iota only
            assumption

theorem State.dropPend_does {o a2 a3} : Does 0x210 o (State.dropPend o a2 a3) := by
  unfold State.dropPend
  extract_lets +onlyGivenNames x1
  have h2 : Does 0x210 o x1 := by
    unfold x1
    split
    · refine Does.ite ?_ ?_
      · exact Does.trans Does.refl State.cnt_does rfl
      · exact Does.refl
    · exact Does.refl
  clear_value x1
  exact Does.modBasin ‹_›

theorem State.homeRdX_does {o a2 a3 a4 a5 a6} : Does 0x490080ff8 o (State.homeRdX o a2 a3 a4 a5 a6) := by
  unfold State.homeRdX
  split
  · rename_i x1 x2
    refine (fun h3 : Does 0x490080ff8 o x1 => ?_) (Does.opt0 ?_ x2)
    rotate_left
    · exact OptDoes.after Does.refl State.gate_does rfl
    assumption
  · extract_lets +onlyGivenNames x4
    have h5 : Does 0x490080ff8 o x4 := by
      unfold x4
      exact Does.trans Does.refl State.attrCheck_does rfl
    clear_value x4
    split
    · split
      rename_i x6 x7
      refine (fun h8 : Does 0x490080ff8 o x6 => ?_) (Does.named1 ?_ x7)
      rotate_left
      · exact Does.trans ‹_› State.dirRoom_does rfl
      refine Does.ite ?_ ?_
      · exact Does.trans (Does.trans ‹_› State.sendData_does rfl) State.grantX_does rfl
      · exact Does.trans ‹_› State.nackTo_does rfl
    · split
      · refine Does.ite ?_ ?_
        · exact Does.trans ‹_› State.sendData_does rfl
        · extract_lets +onlyGivenNames x9
          have h10 : Does 0x490080ff8 o x9 := by
            unfold x9
            refine Does.ite ?_ ?_
            · exact Does.trans ‹_› State.predMove_does rfl
            · assumption
          clear_value x9
          exact Does.trans ‹_› State.startFwd_does rfl
      · extract_lets +onlyGivenNames x11 x12
        clear_value x11 x12
        refine Does.ite ?_ ?_
        · extract_lets +onlyGivenNames x13
          have h14 : Does 0x490080ff8 o x13 := by
            unfold x13
            refine Does.ite ?_ ?_
            · exact Does.trans ‹_› State.send_does rfl
            · exact Does.trans ‹_› State.sendData_does rfl
          clear_value x13
          exact Does.trans ‹_› State.grantX_does rfl
        · exact Does.trans ‹_› State.startInv_does rfl

theorem State.serveFwd_does {o a2 a3} : Does 0x300 o (State.serveFwd o a2 a3) := by
  unfold State.serveFwd
  extract_lets +onlyGivenNames x1
  clear_value x1
  split
  extract_lets +onlyGivenNames x2 x3 x4
  clear_value x2 x3 x4
  refine Does.ite ?_ ?_
  · exact Does.trans Does.refl State.send_does rfl
  · split
    · extract_lets +onlyGivenNames x5 x6
      clear_value x5
      have h7 : Does 0x300 o x6 := by
        unfold x6
        exact Does.trans Does.refl State.send_does rfl
      clear_value x6
      exact Does.trans (Does.trans (Does.trans ‹_› State.farMarkClean_does rfl) State.setOwned_does rfl) State.send_does rfl
    · refine Does.ite ?_ ?_
      · exact Does.trans (Does.trans Does.refl State.farDrop_does rfl) State.send_does rfl
      · extract_lets +onlyGivenNames x8 x9
        clear_value x8
        have h10 : Does 0x300 o x9 := by
          unfold x9
          exact Does.trans Does.refl State.send_does rfl
        clear_value x9
        exact Does.trans (Does.trans ‹_› State.farDrop_does rfl) State.send_does rfl
    · exact Does.trans (Does.trans Does.refl State.farMarkClean_does rfl) State.send_does rfl

theorem State.serveHeld_does {o a2 a3} : Does 0x300 o (State.serveHeld o a2 a3) := by
  unfold State.serveHeld
  refine Does.foldl ?_ fun r1 x2 h3 => ?_
  · exact Does.refl
  · refine Does.ite ?_ ?_
    · exact Does.trans ‹_› State.serveInv_does rfl
    · exact Does.trans ‹_› State.serveFwd_does rfl

theorem State.dropMsg_does {o a2} : Does 0x200 o (State.dropMsg o a2) := by
  unfold State.dropMsg
  exact Does.modBasin Does.refl

theorem State.modPend_does {o a2 a3 a4} : Does 0x200 o (State.modPend o a2 a3 a4) := by
  unfold State.modPend
  exact Does.modBasin Does.refl

theorem State.modCutPort_does {o a2 a3 a4} : Does 0x800000 o (State.modCutPort o a2 a3 a4) := by
  unfold State.modCutPort
  exact Does.modCut Does.refl

theorem State.cutTx1_does {o a2 a3} : Does 0x800000 o (State.cutTx1 o a2 a3) := by
  unfold State.cutTx1
  extract_lets +onlyGivenNames x1 x2 x3
  clear_value x1 x2 x3
  refine Does.ite ?_ ?_
  · exact Does.refl
  · split
    · exact Does.refl
    · exact Does.trans Does.refl State.modCutPort_does rfl

theorem State.cutTx_does {o a2 a3} : Does 0x800000 o (State.cutTx o a2 a3) := by
  unfold State.cutTx
  refine Does.foldl ?_ fun r1 x2 h3 => ?_
  · exact Does.refl
  · exact Does.trans ‹_› State.cutTx1_does rfl

theorem State.cutSend_does {o a2 a3 a4} : Does 0x800000 o (State.cutSend o a2 a3 a4) := by
  unfold State.cutSend
  extract_lets +onlyGivenNames x1 x2 x3 x4 x5 x6
  clear_value x1 x2 x3 x4 x5 x6
  exact Does.trans (Does.trans Does.refl State.modCutPort_does rfl) State.cutTx_does rfl

theorem State.uncertain_does {o a2 a3} : Does 0xb6310 o (State.uncertain o a2 a3) := by
  unfold State.uncertain
  extract_lets +onlyGivenNames x1
  have h2 : Does 0xb6310 o x1 := by
    unfold x1
    refine Does.ite ?_ ?_
    · exact Does.trans Does.refl State.cnt_does rfl
    · exact Does.refl
  clear_value x1
  extract_lets +onlyGivenNames x3 x4 x5 x6
  clear_value x3 x4 x5
  have h7 : Does 0xb6310 o x6 := by
    unfold x6
    split
    · exact Does.trans ‹_› State.replayCmd_does rfl
    · assumption
  clear_value x6
  refine Does.ite ?_ ?_
  · exact Does.trans ‹_› State.dirRebuild_does rfl
  · assumption

theorem State.cutSideDown_does {o a2 a3 a4} : Does 0x1908b6310 o (State.cutSideDown o a2 a3 a4) := by
  unfold State.cutSideDown
  extract_lets +onlyGivenNames x1 x2
  clear_value x1
  have h3 : Does 0x1908b6310 o x2 := by
    unfold x2
    exact Does.setReg Does.refl
  clear_value x2
  extract_lets +onlyGivenNames x4
  have h5 : Does 0x1908b6310 o x4 := by
    unfold x4
    exact Does.trans ‹_› State.modCutPort_does rfl
  clear_value x4
  extract_lets +onlyGivenNames x6 x7 x8
  clear_value x6 x7
  have h9 : Does 0x1908b6310 o x8 := by
    unfold x8
    refine Does.foldl ?_ fun r10 x11 h12 => ?_
    · assumption
    · split
      · exact Does.trans ‹_› State.cutSend_does rfl
      · assumption
  clear_value x8
  extract_lets +onlyGivenNames x13
  have h14 : Does 0x1908b6310 o x13 := by
    unfold x13
    refine Does.foldl ?_ fun r15 x16 h17 => ?_
    · assumption
    · exact Does.trans ‹_› State.uncertain_does rfl
  clear_value x13
  extract_lets +onlyGivenNames x18
  have h19 : Does 0x1908b6310 o x18 := by
    unfold x18
    exact Does.trans ‹_› State.event_does rfl
  clear_value x18
  refine Does.ite ?_ ?_
  · assumption
  · exact Does.trans ‹_› State.sign_does rfl

theorem State.cutDown_does {o a2 a3 a4} : Does 0x1908b6310 o (State.cutDown o a2 a3 a4) := by
  unfold State.cutDown
  extract_lets +onlyGivenNames x1 x2
  clear_value x1
  have h3 : Does 0x1908b6310 o x2 := by
    unfold x2
    exact Does.trans Does.refl State.cutSideDown_does rfl
  clear_value x2
  split
  · refine Does.ite ?_ ?_
    · assumption
    · exact Does.trans ‹_› State.cutSideDown_does rfl
  · assumption

theorem State.cutForceW_does {o a2 a3 a4} : Does 0x1908b6310 o (State.cutForceW o a2 a3 a4) := by
  unfold State.cutForceW
  extract_lets +onlyGivenNames x1
  have h2 : Does 0x1908b6310 o x1 := by
    unfold x1
    exact Does.trans Does.refl State.setRbit_does rfl
  clear_value x1
  refine Does.ite ?_ ?_
  · exact Does.trans ‹_› State.cutDown_does rfl
  · assumption

theorem State.cutStart_does {o a2 a3} : Does 0x800010 o (State.cutStart o a2 a3) := by
  unfold State.cutStart
  extract_lets +onlyGivenNames x1 x2 x3
  clear_value x1 x2
  have h4 : Does 0x800010 o x3 := by
    unfold x3
    exact Does.setReg Does.refl
  clear_value x3
  extract_lets +onlyGivenNames x5 x6
  clear_value x5
  have h7 : Does 0x800010 o x6 := by
    unfold x6
    exact Does.trans ‹_› State.modCutPort_does rfl
  clear_value x6
  split
  · refine Does.ite ?_ ?_
    · exact Does.trans ‹_› State.setRfld_does rfl
    · assumption
  · assumption

theorem State.cutRetrainW_does {o a2 a3} : Does 0x800010 o (State.cutRetrainW o a2 a3) := by
  unfold State.cutRetrainW
  refine Does.ite ?_ ?_
  · exact Does.refl
  · exact Does.trans Does.refl State.cutStart_does rfl

theorem State.class6_does {o} : Does 0x20000000000 o (State.class6 o).2 := by
  unfold State.class6
  dsimp -zeta -iota only
  exact Does.drawn Does.refl

theorem State.cutRestoreW_does {o a2 a3} : Does 0x800010 o (State.cutRestoreW o a2 a3) := by
  unfold State.cutRestoreW
  refine Does.ite ?_ ?_
  · exact Does.trans Does.refl State.cutStart_does rfl
  · exact Does.refl

theorem State.modErhPort_does {o a2 a3} : Does 0x1000000 o (State.modErhPort o a2 a3) := by
  unfold State.modErhPort
  exact Does.modErh Does.refl

theorem State.erhStart_does {o a2} : Does 0x1000010 o (State.erhStart o a2) := by
  unfold State.erhStart
  extract_lets +onlyGivenNames x1 x2 x3
  clear_value x1 x2
  have h4 : Does 0x1000010 o x3 := by
    unfold x3
    exact Does.setReg Does.refl
  clear_value x3
  extract_lets +onlyGivenNames x5
  clear_value x5
  exact Does.trans ‹_› State.modErhPort_does rfl

theorem State.erhRestoreW_does {o a2} : Does 0x81000010 o (State.erhRestoreW o a2) := by
  unfold State.erhRestoreW
  refine Does.ite ?_ ?_
  · exact Does.trans (Does.modRel Does.refl) State.erhStart_does rfl
  · exact Does.refl

theorem State.erhTx1_does {o a2} : Does 0x1000010 o (State.erhTx1 o a2) := by
  unfold State.erhTx1
  extract_lets +onlyGivenNames x1 x2
  clear_value x1 x2
  refine Does.ite ?_ ?_
  · exact Does.refl
  · split
    · exact Does.refl
    · extract_lets +onlyGivenNames x3
      have h4 : Does 0x1000010 o x3 := by
        unfold x3
        exact Does.trans Does.refl State.gcnt_does rfl
      clear_value x3
      exact Does.trans ‹_› State.modErhPort_does rfl

theorem State.erhTx_does {o a2} : Does 0x1000010 o (State.erhTx o a2) := by
  unfold State.erhTx
  refine Does.foldl ?_ fun r1 x2 h3 => ?_
  · exact Does.refl
  · exact Does.trans ‹_› State.erhTx1_does rfl

theorem State.erhSend_does {o a2 a3} : Does 0x1000010 o (State.erhSend o a2 a3) := by
  unfold State.erhSend
  extract_lets +onlyGivenNames x1
  have h2 : Does 0x1000010 o x1 := by
    unfold x1
    refine Does.ite ?_ ?_
    · exact Does.refl
    · exact Does.modErh Does.refl
  clear_value x1
  exact Does.trans (Does.trans ‹_› State.modErhPort_does rfl) State.erhTx_does rfl

theorem State.erhInject_does {o a2} : Does 0x1000010 o (State.erhInject o a2).2 := by
  unfold State.erhInject
  extract_lets +onlyGivenNames x1
  clear_value x1
  split
  · dsimp -zeta -iota only
    exact Does.trans Does.refl State.erhSend_does rfl
  · dsimp -zeta -iota only
    exact Does.refl

theorem State.failAccess_does {o a2 a3 a4 a5} : Does 0x206981b6ff8 o (State.failAccess o a2 a3 a4 a5) := by
  unfold State.failAccess
  split
  · refine Does.ite ?_ ?_
    · exact Does.trans (Does.trans Does.refl State.modThread_does rfl) State.raiseSt_does rfl
    · exact Does.refl
  · exact Does.refl

theorem State.openFail_does {o a2 a3} : Does 0x206991b6ff8 o (State.openFail o a2 a3) := by
  unfold State.openFail
  extract_lets +onlyGivenNames x1
  have h2 : Does 0x206991b6ff8 o x1 := by
    unfold x1
    exact Does.modErh Does.refl
  clear_value x1
  split
  · split
    · split
      · refine Does.ite ?_ ?_
        · exact Does.trans ‹_› State.failAccess_does rfl
        · exact Does.trans ‹_› State.asyncFault_does rfl
      · exact Does.trans ‹_› State.asyncFault_does rfl
    · exact Does.trans ‹_› State.asyncFault_does rfl
  · exact Does.modEng ‹_›
  · exact Does.trans ‹_› State.failAccess_does rfl

theorem State.erhOpenOp_does {o a2 a3} : Does 0x206991b6ff8 o (State.erhOpenOp o a2 a3) := by
  unfold State.erhOpenOp
  extract_lets +onlyGivenNames x1 x2
  clear_value x1
  have h3 : Does 0x206991b6ff8 o x2 := by
    unfold x2
    exact Does.modErh Does.refl
  clear_value x2
  extract_lets +onlyGivenNames x4
  have h5 : Does 0x206991b6ff8 o x4 := by
    unfold x4
    exact Does.trans ‹_› State.modCmd_does rfl
  clear_value x4
  split
  · rename_i x6 x7
    refine (fun h8 : Does 0x206991b6ff8 o x6 => ?_) (Does.named1 ?_ x7)
    rotate_left
    · exact Does.trans ‹_› State.erhInject_does rfl
    exact Does.modErh ‹_›
  · rename_i x9 x10
    refine (fun h11 : Does 0x206991b6ff8 o x9 => ?_) (Does.named1 ?_ x10)
    rotate_left
    · exact Does.trans ‹_› State.erhInject_does rfl
    exact Does.trans ‹_› State.openFail_does rfl

theorem State.erhPut_does {o a2 a3 a4 a5 a6 a7 a8 a9 a10} : Does 0x206991b6ff8 o (State.erhPut o a2 a3 a4 a5 a6 a7 a8 a9 a10) := by
  unfold State.erhPut
  extract_lets +onlyGivenNames x1 x2
  clear_value x1
  have h3 : Does 0x206991b6ff8 o x2 := by
    unfold x2
    exact Does.trans Does.refl State.farDrop_does rfl
  clear_value x2
  extract_lets +onlyGivenNames x4 x5
  clear_value x4 x5
  exact Does.trans ‹_› State.erhOpenOp_does rfl

theorem State.collDone_does {o a2 a3 a4 a5 a6 a7} : Does 0x30c0000 o (State.collDone o a2 a3 a4 a5 a6 a7) := by
  unfold State.collDone
  extract_lets +onlyGivenNames x1
  have h2 : Does 0x30c0000 o x1 := by
    unfold x1
    exact Does.modErh Does.refl
  clear_value x1
  split
  · exact Does.trans ‹_› State.addCtr_does rfl
  · assumption

theorem State.collFail_does {o a2 a3 a4 a5} : Does 0x30c0010 o (State.collFail o a2 a3 a4 a5) := by
  unfold State.collFail
  extract_lets +onlyGivenNames x1 x2
  clear_value x1
  have h3 : Does 0x30c0010 o x2 := by
    unfold x2
    refine Does.foldl ?_ fun r4 x5 h6 => ?_
    · exact Does.refl
    · exact Does.trans ‹_› State.erhInject_does rfl
  clear_value x2
  exact Does.trans ‹_› State.collDone_does rfl

theorem State.erhAtomic_does {o a2 a3 a4 a5 a6 a7 a8 a9 a10 a11 a12 a13} : Does 0x206991b6ff8 o (State.erhAtomic o a2 a3 a4 a5 a6 a7 a8 a9 a10 a11 a12 a13) := by
  unfold State.erhAtomic
  extract_lets +onlyGivenNames x1
  have h2 : Does 0x206991b6ff8 o x1 := by
    unfold x1
    exact Does.trans Does.refl State.farDrop_does rfl
  clear_value x1
  exact Does.trans ‹_› State.erhOpenOp_does rfl

theorem State.gotClear_does {o a2 a3} : Does 0x1000000 o (State.gotClear o a2 a3) := by
  unfold State.gotClear
  exact Does.modErh Does.refl

theorem State.erhPortEvent_does {o a2 a3 a4} : Does 0x190000010 o (State.erhPortEvent o a2 a3 a4) := by
  unfold State.erhPortEvent
  extract_lets +onlyGivenNames x1 x2
  clear_value x1 x2
  refine Does.ite ?_ ?_
  · exact Does.trans Does.refl State.sign_does rfl
  · exact Does.trans (Does.trans Does.refl State.event_does rfl) State.cxlEvent_does rfl

theorem State.erhPortOff_does {o a2 a3 a4} : Does 0x2079b1f6ff8 o (State.erhPortOff o a2 a3 a4) := by
  unfold State.erhPortOff
  extract_lets +onlyGivenNames x1 x2 x3
  clear_value x1 x2
  have h4 : Does 0x2079b1f6ff8 o x3 := by
    unfold x3
    exact Does.setReg Does.refl
  clear_value x3
  extract_lets +onlyGivenNames x5
  have h6 : Does 0x2079b1f6ff8 o x5 := by
    unfold x5
    exact Does.trans ‹_› State.modErhPort_does rfl
  clear_value x5
  extract_lets +onlyGivenNames x7 x8 x9
  clear_value x7 x8
  have h10 : Does 0x2079b1f6ff8 o x9 := by
    unfold x9
    refine Does.foldl ?_ fun r11 x12 h13 => ?_
    · assumption
    · split
      · exact Does.trans ‹_› State.erhSend_does rfl
      · assumption
  clear_value x9
  extract_lets +onlyGivenNames x14 x15
  clear_value x14
  have h16 : Does 0x2079b1f6ff8 o x15 := by
    unfold x15
    refine Does.foldl ?_ fun r17 x18 h19 => ?_
    · assumption
    · extract_lets +onlyGivenNames x20
      have h21 : Does 0x2079b1f6ff8 o x20 := by
        unfold x20
        exact Does.trans ‹_› State.gcnt_does rfl
      clear_value x20
      refine Does.ite ?_ ?_
      · split
        · refine Does.ite ?_ ?_
          · exact Does.trans ‹_› State.collFail_does rfl
          · assumption
        · assumption
      · refine Does.ite ?_ ?_
        · split
          · exact Does.trans (Does.trans ‹_› State.replayCmd_does rfl) State.openFail_does rfl
          · assumption
        · assumption
  clear_value x15
  extract_lets +onlyGivenNames x22
  have h23 : Does 0x2079b1f6ff8 o x22 := by
    unfold x22
    exact Does.trans ‹_› State.erhPortEvent_does rfl
  clear_value x22
  refine Does.ite ?_ ?_
  · assumption
  · exact Does.trans ‹_› State.erhPortEvent_does rfl

theorem State.erhForceW_does {o a2 a3} : Does 0x2079b1f6ff8 o (State.erhForceW o a2 a3) := by
  unfold State.erhForceW
  extract_lets +onlyGivenNames x1
  have h2 : Does 0x2079b1f6ff8 o x1 := by
    unfold x1
    exact Does.trans Does.refl State.setRbit_does rfl
  clear_value x1
  refine Does.ite ?_ ?_
  · exact Does.trans ‹_› State.erhPortOff_does rfl
  · assumption

theorem State.erhRetrainW_does {o a2} : Does 0x1000010 o (State.erhRetrainW o a2) := by
  unfold State.erhRetrainW
  refine Does.ite ?_ ?_
  · exact Does.refl
  · exact Does.trans Does.refl State.erhStart_does rfl

theorem State.erhGet_does {o a2 a3 a4 a5 a6 a7 a8 a9 a10} : Does 0x206991b6ff8 o (State.erhGet o a2 a3 a4 a5 a6 a7 a8 a9 a10) := by
  unfold State.erhGet
  exact Does.trans Does.refl State.erhOpenOp_does rfl

theorem State.gotPut_does {o a2 a3 a4 a5} : Does 0x1000000 o (State.gotPut o a2 a3 a4 a5) := by
  unfold State.gotPut
  exact Does.modErh Does.refl

end Sys2Proof.Machine
end

