-- ==== Sys2Proof/Laws/DoesThread.lean ====
section
/-! SUPPORT. What each operation can do, once per operation (register space, thread memory, barges, thread instructions). Read `Does w o t` in Laws/Does.lean. -/

set_option Elab.async false

namespace Sys2Proof.Machine

theorem State.modPage_does {o a2 a3} : Does 0x20000000 o (State.modPage o a2 a3) := by
  unfold State.modPage
  exact Does.modMbx Does.refl

theorem State.winRefused_does {o a2} : Does 0x100000 o (State.winRefused o a2) := by
  unfold State.winRefused
  exact Does.modBth Does.refl

theorem State.mbWrite_does {o a2 a3 a4} : Does 0x20000000 o (State.mbWrite o a2 a3 a4) := by
  unfold State.mbWrite
  exact Does.trans Does.refl State.modPage_does rfl

theorem State.winWrite1_does {o a2 a3 a4} : Does 0x20100000 o (State.winWrite1 o a2 a3 a4) := by
  unfold State.winWrite1
  refine Does.ite ?_ ?_
  · refine Does.ite ?_ ?_
    · exact Does.trans Does.refl State.winRefused_does rfl
    · refine Does.ite ?_ ?_
      · exact Does.trans Does.refl State.winRefused_does rfl
      · exact Does.trans Does.refl State.mbWrite_does rfl
  · refine Does.ite ?_ ?_
    · exact Does.refl
    · exact Does.trans Does.refl State.winRefused_does rfl

theorem State.quotaApply_does {o a2 a3 a4} : Does 0x810 o (State.quotaApply o a2 a3 a4) := by
  unfold State.quotaApply
  extract_lets +onlyGivenNames x1
  have h2 : Does 0x810 o x1 := by
    unfold x1
    exact Does.modBasin Does.refl
  clear_value x1
  exact Does.trans ‹_› State.setRfld_does rfl

theorem State.debugRead_does {o a2 a3 a4 a5} : Does 0x100000010 o (State.debugRead o a2 a3 a4 a5).2 := by
  unfold State.debugRead
  split
  · dsimp -zeta -iota only
    exact Does.refl
  · extract_lets +onlyGivenNames x1
    clear_value x1
    refine Does.ite' (fun r => Prod.snd (r)) ?_ ?_
    · dsimp -zeta -iota only
      exact Does.trans Does.refl State.event_does rfl
    · dsimp -zeta -iota only
      exact Does.refl

theorem State.ignore_does {o a2 a3 a4 a5 a6 a7} : Does 0x100000010 o (State.ignore o a2 a3 a4 a5 a6 a7) := by
  unfold State.ignore
  exact Does.trans Does.refl State.ignored_does rfl

theorem State.finWrite_does {o a2 a3 a4} : Does 0x100008010 o (State.finWrite o a2 a3 a4) := by
  unfold State.finWrite
  refine Does.ite ?_ ?_
  · exact Does.trans Does.refl State.ignore_does rfl
  · exact Does.modEng Does.refl

theorem State.finApply_does {o a2 a3} : Does 0x8000008010 o (State.finApply o a2 a3) := by
  unfold State.finApply
  extract_lets +onlyGivenNames x1 x2
  clear_value x1
  have h3 : Does 0x8000008010 o x2 := by
    unfold x2
    exact Does.modEng Does.refl
  clear_value x2
  extract_lets +onlyGivenNames x4
  have h5 : Does 0x8000008010 o x4 := by
    unfold x4
    exact Does.modSec ‹_›
  clear_value x4
  exact Does.setReg ‹_›

theorem State.finCommit_does {o a2} : Does 0x8000008010 o (State.finCommit o a2) := by
  unfold State.finCommit
  extract_lets +onlyGivenNames x1
  clear_value x1
  refine Does.ite ?_ ?_
  · exact Does.trans (Does.modEng Does.refl) State.setRbit_does rfl
  · exact Does.trans Does.refl State.finApply_does rfl

theorem State.spentPoisonWrite_does {o a2 a3 a4 a5} : Does 0x2010 o (State.spentPoisonWrite o a2 a3 a4 a5) := by
  unfold State.spentPoisonWrite
  refine Does.ite ?_ ?_
  · exact Does.modEng Does.refl
  · exact Does.trans (Does.modEng Does.refl) State.setRbit_does rfl

theorem State.injectWrite_does {o a2 a3 a4} : Does 0x10 o (State.injectWrite o a2 a3 a4) := by
  unfold State.injectWrite
  refine Does.ite ?_ ?_
  · exact Does.refl
  · exact Does.trans Does.refl State.setRfld_does rfl

theorem State.ecoWrite_does {o a2 a3 a4} : Does 0x10 o (State.ecoWrite o a2 a3 a4) := by
  unfold State.ecoWrite
  exact Does.setReg Does.refl

theorem State.clkCommit_does {o a2} : Does 0x1100000010 o (State.clkCommit o a2) := by
  unfold State.clkCommit
  extract_lets +onlyGivenNames x1 x2 x3
  clear_value x1 x2 x3
  refine Does.ite ?_ ?_
  · extract_lets +onlyGivenNames x4 x5
    clear_value x4
    have h6 : Does 0x1100000010 o x5 := by
      unfold x5
      exact Does.modPwr Does.refl
    clear_value x5
    exact Does.trans (Does.setReg ‹_›) State.effSet_does rfl
  · exact Does.trans Does.refl State.ignore_does rfl

theorem State.drainSlices_does {o a2 a3} : Does 0x4900809f8 o (State.drainSlices o a2 a3) := by
  unfold State.drainSlices
  refine Does.foldl ?_ fun r1 x2 h3 => ?_
  · exact Does.refl
  · exact Does.trans ‹_› State.drainLine_does rfl

theorem State.maintWrite_does {o a2 a3 a4 a5} : Does 0x590080bf8 o (State.maintWrite o a2 a3 a4 a5) := by
  unfold State.maintWrite
  extract_lets +onlyGivenNames x1
  clear_value x1
  refine Does.ite ?_ ?_
  · exact Does.refl
  · refine Does.ite ?_ ?_
    · exact Does.trans Does.refl State.ignore_does rfl
    · refine Does.ite ?_ ?_
      · exact Does.refl
      · extract_lets +onlyGivenNames x2
        have h3 : Does 0x590080bf8 o x2 := by
          unfold x2
          refine Does.ite ?_ ?_
          · exact Does.trans Does.refl State.cleanFar_does rfl
          · exact Does.refl
        clear_value x2
        extract_lets +onlyGivenNames x4
        have h5 : Does 0x590080bf8 o x4 := by
          unfold x4
          refine Does.ite ?_ ?_
          · exact Does.trans (Does.trans ‹_› State.drainSlices_does rfl) State.flushHome_does rfl
          · assumption
        clear_value x4
        exact Does.trans (Does.modBasin ‹_›) State.setRbit_does rfl

theorem State.farQuotaW_does {o a2 a3 a4} : Does 0x100000810 o (State.farQuotaW o a2 a3 a4) := by
  unfold State.farQuotaW
  extract_lets +onlyGivenNames x1 x2
  clear_value x1 x2
  refine Does.ite ?_ ?_
  · exact Does.trans Does.refl State.ignore_does rfl
  · extract_lets +onlyGivenNames x3
    have h4 : Does 0x100000810 o x3 := by
      unfold x3
      exact Does.trans Does.refl State.setRfld_does rfl
    clear_value x3
    refine Does.ite ?_ ?_
    · exact Does.modBasin ‹_›
    · exact Does.trans ‹_› State.quotaApply_does rfl

theorem State.winApply_does {o a2 a3 a4} : Does 0x810 o (State.winApply o a2 a3 a4) := by
  unfold State.winApply
  extract_lets +onlyGivenNames x1 x2
  clear_value x1
  have h3 : Does 0x810 o x2 := by
    unfold x2
    exact Does.modBasin Does.refl
  clear_value x2
  exact Does.trans (Does.setReg (Does.setReg (Does.setReg ‹_›))) State.setRbit_does rfl

theorem State.winCommit_does {o a2 a3} : Does 0x100000810 o (State.winCommit o a2 a3) := by
  unfold State.winCommit
  extract_lets +onlyGivenNames x1 x2 x3 x4 x5 x6
  clear_value x1 x2 x3 x4 x5 x6
  refine Does.ite ?_ ?_
  · exact Does.trans Does.refl State.ignore_does rfl
  · refine Does.ite ?_ ?_
    · extract_lets +onlyGivenNames x7
      have h8 : Does 0x100000810 o x7 := by
        unfold x7
        exact Does.modBasin Does.refl
      clear_value x7
      exact Does.trans (Does.trans ‹_› State.setRbit_does rfl) State.ignore_does rfl
    · extract_lets +onlyGivenNames x9
      clear_value x9
      refine Does.ite ?_ ?_
      · exact Does.trans (Does.modBasin Does.refl) State.setRbit_does rfl
      · exact Does.trans Does.refl State.winApply_does rfl

theorem State.spreadCommitW_does {o a2 a3} : Does 0x100000010 o (State.spreadCommitW o a2 a3) := by
  unfold State.spreadCommitW
  extract_lets +onlyGivenNames x1 x2 x3
  clear_value x1 x2 x3
  refine Does.ite ?_ ?_
  · exact Does.setReg (Does.setReg (Does.setReg (Does.setReg Does.refl)))
  · exact Does.trans Does.refl State.ignore_does rfl

theorem State.mgnStart_does {o a2 a3} : Does 0x100000090 o (State.mgnStart o a2 a3) := by
  unfold State.mgnStart
  extract_lets +onlyGivenNames x1
  clear_value x1
  refine Does.ite ?_ ?_
  · exact Does.trans Does.refl State.ignore_does rfl
  · exact Does.modMem (Does.trans Does.refl State.setRbit_does rfl)

theorem State.cutCtlWrite_does {o a2 a3 a4 a5} : Does 0x1908b6310 o (State.cutCtlWrite o a2 a3 a4 a5) := by
  unfold State.cutCtlWrite
  extract_lets +onlyGivenNames x1 x2
  clear_value x1
  have h3 : Does 0x1908b6310 o x2 := by
    unfold x2
    exact Does.setReg Does.refl
  clear_value x2
  extract_lets +onlyGivenNames x4 x5
  clear_value x4
  have h6 : Does 0x1908b6310 o x5 := by
    unfold x5
    refine Does.ite ?_ ?_
    · exact Does.trans ‹_› State.cutForceW_does rfl
    · assumption
  clear_value x5
  extract_lets +onlyGivenNames x7
  have h8 : Does 0x1908b6310 o x7 := by
    unfold x7
    refine Does.ite ?_ ?_
    · exact Does.trans ‹_› State.cutRestoreW_does rfl
    · assumption
  clear_value x7
  refine Does.ite ?_ ?_
  · exact Does.trans ‹_› State.cutRetrainW_does rfl
  · assumption

theorem State.ignoreRouter_does {o a2 a3 a4 a5} : Does 0x100000010 o (State.ignoreRouter o a2 a3 a4 a5) := by
  unfold State.ignoreRouter
  extract_lets +onlyGivenNames x1
  have h2 : Does 0x100000010 o x1 := by
    unfold x1
    refine Does.foldl ?_ fun r3 x4 h5 => ?_
    · exact Does.refl
    · refine Does.ite ?_ ?_
      · exact Does.trans ‹_› State.setRbit_does rfl
      · assumption
  clear_value x1
  exact Does.trans ‹_› State.event_does rfl

theorem State.routeBankWrite_does {o a2 a3 a4 a5} : Does 0x100000010 o (State.routeBankWrite o a2 a3 a4 a5) := by
  unfold State.routeBankWrite
  extract_lets +onlyGivenNames x1
  clear_value x1
  refine Does.ite ?_ ?_
  · exact Does.trans Does.refl State.ignoreRouter_does rfl
  · exact Does.setReg Does.refl

theorem State.routeCommitW_does {o a2} : Does 0x800010 o (State.routeCommitW o a2) := by
  unfold State.routeCommitW
  extract_lets +onlyGivenNames x1
  clear_value x1
  exact Does.trans (Does.modCut Does.refl) State.setRbit_does rfl

theorem State.dieWrite_does {o a2 a3 a4 a5 a6} : Does 0x95908bebf8 o (State.dieWrite o a2 a3 a4 a5 a6) := by
  unfold State.dieWrite
  extract_lets +onlyGivenNames x1 x2 x3 x4
  clear_value x1 x2
  refine Does.ite ?_ ?_
  · extract_lets +onlyGivenNames x5
    have h6 : Does 0x95908bebf8 o x5 := by
      unfold x5
      unfold x3
      exact Does.setReg Does.refl
    clear_value x5
    refine Does.ite ?_ ?_
    · exact Does.trans ‹_› State.finCommit_does rfl
    · assumption
  · refine Does.ite ?_ ?_
    · extract_lets +onlyGivenNames x7
      have h8 : Does 0x95908bebf8 o x7 := by
        unfold x7
        unfold x4
        exact Does.setReg Does.refl
      clear_value x7
      extract_lets +onlyGivenNames x9
      have h10 : Does 0x95908bebf8 o x9 := by
        unfold x9
        refine Does.ite ?_ ?_
        · exact Does.trans ‹_› State.spentPoisonWrite_does rfl
        · assumption
      clear_value x9
      exact Does.trans ‹_› State.injectWrite_does rfl
    · refine Does.ite ?_ ?_
      · refine Does.ite ?_ ?_
        · extract_lets +onlyGivenNames x11
          have h12 : Does 0x95908bebf8 o x11 := by
            unfold x11
            exact Does.trans Does.refl State.ecoWrite_does rfl
          clear_value x11
          extract_lets +onlyGivenNames x13
          have h14 : Does 0x95908bebf8 o x13 := by
            unfold x13
            unfold x3
            refine Does.setReg ?_
            unfold x4
            exact Does.setReg ‹_›
          clear_value x13
          refine Does.ite ?_ ?_
          · exact Does.trans ‹_› State.clkCommit_does rfl
          · assumption
        · exact Does.refl
      · refine Does.ite ?_ ?_
        · extract_lets +onlyGivenNames x15
          have h16 : Does 0x95908bebf8 o x15 := by
            unfold x15
            unfold x3
            refine Does.setReg ?_
            unfold x4
            exact Does.setReg Does.refl
          clear_value x15
          refine Does.ite ?_ ?_
          · exact Does.trans ‹_› State.spentPoisonWrite_does rfl
          · assumption
        · refine Does.ite ?_ ?_
          · exact Does.trans Does.refl State.maintWrite_does rfl
          · refine Does.ite ?_ ?_
            · refine Does.ite ?_ ?_
              · exact Does.trans Does.refl State.farQuotaW_does rfl
              · exact Does.refl
            · refine Does.ite ?_ ?_
              · extract_lets +onlyGivenNames x17
                clear_value x17
                split
                · unfold x3
                  exact Does.setReg Does.refl
                · unfold x3
                  exact Does.setReg Does.refl
                · unfold x3
                  exact Does.setReg Does.refl
                · refine Does.ite ?_ ?_
                  · exact Does.trans Does.refl State.winCommit_does rfl
                  · exact Does.refl
                · exact Does.refl
              · refine Does.ite ?_ ?_
                · split
                  · unfold x3
                    exact Does.setReg Does.refl
                  · unfold x3
                    exact Does.setReg Does.refl
                  · unfold x3
                    exact Does.setReg Does.refl
                  · unfold x3
                    exact Does.setReg Does.refl
                  · refine Does.ite ?_ ?_
                    · exact Does.trans Does.refl State.spreadCommitW_does rfl
                    · exact Does.refl
                  · exact Does.refl
                · refine Does.ite ?_ ?_
                  · extract_lets +onlyGivenNames x18
                    have h19 : Does 0x95908bebf8 o x18 := by
                      unfold x18
                      unfold x4
                      exact Does.setReg Does.refl
                    clear_value x18
                    extract_lets +onlyGivenNames x20
                    have h21 : Does 0x95908bebf8 o x20 := by
                      unfold x20
                      refine Does.ite ?_ ?_
                      · assumption
                      · refine Does.ite ?_ ?_
                        · exact Does.trans ‹_› State.ignore_does rfl
                        · unfold x3
                          exact Does.setReg ‹_›
                    clear_value x20
                    refine Does.ite ?_ ?_
                    · exact Does.trans ‹_› State.mgnStart_does rfl
                    · assumption
                  · refine Does.ite ?_ ?_
                    · exact Does.trans Does.refl State.cutCtlWrite_does rfl
                    · refine Does.ite ?_ ?_
                      · exact Does.trans Does.refl State.routeBankWrite_does rfl
                      · refine Does.ite ?_ ?_
                        · extract_lets +onlyGivenNames x22
                          have h23 : Does 0x95908bebf8 o x22 := by
                            unfold x22
                            unfold x3
                            exact Does.setReg Does.refl
                          clear_value x22
                          refine Does.ite ?_ ?_
                          · exact Does.trans ‹_› State.routeCommitW_does rfl
                          · assumption
                        · exact Does.refl

theorem State.erhPctlWrite_does {o a2 a3 a4} : Does 0x2079b1f6ff8 o (State.erhPctlWrite o a2 a3 a4) := by
  unfold State.erhPctlWrite
  extract_lets +onlyGivenNames x1 x2
  clear_value x1
  have h3 : Does 0x2079b1f6ff8 o x2 := by
    unfold x2
    exact Does.setReg Does.refl
  clear_value x2
  extract_lets +onlyGivenNames x4 x5
  clear_value x4
  have h6 : Does 0x2079b1f6ff8 o x5 := by
    unfold x5
    refine Does.ite ?_ ?_
    · exact Does.trans ‹_› State.erhForceW_does rfl
    · assumption
  clear_value x5
  extract_lets +onlyGivenNames x7
  have h8 : Does 0x2079b1f6ff8 o x7 := by
    unfold x7
    refine Does.ite ?_ ?_
    · exact Does.trans ‹_› State.erhRestoreW_does rfl
    · assumption
  clear_value x7
  refine Does.ite ?_ ?_
  · exact Does.trans ‹_› State.erhRetrainW_does rfl
  · assumption

theorem State.ignoreG_does {o a2 a3 a4 a5 a6} : Does 0x100000010 o (State.ignoreG o a2 a3 a4 a5 a6) := by
  unfold State.ignoreG
  exact Does.trans Does.refl State.ignored_does rfl

theorem State.bmapRootW_does {o a2 a3 a4 a5} : Does 0x100100010 o (State.bmapRootW o a2 a3 a4 a5) := by
  unfold State.bmapRootW
  extract_lets +onlyGivenNames x1 x2
  clear_value x1 x2
  refine Does.ite ?_ ?_
  · exact Does.trans Does.refl State.ignoreG_does rfl
  · exact Does.trans (Does.setReg Does.refl) State.tlbDrop_does rfl

theorem State.bmapCommitW_does {o a2} : Does 0x10 o (State.bmapCommitW o a2) := by
  unfold State.bmapCommitW
  extract_lets +onlyGivenNames x1
  clear_value x1
  exact Does.trans Does.refl State.setRbit_does rfl

theorem State.erhDevWrite_does {o a2 a3} : Does 0x100000010 o (State.erhDevWrite o a2 a3) := by
  unfold State.erhDevWrite
  refine Does.ite ?_ ?_
  · exact Does.trans Does.refl State.ignoreG_does rfl
  · exact Does.setReg Does.refl

theorem State.erhCommit_does {o} : Does 0x1000010 o (State.erhCommit o) := by
  unfold State.erhCommit
  extract_lets +onlyGivenNames x1
  clear_value x1
  refine Does.ite ?_ ?_
  · exact Does.refl
  · extract_lets +onlyGivenNames x2
    have h3 : Does 0x1000010 o x2 := by
      unfold x2
      exact Does.trans (Does.trans Does.refl State.setRbit_does rfl) State.setRbit_does rfl
    clear_value x2
    exact Does.modErh ‹_›

theorem State.erhRctlWrite_does {o a2 a3} : Does 0x101000010 o (State.erhRctlWrite o a2 a3) := by
  unfold State.erhRctlWrite
  extract_lets +onlyGivenNames x1 x2 x3 x4 x5
  clear_value x1 x2 x4
  have h6 : Does 0x101000010 o x5 := by
    unfold x5
    exact Does.setReg Does.refl
  clear_value x5
  extract_lets +onlyGivenNames x7
  have h8 : Does 0x101000010 o x7 := by
    unfold x7
    refine Does.ite ?_ ?_
    · exact Does.trans ‹_› State.ignoreG_does rfl
    · assumption
  clear_value x7
  refine Does.ite ?_ ?_
  · exact Does.trans ‹_› State.erhCommit_does rfl
  · assumption

theorem State.erhBankWrite_does {o a2 a3 a4} : Does 0x100000010 o (State.erhBankWrite o a2 a3 a4) := by
  unfold State.erhBankWrite
  extract_lets +onlyGivenNames x1
  clear_value x1
  refine Does.ite ?_ ?_
  · exact Does.trans Does.refl State.ignoreG_does rfl
  · exact Does.setReg Does.refl

theorem State.hdmExtWrite_does {o a2 a3 a4 a5} : Does 0x100000010 o (State.hdmExtWrite o a2 a3 a4 a5) := by
  unfold State.hdmExtWrite
  extract_lets +onlyGivenNames x1 x2 x3
  clear_value x1 x2
  have h4 : Does 0x100000010 o x3 := by
    unfold x3
    exact Does.setReg Does.refl
  clear_value x3
  extract_lets +onlyGivenNames x5
  clear_value x5
  refine Does.ite ?_ ?_
  · assumption
  · refine Does.ite ?_ ?_
    · exact Does.trans ‹_› State.ignored_does rfl
    · exact Does.setReg ‹_›

theorem State.gateWrite_does {o a2 a3 a4 a5} : Does 0x2079b9f6ff8 o (State.gateWrite o a2 a3 a4 a5) := by
  unfold State.gateWrite
  extract_lets +onlyGivenNames x1 x2
  clear_value x1 x2
  refine Does.ite ?_ ?_
  · exact Does.trans Does.refl State.cutCtlWrite_does rfl
  · refine Does.ite ?_ ?_
    · exact Does.trans Does.refl State.routeBankWrite_does rfl
    · refine Does.ite ?_ ?_
      · extract_lets +onlyGivenNames x3
        have h4 : Does 0x2079b9f6ff8 o x3 := by
          unfold x3
          exact Does.setReg Does.refl
        clear_value x3
        refine Does.ite ?_ ?_
        · exact Does.trans ‹_› State.routeCommitW_does rfl
        · assumption
      · refine Does.ite ?_ ?_
        · exact Does.trans Does.refl State.erhPctlWrite_does rfl
        · refine Does.ite ?_ ?_
          · exact Does.refl
          · refine Does.ite ?_ ?_
            · extract_lets +onlyGivenNames x5
              clear_value x5
              split
              · exact Does.trans Does.refl State.bmapRootW_does rfl
              · exact Does.trans Does.refl State.bmapRootW_does rfl
              · extract_lets +onlyGivenNames x6
                have h7 : Does 0x2079b9f6ff8 o x6 := by
                  unfold x6
                  exact Does.setReg Does.refl
                clear_value x6
                refine Does.ite ?_ ?_
                · exact Does.trans ‹_› State.bmapCommitW_does rfl
                · assumption
              · exact Does.refl
            · refine Does.ite ?_ ?_
              · exact Does.trans Does.refl State.erhDevWrite_does rfl
              · refine Does.ite ?_ ?_
                · exact Does.trans Does.refl State.erhRctlWrite_does rfl
                · refine Does.ite ?_ ?_
                  · exact Does.trans Does.refl State.erhBankWrite_does rfl
                  · split
                    · refine Does.ite ?_ ?_
                      · exact Does.trans Does.refl State.hdmExtWrite_does rfl
                      · exact Does.refl
                    · exact Does.refl

theorem State.debugWrite_does {o a2 a3 a4} : Does 0x3000 o (State.debugWrite o a2 a3 a4) := by
  unfold State.debugWrite
  split
  · exact Does.refl
  · extract_lets +onlyGivenNames x1 x2
    clear_value x1 x2
    refine Does.ite ?_ ?_
    · exact Does.trans Does.refl State.holdPut_does rfl
    · exact Does.trans Does.refl State.holdPut_does rfl

theorem State.regWrite1_does {o a2 a3 a4} : Does 0x297bb9ffff8 o (State.regWrite1 o a2 a3 a4).2 := by
  unfold State.regWrite1
  extract_lets +onlyGivenNames x1 x2 x3
  clear_value x1 x2 x3
  refine Does.ite' (fun r => Prod.snd (r)) ?_ ?_
  · dsimp -zeta -iota only
    exact Does.refl
  · split
    · dsimp -zeta -iota only
      refine Does.ite ?_ ?_
      · exact Does.trans Does.refl State.finWrite_does rfl
      · exact Does.trans Does.refl State.dieWrite_does rfl
    · dsimp -zeta -iota only
      refine Does.ite ?_ ?_
      · exact Does.trans Does.refl State.mbWrite_does rfl
      · exact Does.trans Does.refl State.gateWrite_does rfl
    · dsimp -zeta -iota only
      exact Does.trans Does.refl State.winWrite1_does rfl
    · dsimp -zeta -iota only
      exact Does.trans Does.refl State.debugWrite_does rfl
    · dsimp -zeta -iota only
      exact Does.refl

theorem State.winAdd_does {o a2 a3 a4} : Does 0x1c0000 o (State.winAdd o a2 a3 a4).2 := by
  unfold State.winAdd
  extract_lets +onlyGivenNames x1
  clear_value x1
  split
  · dsimp -zeta -iota only
    exact Does.trans Does.refl State.addCtr_does rfl
  · dsimp -zeta -iota only
    exact Does.trans Does.refl State.winRefused_does rfl

theorem State.winRead1_does {o a2 a3 a4} : Does 0x100000 o (State.winRead1 o a2 a3 a4).2 := by
  unfold State.winRead1
  refine Does.ite' (fun r => Prod.snd (r)) ?_ ?_
  · dsimp -zeta -iota only
    exact Does.refl
  · split
    dsimp -zeta -iota only
    refine Does.ite ?_ ?_
    · exact Does.trans Does.refl State.winRefused_does rfl
    · exact Does.refl

theorem State.regRead1_does {o a2 a3 a4} : Does 0x20100100010 o (State.regRead1 o a2 a3 a4).2 := by
  unfold State.regRead1
  extract_lets +onlyGivenNames x1 x2
  clear_value x1 x2
  refine Does.ite' (fun r => Prod.snd (r)) ?_ ?_
  · dsimp -zeta -iota only
    exact Does.refl
  · split
    · dsimp -zeta -iota only
      exact Does.refl
    · dsimp -zeta -iota only
      refine Does.ite ?_ ?_
      · exact Does.drawn Does.refl
      · exact Does.refl
    · split
      rename_i x3 x4
      refine (fun h5 : Does 0x20100100010 o x3 => ?_) (Does.named1 ?_ x4)
      rotate_left
      · exact Does.trans Does.refl State.winRead1_does rfl
      dsimp -zeta -iota only
      assumption
    · split
      rename_i x6 x7
      refine (fun h8 : Does 0x20100100010 o x6 => ?_) (Does.named1 ?_ x7)
      rotate_left
      · exact Does.trans Does.refl State.debugRead_does rfl
      dsimp -zeta -iota only
      assumption
    · dsimp -zeta -iota only
      exact Does.refl

theorem State.regRead_does {o a2 a3 a4} : Does 0x20100100010 o (State.regRead o a2 a3 a4).2 := by
  unfold State.regRead
  refine foldl_keeps (fun r => Does 0x20100100010 o (Prod.snd (r))) ?_ fun r1 x2 h3 => ?_
  · dsimp -zeta -iota only
    exact Does.refl
  · split
    rename_i x4 x5
    refine (fun h6 : Does 0x20100100010 o x4 => ?_) (Does.named1 ?_ x5)
    rotate_left
    · exact Does.trans ‹_› State.regRead1_does rfl
    dsimp -zeta -iota only
    assumption

theorem State.injectTake_does {o a2 a3} : Does 0x10 o (State.injectTake o a2 a3) := by
  unfold State.injectTake
  refine Does.ite ?_ ?_
  · exact Does.refl
  · exact Does.trans Does.refl State.setRfld_does rfl

theorem State.epochApply_does {o} : Does 0x800010 o (State.epochApply o) := by
  unfold State.epochApply
  extract_lets +onlyGivenNames x1
  have h2 : Does 0x800010 o x1 := by
    unfold x1
    refine Does.foldl ?_ fun r3 x4 h5 => ?_
    · exact Does.refl
    · exact Does.trans (Does.trans ‹_› State.setRbit_does rfl) State.setRbit_does rfl
  clear_value x1
  exact Does.modCut ‹_›

theorem State.regWrite_does {o a2 a3 a4} : Does 0x297bb9ffff8 o (State.regWrite o a2 a3 a4).2 := by
  unfold State.regWrite
  refine foldl_keeps (fun r => Does 0x297bb9ffff8 o (Prod.snd (r))) ?_ fun r1 x2 h3 => ?_
  · dsimp -zeta -iota only
    exact Does.refl
  · split
    rename_i x4 x5
    refine (fun h6 : Does 0x297bb9ffff8 o x4 => ?_) (Does.named1 ?_ x5)
    rotate_left
    · exact Does.trans ‹_› State.regWrite1_does rfl
    dsimp -zeta -iota only
    assumption

theorem State.commandBoundary_does {o a2} : Does 0x800000a010 o (State.commandBoundary o a2) := by
  unfold State.commandBoundary
  refine Does.ite ?_ ?_
  · exact Does.refl
  · extract_lets +onlyGivenNames x1
    have h2 : Does 0x800000a010 o x1 := by
      unfold x1
      split
      · exact Does.trans Does.refl State.finApply_does rfl
      · exact Does.refl
    clear_value x1
    extract_lets +onlyGivenNames x3
    have h4 : Does 0x800000a010 o x3 := by
      unfold x3
      split
      · exact Does.trans ‹_› State.spentPoisonWrite_does rfl
      · assumption
    clear_value x3
    split
    · exact Does.trans ‹_› State.spentPoisonWrite_does rfl
    · assumption

theorem State.tileBoundary_does {o a2} : Does 0x810 o (State.tileBoundary o a2) := by
  unfold State.tileBoundary
  refine Does.foldl ?_ fun r1 x2 h3 => ?_
  · exact Does.refl
  · split
    · exact Does.trans ‹_› State.winApply_does rfl
    · assumption

theorem State.park_does {o a2} : Does 0x10000 o (State.park o a2) := by
  unfold State.park
  exact Does.trans Does.refl State.modThread_does rfl

theorem State.l1DropSec_does {o a2 a3} : Does 0x100 o (State.l1DropSec o a2 a3) := by
  unfold State.l1DropSec
  exact Does.modBasin Does.refl

theorem State.l1Yield_does {o a2 a3} : Does 0x980003f8 o (State.l1Yield o a2 a3).2 := by
  unfold State.l1Yield
  split
  rename_i x1 x2
  refine (fun h3 : Does 0x980003f8 o x1 => ?_) (Does.named1 ?_ x2)
  rotate_left
  · exact Does.trans Does.refl State.l1WriteBack_does rfl
  refine Does.ite' (fun r => Prod.snd (r)) ?_ ?_
  · dsimp -zeta -iota only
    exact Does.trans ‹_› State.l1DropSec_does rfl
  · dsimp -zeta -iota only
    assumption

theorem State.xl_does {o a2 a3 a4} : Does 0x4981001f8 o (State.xl o a2 a3 a4).2 := by
  unfold State.xl
  refine Does.ite' (fun r => Prod.snd (r)) ?_ ?_
  · dsimp -zeta -iota only
    exact Does.refl
  · exact Does.trans Does.refl State.translate_does rfl

theorem accPieces_does {w : Nat} {o s : State} {f : State → Nat → Nat → Ld × State} {l : List (Nat × Nat)} (h : Does w o s)
    (hf : ∀ r a n, Does w o r → Does w o (f r a n).2) : Does w o (accPieces f l s).2 := by
  induction l generalizing s with
  | nil => exact h
  | cons p t ih =>
    have k := hf s p.1 p.2 h
    unfold accPieces
    split
    · rename_i bs s1 e
      have k : Does w o s1 := .named1 k e
      split
      · rename_i cs s2 e2
        exact .named1 (ih k) e2
      · exact ih k
    · exact k

theorem State.ifetch_does {o a2 a3 a4} : Does 0x498180bf8 o (State.ifetch o a2 a3 a4).2 := by
  unfold State.ifetch
  split
  · rename_i x1 x2
    refine (fun h3 : Does 0x498180bf8 o x1 => ?_) (Does.named1 ?_ x2)
    rotate_left
    · exact Does.trans Does.refl State.xl_does rfl
    dsimp -zeta -iota only
    assumption
  · rename_i x4 x5
    refine (fun h6 : Does 0x498180bf8 o x4 => ?_) (Does.named1 ?_ x5)
    rotate_left
    · exact Does.trans Does.refl State.xl_does rfl
    dsimp -zeta -iota only
    assumption
  · rename_i x7 x8
    refine (fun h9 : Does 0x498180bf8 o x7 => ?_) (Does.named1 ?_ x8)
    rotate_left
    · exact Does.trans Does.refl State.xl_does rfl
    extract_lets +onlyGivenNames x10 x11
    clear_value x10 x11
    split
    · dsimp -zeta -iota only
      assumption
    · extract_lets +onlyGivenNames x12
      clear_value x12
      refine Does.ite' (fun r => Prod.snd (r)) ?_ ?_
      · dsimp -zeta -iota only
        assumption
      · split
        · rename_i x13 x14
          refine (fun h15 : Does 0x498180bf8 o x13 => ?_) (Does.named1 ?_ x14)
          rotate_left
          · refine accPieces_does ?_ fun y16 y17 y18 y19 => ?_
            · assumption
            · split
              rename_i x21 x22
              refine (fun h23 : Does 0x498180bf8 o x21 => ?_) (Does.named1 ?_ x22)
              rotate_left
              · exact Does.trans ‹_› State.basinRead_does rfl
              dsimp -zeta -iota only
              assumption
          dsimp -zeta -iota only
          exact Does.modBasin ‹_›
        · refine accPieces_does ?_ fun y24 y25 y26 y27 => ?_
          · assumption
          · split
            rename_i x29 x30
            refine (fun h31 : Does 0x498180bf8 o x29 => ?_) (Does.named1 ?_ x30)
            rotate_left
            · exact Does.trans ‹_› State.basinRead_does rfl
            dsimp -zeta -iota only
            assumption

theorem State.ifetchAll_does {o a2 a3 a4} : Does 0x498180bf8 o (State.ifetchAll o a2 a3 a4).2 := by
  unfold State.ifetchAll
  extract_lets +onlyGivenNames x1
  clear_value x1
  split
  · rename_i x2 x3
    refine (fun h4 : Does 0x498180bf8 o x2 => ?_) (Does.named1 ?_ x3)
    rotate_left
    · exact Does.trans Does.refl State.ifetch_does rfl
    refine Does.ite' (fun r => Prod.snd (r)) ?_ ?_
    · dsimp -zeta -iota only
      assumption
    · exact Does.trans ‹_› State.ifetch_does rfl
  · exact Does.trans Does.refl State.ifetch_does rfl

theorem State.trap_does {o a2 a3 a4} : Does 0x206981b6ff8 o (State.trap o a2 a3 a4) := by
  unfold State.trap
  split
  · exact Does.refl
  · exact Does.trans (Does.trans Does.refl State.countIssue_does rfl) State.raiseC_does rfl

theorem State.trapSt_does {o a2 a3 a4} : Does 0x206981b6ff8 o (State.trapSt o a2 a3 a4) := by
  unfold State.trapSt
  split
  · exact Does.refl
  · exact Does.trans (Does.trans Does.refl State.countIssue_does rfl) State.raiseSt_does rfl

theorem State.stall_does {o a2 a3 a4 a5 a6} : Does 0x206991b6ff8 o (State.stall o a2 a3 a4 a5 a6) := by
  unfold State.stall
  split
  · exact Does.refl
  · exact Does.refl
  · exact Does.trans Does.refl State.trap_does rfl
  · exact Does.trans Does.refl State.trapSt_does rfl
  · exact Does.trans (Does.modMem Does.refl) State.park_does rfl
  · exact Does.trans (Does.trans Does.refl State.park_does rfl) State.erhGet_does rfl
  · extract_lets +onlyGivenNames x1
    clear_value x1
    refine Does.ite ?_ ?_
    · exact Does.refl
    · exact Does.trans (Does.modBasin Does.refl) State.park_does rfl

theorem State.chargeRemote_does {o s0 : State} {d c q : Nat} : Does 0x80000 o (State.chargeRemote o s0 d c q) := by
  unfold State.chargeRemote
  extract_lets a n
  refine Does.ite Does.refl ?_
  exact Does.trans Does.refl State.modCmd_does rfl

theorem State.issue_does {w : Nat} {o s : State} {tid len : Nat} {eff : Thread → State → State} (h : Does w o s)
    (hf : ∀ t r, Does w o r → Does w o (eff t r)) (hm : 0x206991b6ff8 &&& w = 0x206991b6ff8) : OutDoes w o (State.issue s tid len eff) := by
  unfold State.issue
  refine OutDoes.needSome fun t => .need (.need ?_)
  extract_lets t1 s1 s2
  have h1 : Does w o s1 := Does.trans h State.modThread_does (Does.sub rfl hm)
  have h2 : Does w o s2 := by
    have e := Does.trans h1 (State.ifetchAll_does (a2 := tid) (a3 := t1) (a4 := len)) (Does.sub rfl hm)
    unfold s2
    split
    · rename_i e2
      exact hf _ _ (.named1 e e2)
    · rename_i e2
      exact Does.trans (.named1 e e2) State.stall_does (Does.sub rfl hm)
  exact .next (Does.trans h2 State.chargeRemote_does (Does.sub rfl hm))

theorem State.l1Ecc_does {o a2 a3 a4} : Does 0x4900b6118 o (State.l1Ecc o a2 a3 a4) := by
  unfold State.l1Ecc
  extract_lets +onlyGivenNames x1
  clear_value x1
  split
  · extract_lets +onlyGivenNames x2 x3 x4 x5
    clear_value x2 x3 x4
    have h6 : Does 0x4900b6118 o x5 := by
      unfold x5
      exact Does.trans Does.refl State.detectUnit_does rfl
    clear_value x5
    refine Does.ite ?_ ?_
    · assumption
    · refine Does.ite ?_ ?_
      · exact Does.modBasin ‹_›
      · exact Does.trans ‹_› State.l1DropSec_does rfl
  · exact Does.refl

theorem State.l1Room_does {o a2 a3} : Does 0x200980003f8 o (State.l1Room o a2 a3).2 := by
  unfold State.l1Room
  extract_lets +onlyGivenNames x1
  clear_value x1
  refine Does.ite' (fun r => Prod.snd (r)) ?_ ?_
  · dsimp -zeta -iota only
    exact Does.refl
  · extract_lets +onlyGivenNames x2
    clear_value x2
    split
    rename_i x3 x4
    refine (fun h5 : Does 0x200980003f8 o x3 => ?_) (Does.named1 ?_ x4)
    rotate_left
    · refine foldl_keeps (fun r => Does 0x200980003f8 o (Prod.snd (r))) ?_ fun r6 x7 h8 => ?_
      · dsimp -zeta -iota only
        exact Does.drawn Does.refl
      · split
        rename_i x9 x10
        refine (fun h11 : Does 0x200980003f8 o x9 => ?_) (Does.named1 ?_ x10)
        rotate_left
        · exact Does.trans ‹_› State.l1WriteBack_does rfl
        dsimp -zeta -iota only
        assumption
    refine Does.ite' (fun r => Prod.snd (r)) ?_ ?_
    · dsimp -zeta -iota only
      refine Does.foldl ?_ fun r12 x13 h14 => ?_
      · assumption
      · exact Does.trans ‹_› State.l1DropSec_does rfl
    · dsimp -zeta -iota only
      assumption

theorem State.l1Fill_does {o a2 a3 a4} : Does 0x100 o (State.l1Fill o a2 a3 a4) := by
  unfold State.l1Fill
  exact Does.modBasin Does.refl

theorem State.loadDram_does {o a2 a3 a4 a5 a6 a7} : Does 0x204980b6bf8 o (State.loadDram o a2 a3 a4 a5 a6 a7).2 := by
  unfold State.loadDram
  extract_lets +onlyGivenNames x1 x2 x3 x4 x5
  clear_value x1 x2 x3 x4 x5
  refine Does.ite' (fun r => Prod.snd (r)) ?_ ?_
  · split
    rename_i x6 x7
    refine (fun h8 : Does 0x204980b6bf8 o x6 => ?_) (Does.named1 ?_ x7)
    rotate_left
    · exact Does.trans Does.refl State.homeRead_does rfl
    dsimp -zeta -iota only
    assumption
  · refine Does.ite' (fun r => Prod.snd (r)) ?_ ?_
    · refine Does.ite' (fun r => Prod.snd (r)) ?_ ?_
      · split
        rename_i x9 x10
        refine (fun h11 : Does 0x204980b6bf8 o x9 => ?_) (Does.named1 ?_ x10)
        rotate_left
        · exact Does.trans Does.refl State.homeRead_does rfl
        dsimp -zeta -iota only
        assumption
      · extract_lets +onlyGivenNames x12
        have h13 : Does 0x204980b6bf8 o x12 := by
          unfold x12
          exact Does.trans Does.refl State.farParity_does rfl
        clear_value x12
        extract_lets +onlyGivenNames x14
        clear_value x14
        refine Does.ite' (fun r => Prod.snd (r)) ?_ ?_
        · refine Does.ite' (fun r => Prod.snd (r)) ?_ ?_
          · dsimp -zeta -iota only
            assumption
          · dsimp -zeta -iota only
            exact Does.trans ‹_› State.pmc_does rfl
        · dsimp -zeta -iota only
          assumption
    · extract_lets +onlyGivenNames x15
      have h16 : Does 0x204980b6bf8 o x15 := by
        unfold x15
        refine Does.ite ?_ ?_
        · exact Does.refl
        · exact Does.trans Does.refl State.l1Ecc_does rfl
      clear_value x15
      extract_lets +onlyGivenNames x17
      clear_value x17
      refine Does.ite' (fun r => Prod.snd (r)) ?_ ?_
      · refine Does.ite' (fun r => Prod.snd (r)) ?_ ?_
        · dsimp -zeta -iota only
          assumption
        · dsimp -zeta -iota only
          assumption
      · extract_lets +onlyGivenNames x18
        have h19 : Does 0x204980b6bf8 o x18 := by
          unfold x18
          refine Does.ite ?_ ?_
          · assumption
          · exact Does.trans ‹_› State.pmc_does rfl
        clear_value x18
        split
        rename_i x20 x21
        refine (fun h22 : Does 0x204980b6bf8 o x20 => ?_) (Does.named1 ?_ x21)
        rotate_left
        · exact Does.trans ‹_› State.basinRead_does rfl
        refine Does.ite' (fun r => Prod.snd (r)) ?_ ?_
        · dsimp -zeta -iota only
          assumption
        · extract_lets +onlyGivenNames x23 x24
          clear_value x23
          have h25 : Does 0x204980b6bf8 o x24 := by
            unfold x24
            refine Does.ite ?_ ?_
            · assumption
            · split
              rename_i x26 x27
              refine (fun h28 : Does 0x204980b6bf8 o x26 => ?_) (Does.named1 ?_ x27)
              rotate_left
              · exact Does.trans ‹_› State.l1Room_does rfl
              refine Does.ite ?_ ?_
              · exact Does.trans ‹_› State.l1Fill_does rfl
              · assumption
          clear_value x24
          dsimp -zeta -iota only
          assumption

theorem State.patch_does {o a2 a3 a4} : Does 0x100 o (State.patch o a2 a3 a4) := by
  unfold State.patch
  exact Does.modBasin Does.refl

theorem State.l1Store_does {o a2 a3 a4 a5} : Does 0x100 o (State.l1Store o a2 a3 a4 a5) := by
  unfold State.l1Store
  extract_lets +onlyGivenNames x1
  clear_value x1
  exact Does.modBasin Does.refl

theorem State.storeDram_does {o a2 a3 a4 a5 a6} : Does 0x20498080ff8 o (State.storeDram o a2 a3 a4 a5 a6).2 := by
  unfold State.storeDram
  extract_lets +onlyGivenNames x1 x2 x3 x4 x5 x6 x7
  clear_value x1 x2 x3 x4 x5 x6
  refine Does.ite' (fun r => Prod.snd (r)) ?_ ?_
  · dsimp -zeta -iota only
    exact Does.refl
  · refine Does.ite' (fun r => Prod.snd (r)) ?_ ?_
    · dsimp -zeta -iota only
      exact Does.refl
    · refine Does.ite' (fun r => Prod.snd (r)) ?_ ?_
      · refine Does.ite' (fun r => Prod.snd (r)) ?_ ?_
        · unfold x7
          split
          rename_i x8 x9
          refine (fun h10 : Does 0x20498080ff8 o x8 => ?_) (Does.named2 ?_ x9)
          rotate_left
          · exact Does.trans Does.refl State.homeWrite_does rfl
          refine Does.ite' (fun r => Prod.snd (r)) ?_ ?_
          · dsimp -zeta -iota only
            assumption
          · refine Does.ite' (fun r => Prod.snd (r)) ?_ ?_
            · dsimp -zeta -iota only
              assumption
            · dsimp -zeta -iota only
              assumption
        · dsimp -zeta -iota only
          exact Does.refl
      · refine Does.ite' (fun r => Prod.snd (r)) ?_ ?_
        · refine Does.ite' (fun r => Prod.snd (r)) ?_ ?_
          · unfold x7
            split
            rename_i x11 x12
            refine (fun h13 : Does 0x20498080ff8 o x11 => ?_) (Does.named2 ?_ x12)
            rotate_left
            · exact Does.trans Does.refl State.homeWrite_does rfl
            refine Does.ite' (fun r => Prod.snd (r)) ?_ ?_
            · dsimp -zeta -iota only
              assumption
            · refine Does.ite' (fun r => Prod.snd (r)) ?_ ?_
              · dsimp -zeta -iota only
                assumption
              · dsimp -zeta -iota only
                assumption
          · refine Does.ite' (fun r => Prod.snd (r)) ?_ ?_
            · dsimp -zeta -iota only
              exact Does.modBasin Does.refl
            · dsimp -zeta -iota only
              exact Does.refl
        · refine Does.ite' (fun r => Prod.snd (r)) ?_ ?_
          · split
            rename_i x14 x15
            refine (fun h16 : Does 0x20498080ff8 o x14 => ?_) (Does.named1 ?_ x15)
            rotate_left
            · unfold x7
              split
              rename_i x17 x18
              refine (fun h19 : Does 0x20498080ff8 o x17 => ?_) (Does.named2 ?_ x18)
              rotate_left
              · exact Does.trans Does.refl State.homeWrite_does rfl
              refine Does.ite' (fun r => Prod.snd (r)) ?_ ?_
              · dsimp -zeta -iota only
                assumption
              · refine Does.ite' (fun r => Prod.snd (r)) ?_ ?_
                · dsimp -zeta -iota only
                  assumption
                · dsimp -zeta -iota only
                  assumption
            refine Does.ite' (fun r => Prod.snd (r)) ?_ ?_
            · dsimp -zeta -iota only
              assumption
            · extract_lets +onlyGivenNames x20
              have h21 : Does 0x20498080ff8 o x20 := by
                unfold x20
                exact Does.trans ‹_› State.patch_does rfl
              clear_value x20
              refine Does.ite' (fun r => Prod.snd (r)) ?_ ?_
              · dsimp -zeta -iota only
                assumption
              · split
                rename_i x22 x23
                refine (fun h24 : Does 0x20498080ff8 o x22 => ?_) (Does.named1 ?_ x23)
                rotate_left
                · exact Does.trans ‹_› State.l1Room_does rfl
                dsimp -zeta -iota only
                refine Does.ite ?_ ?_
                · exact Does.trans ‹_› State.l1Store_does rfl
                · assumption
          · split
            rename_i x25 x26
            refine (fun h27 : Does 0x20498080ff8 o x25 => ?_) (Does.named1 ?_ x26)
            rotate_left
            · exact Does.trans Does.refl State.l1Room_does rfl
            refine Does.ite' (fun r => Prod.snd (r)) ?_ ?_
            · dsimp -zeta -iota only
              exact Does.trans ‹_› State.l1Store_does rfl
            · dsimp -zeta -iota only
              assumption

theorem State.storeSec_does {o a2 a3 a4 a5 a6} : Does 0x297bb9ffff8 o (State.storeSec o a2 a3 a4 a5 a6).2 := by
  unfold State.storeSec
  extract_lets +onlyGivenNames x1
  clear_value x1
  refine Does.ite' (fun r => Prod.snd (r)) ?_ ?_
  · split
    rename_i x2 x3
    refine (fun h4 : Does 0x297bb9ffff8 o x2 => ?_) (Does.named1 ?_ x3)
    rotate_left
    · exact Does.trans Does.refl State.regWrite_does rfl
    dsimp -zeta -iota only
    assumption
  · refine Does.ite' (fun r => Prod.snd (r)) ?_ ?_
    · refine Does.ite' (fun r => Prod.snd (r)) ?_ ?_
      · dsimp -zeta -iota only
        exact Does.refl
      · dsimp -zeta -iota only
        exact Does.trans Does.refl State.erhPut_does rfl
    · refine Does.ite' (fun r => Prod.snd (r)) ?_ ?_
      · extract_lets +onlyGivenNames x5 x6 x7
        clear_value x5 x6 x7
        refine Does.ite' (fun r => Prod.snd (r)) ?_ ?_
        · dsimp -zeta -iota only
          exact Does.refl
        · refine Does.ite' (fun r => Prod.snd (r)) ?_ ?_
          · dsimp -zeta -iota only
            exact Does.trans Does.refl State.hostAsk_does rfl
          · refine Does.ite' (fun r => Prod.snd (r)) ?_ ?_
            · split
              rename_i x8 x9
              refine (fun h10 : Does 0x297bb9ffff8 o x8 => ?_) (Does.named1 ?_ x9)
              rotate_left
              · exact Does.trans Does.refl State.hostWrite_does rfl
              dsimp -zeta -iota only
              exact Does.trans ‹_› State.patch_does rfl
            · split
              rename_i x11 x12
              refine (fun h13 : Does 0x297bb9ffff8 o x11 => ?_) (Does.named1 ?_ x12)
              rotate_left
              · exact Does.trans Does.refl State.l1Room_does rfl
              refine Does.ite' (fun r => Prod.snd (r)) ?_ ?_
              · dsimp -zeta -iota only
                exact Does.trans ‹_› State.l1Store_does rfl
              · dsimp -zeta -iota only
                assumption
      · split
        · dsimp -zeta -iota only
          exact Does.refl
        · exact Does.trans Does.refl State.storeDram_does rfl

theorem State.storeBytes_does {o a2 a3 a4 a5 a6} : Does 0x297bb9ffff8 o (State.storeBytes o a2 a3 a4 a5 a6).2 := by
  unfold State.storeBytes
  extract_lets +onlyGivenNames x1
  clear_value x1
  refine Does.ite' (fun r => Prod.snd (r)) ?_ ?_
  · dsimp -zeta -iota only
    exact Does.refl
  · split
    · rename_i x2 x3
      refine (fun h4 : Does 0x297bb9ffff8 o x2 => ?_) (Does.named1 ?_ x3)
      rotate_left
      · exact Does.trans Does.refl State.xl_does rfl
      dsimp -zeta -iota only
      assumption
    · rename_i x5 x6
      refine (fun h7 : Does 0x297bb9ffff8 o x5 => ?_) (Does.named1 ?_ x6)
      rotate_left
      · exact Does.trans Does.refl State.xl_does rfl
      dsimp -zeta -iota only
      assumption
    · rename_i x8 x9
      refine (fun h10 : Does 0x297bb9ffff8 o x8 => ?_) (Does.named1 ?_ x9)
      rotate_left
      · exact Does.trans Does.refl State.xl_does rfl
      refine accPieces_does ?_ fun y11 y12 y13 y14 => ?_
      · assumption
      · exact Does.trans ‹_› State.storeSec_does rfl

theorem State.storeElems_does {a1 a2 a3 a4 o} : Does 0x297bb9ffff8 o (State.storeElems a1 a2 a3 a4 o).2.2 := by
  induction a4 generalizing a1 a2 a3 o
  · unfold State.storeElems
    dsimp -zeta -iota only
    exact Does.refl
  · rename_i ih
    unfold State.storeElems
    split
    · rename_i x1 x2
      refine (fun h3 : Does 0x297bb9ffff8 o x1 => ?_) (Does.named1 ?_ x2)
      rotate_left
      · exact Does.trans Does.refl State.storeBytes_does rfl
      exact Does.trans ‹_› (ih ..) rfl
    · rename_i x4 _ x5
      refine (fun h6 : Does 0x297bb9ffff8 o x4 => ?_) (Does.named1 ?_ x5)
      rotate_left
      · exact Does.trans Does.refl State.storeBytes_does rfl
      dsimp -zeta -iota only
      assumption

theorem State.loadSec_does {o a2 a3 a4 a5 a6 a7} : Does 0x205981b6bf8 o (State.loadSec o a2 a3 a4 a5 a6 a7).2 := by
  unfold State.loadSec
  extract_lets +onlyGivenNames x1 x2
  clear_value x1 x2
  refine Does.ite' (fun r => Prod.snd (r)) ?_ ?_
  · split
    · rename_i x3 x4
      refine (fun h5 : Does 0x205981b6bf8 o x3 => ?_) (Does.named1 ?_ x4)
      rotate_left
      · exact Does.trans Does.refl State.regRead_does rfl
      dsimp -zeta -iota only
      assumption
    · rename_i x6 x7
      refine (fun h8 : Does 0x205981b6bf8 o x6 => ?_) (Does.named1 ?_ x7)
      rotate_left
      · exact Does.trans Does.refl State.regRead_does rfl
      dsimp -zeta -iota only
      assumption
  · refine Does.ite' (fun r => Prod.snd (r)) ?_ ?_
    · refine Does.ite' (fun r => Prod.snd (r)) ?_ ?_
      · dsimp -zeta -iota only
        exact Does.refl
      · extract_lets +onlyGivenNames x9 x10 x11
        clear_value x9 x10 x11
        refine Does.ite' (fun r => Prod.snd (r)) ?_ ?_
        · dsimp -zeta -iota only
          exact Does.refl
        · refine Does.ite' (fun r => Prod.snd (r)) ?_ ?_
          · extract_lets +onlyGivenNames x12 x13 x14 x15
            clear_value x12 x13 x14
            have h16 : Does 0x205981b6bf8 o x15 := by
              unfold x15
              refine Does.ite ?_ ?_
              · split
                rename_i x17 x18
                refine (fun h19 : Does 0x205981b6bf8 o x17 => ?_) (Does.named1 ?_ x18)
                rotate_left
                · exact Does.trans Does.refl State.farAlloc_does rfl
                refine Does.ite ?_ ?_
                · exact Does.trans ‹_› State.farFill_does rfl
                · assumption
              · exact Does.refl
            clear_value x15
            dsimp -zeta -iota only
            assumption
          · dsimp -zeta -iota only
            exact Does.refl
    · refine Does.ite' (fun r => Prod.snd (r)) ?_ ?_
      · extract_lets +onlyGivenNames x20 x21
        clear_value x20 x21
        refine Does.ite' (fun r => Prod.snd (r)) ?_ ?_
        · dsimp -zeta -iota only
          exact Does.refl
        · split
          rename_i x22 x23
          refine (fun h24 : Does 0x205981b6bf8 o x22 => ?_) (Does.named1 ?_ x23)
          rotate_left
          · exact Does.trans Does.refl State.hostRead_does rfl
          refine Does.ite' (fun r => Prod.snd (r)) ?_ ?_
          · dsimp -zeta -iota only
            assumption
          · refine Does.ite' (fun r => Prod.snd (r)) ?_ ?_
            · dsimp -zeta -iota only
              assumption
            · extract_lets +onlyGivenNames x25 x26
              clear_value x25
              have h27 : Does 0x205981b6bf8 o x26 := by
                unfold x26
                refine Does.ite ?_ ?_
                · assumption
                · split
                  rename_i x28 x29
                  refine (fun h30 : Does 0x205981b6bf8 o x28 => ?_) (Does.named1 ?_ x29)
                  rotate_left
                  · exact Does.trans ‹_› State.l1Room_does rfl
                  refine Does.ite ?_ ?_
                  · exact Does.trans ‹_› State.l1Fill_does rfl
                  · assumption
              clear_value x26
              dsimp -zeta -iota only
              assumption
      · split
        · dsimp -zeta -iota only
          exact Does.refl
        · exact Does.trans Does.refl State.loadDram_does rfl

theorem State.loadBytes_does {o a2 a3 a4 a5 a6 a7} : Does 0x205981b6bf8 o (State.loadBytes o a2 a3 a4 a5 a6 a7).2 := by
  unfold State.loadBytes
  refine Does.ite' (fun r => Prod.snd (r)) ?_ ?_
  · dsimp -zeta -iota only
    exact Does.refl
  · split
    · rename_i x1 x2
      refine (fun h3 : Does 0x205981b6bf8 o x1 => ?_) (Does.named1 ?_ x2)
      rotate_left
      · exact Does.trans Does.refl State.xl_does rfl
      dsimp -zeta -iota only
      assumption
    · rename_i x4 x5
      refine (fun h6 : Does 0x205981b6bf8 o x4 => ?_) (Does.named1 ?_ x5)
      rotate_left
      · exact Does.trans Does.refl State.xl_does rfl
      dsimp -zeta -iota only
      assumption
    · rename_i x7 x8
      refine (fun h9 : Does 0x205981b6bf8 o x7 => ?_) (Does.named1 ?_ x8)
      rotate_left
      · exact Does.trans Does.refl State.xl_does rfl
      refine accPieces_does ?_ fun y10 y11 y12 y13 => ?_
      · assumption
      · exact Does.trans ‹_› State.loadSec_does rfl

theorem State.loadElems_does {a1 a2 a3 a4 a5 o} : Does 0x205981b6bf8 o (State.loadElems a1 a2 a3 a4 a5 o).2.2.2 := by
  induction a5 generalizing a1 a2 a3 a4 o
  · unfold State.loadElems
    dsimp -zeta -iota only
    exact Does.refl
  · rename_i ih
    unfold State.loadElems
    split
    · rename_i x1 x2
      refine (fun h3 : Does 0x205981b6bf8 o x1 => ?_) (Does.named1 ?_ x2)
      rotate_left
      · exact Does.trans Does.refl State.loadBytes_does rfl
      split
      rename_i x4 x5
      refine (fun h6 : Does 0x205981b6bf8 o x4 => ?_) (Does.named3 ?_ x5)
      rotate_left
      · exact Does.trans ‹_› (ih ..) rfl
      dsimp -zeta -iota only
      assumption
    · rename_i x7 _ x8
      refine (fun h9 : Does 0x205981b6bf8 o x7 => ?_) (Does.named1 ?_ x8)
      rotate_left
      · exact Does.trans Does.refl State.loadBytes_does rfl
      dsimp -zeta -iota only
      assumption

theorem State.retire_does {o a2 a3 a4} : Does 0x90010 o (State.retire o a2 a3 a4) := by
  unfold State.retire
  split
  · exact Does.refl
  · exact Does.trans (Does.trans Does.refl State.countIssue_does rfl) State.modThread_does rfl

theorem State.acqAll_does {o a2} : Does 0x100 o (State.acqAll o a2) := by
  unfold State.acqAll
  exact Does.trans Does.refl State.acquire_does rfl

theorem State.runLoad_does {o a2 a3 a4 a5 a6 a7 a8} : Does 0x207991b6ff8 o (State.runLoad o a2 a3 a4 a5 a6 a7 a8) := by
  unfold State.runLoad
  split
  · exact Does.trans Does.refl State.trap_does rfl
  · split
    rename_i x1 x2
    refine (fun h3 : Does 0x207991b6ff8 o x1 => ?_) (Does.named3 ?_ x2)
    rotate_left
    · exact Does.trans Does.refl State.loadElems_does rfl
    extract_lets +onlyGivenNames x4
    clear_value x4
    split
    · rename_i _
      refine (fun h5 : Does 0x207991b6ff8 o x1 => ?_) (Does.named3 ?_ x2)
      rotate_left
      · exact Does.trans Does.refl State.loadElems_does rfl
      extract_lets +onlyGivenNames x6 x7 x8
      clear_value x6 x7
      have h9 : Does 0x207991b6ff8 o x8 := by
        unfold x8
        exact Does.trans ‹_› State.retire_does rfl
      clear_value x8
      extract_lets +onlyGivenNames x10
      have h11 : Does 0x207991b6ff8 o x10 := by
        unfold x10
        exact Does.trans (Does.drawn ‹_›) State.gotClear_does rfl
      clear_value x10
      refine Does.ite ?_ ?_
      · exact Does.trans ‹_› State.acqAll_does rfl
      · assumption
    · rename_i _ _
      refine (fun h12 : Does 0x207991b6ff8 o x1 => ?_) (Does.named3 ?_ x2)
      rotate_left
      · exact Does.trans Does.refl State.loadElems_does rfl
      extract_lets +onlyGivenNames x13 x14
      clear_value x13
      have h15 : Does 0x207991b6ff8 o x14 := by
        unfold x14
        refine Does.ite ?_ ?_
        · exact Does.trans ‹_› State.modThread_does rfl
        · assumption
      clear_value x14
      exact Does.trans ‹_› State.stall_does rfl

theorem State.runStore_does {o a2 a3 a4 a5 a6 a7} : Does 0x297bb9ffff8 o (State.runStore o a2 a3 a4 a5 a6 a7) := by
  unfold State.runStore
  split
  · exact Does.trans Does.refl State.trap_does rfl
  · split
    · rename_i x1 x2
      refine (fun h3 : Does 0x297bb9ffff8 o x1 => ?_) (Does.named2 ?_ x2)
      rotate_left
      · exact Does.trans Does.refl State.storeElems_does rfl
      exact Does.trans ‹_› State.retire_does rfl
    · rename_i x4 x5
      refine (fun h6 : Does 0x297bb9ffff8 o x4 => ?_) (Does.named2 ?_ x5)
      rotate_left
      · exact Does.trans Does.refl State.storeElems_does rfl
      extract_lets +onlyGivenNames x7
      have h8 : Does 0x297bb9ffff8 o x7 := by
        unfold x7
        refine Does.ite ?_ ?_
        · exact Does.trans ‹_› State.modThread_does rfl
        · assumption
      clear_value x7
      exact Does.trans ‹_› State.stall_does rfl

theorem State.amoHost_does {o a2 a3 a4 a5 a6} : Does 0x8000000 o (State.amoHost o a2 a3 a4 a5 a6).2 := by
  unfold State.amoHost
  extract_lets +onlyGivenNames x1 x2 x3
  clear_value x1 x2 x3
  refine Does.ite' (fun r => Prod.snd (r)) ?_ ?_
  · dsimp -zeta -iota only
    exact Does.refl
  · split
    · refine Does.ite' (fun r => Prod.snd (r)) ?_ ?_
      · refine Does.ite' (fun r => Prod.snd (r)) ?_ ?_
        · dsimp -zeta -iota only
          exact Does.refl
        · extract_lets +onlyGivenNames x4 x5
          clear_value x4 x5
          dsimp -zeta -iota only
          exact Does.trans Does.refl State.hostWrite_does rfl
      · dsimp -zeta -iota only
        exact Does.trans Does.refl State.hostAsk_does rfl
    · dsimp -zeta -iota only
      exact Does.trans Does.refl State.hostAsk_does rfl

theorem State.farYield_does {o a2 a3} : Does 0x900003f8 o (State.farYield o a2 a3).2 := by
  unfold State.farYield
  refine Does.ite' (fun r => Prod.snd (r)) ?_ ?_
  · dsimp -zeta -iota only
    exact Does.refl
  · split
    rename_i x1 x2
    refine (fun h3 : Does 0x900003f8 o x1 => ?_) (Does.named1 ?_ x2)
    rotate_left
    · exact Does.trans Does.refl State.farWbU_does rfl
    refine Does.ite' (fun r => Prod.snd (r)) ?_ ?_
    · dsimp -zeta -iota only
      exact Does.trans ‹_› State.farDrop_does rfl
    · dsimp -zeta -iota only
      assumption

theorem State.amoDram_does {o a2 a3 a4 a5 a6 a7 a8 a9} : Does 0x498080ff8 o (State.amoDram o a2 a3 a4 a5 a6 a7 a8 a9).2 := by
  unfold State.amoDram
  extract_lets +onlyGivenNames x1 x2 x3
  clear_value x1 x2 x3
  split
  rename_i x4 x5
  refine (fun h6 : Does 0x498080ff8 o x4 => ?_) (Does.named1 ?_ x5)
  rotate_left
  · exact Does.trans Does.refl State.l1Yield_does rfl
  refine Does.ite' (fun r => Prod.snd (r)) ?_ ?_
  · dsimp -zeta -iota only
    assumption
  · refine Does.ite' (fun r => Prod.snd (r)) ?_ ?_
    · extract_lets +onlyGivenNames x7
      clear_value x7
      refine Does.ite' (fun r => Prod.snd (r)) ?_ ?_
      · dsimp -zeta -iota only
        assumption
      · extract_lets +onlyGivenNames x8 x9
        clear_value x8 x9
        dsimp -zeta -iota only
        exact Does.trans (Does.modBasin ‹_›) State.pmc_does rfl
    · refine Does.ite' (fun r => Prod.snd (r)) ?_ ?_
      · split
        rename_i x10 x11
        refine (fun h12 : Does 0x498080ff8 o x10 => ?_) (Does.named1 ?_ x11)
        rotate_left
        · exact Does.trans ‹_› State.farYield_does rfl
        refine Does.ite' (fun r => Prod.snd (r)) ?_ ?_
        · dsimp -zeta -iota only
          assumption
        · split
          rename_i x13 x14
          refine (fun h15 : Does 0x498080ff8 o x13 => ?_) (Does.named3 ?_ x14)
          rotate_left
          · exact Does.trans ‹_› State.nearAtomic_does rfl
          refine Does.ite' (fun r => Prod.snd (r)) ?_ ?_
          · dsimp -zeta -iota only
            assumption
          · refine Does.ite' (fun r => Prod.snd (r)) ?_ ?_
            · dsimp -zeta -iota only
              assumption
            · dsimp -zeta -iota only
              assumption
      · refine Does.ite' (fun r => Prod.snd (r)) ?_ ?_
        · dsimp -zeta -iota only
          assumption
        · dsimp -zeta -iota only
          assumption

theorem State.runAmo_does {o a2 a3 a4 a5 a6 a7 a8 a9 a10 a11} : Does 0x206991f6ff8 o (State.runAmo o a2 a3 a4 a5 a6 a7 a8 a9 a10 a11) := by
  unfold State.runAmo
  extract_lets +onlyGivenNames x1 x2
  clear_value x1 x2
  refine Does.ite ?_ ?_
  · exact Does.trans Does.refl State.trap_does rfl
  · split
    · rename_i x3 x4
      refine (fun h5 : Does 0x206991f6ff8 o x3 => ?_) (Does.named1 ?_ x4)
      rotate_left
      · exact Does.trans Does.refl State.xl_does rfl
      exact Does.trans ‹_› State.trap_does rfl
    · rename_i x6 x7
      refine (fun h8 : Does 0x206991f6ff8 o x6 => ?_) (Does.named1 ?_ x7)
      rotate_left
      · exact Does.trans Does.refl State.xl_does rfl
      exact Does.trans ‹_› State.stall_does rfl
    · rename_i x9 x10
      refine (fun h11 : Does 0x206991f6ff8 o x9 => ?_) (Does.named1 ?_ x10)
      rotate_left
      · exact Does.trans Does.refl State.xl_does rfl
      refine Does.ite ?_ ?_
      · refine Does.ite ?_ ?_
        · exact Does.trans ‹_› State.trap_does rfl
        · exact Does.trans (Does.trans ‹_› State.park_does rfl) State.erhAtomic_does rfl
      · split
        rename_i x12 x13
        refine (fun h14 : Does 0x206991f6ff8 o x12 => ?_) (Does.named1 ?_ x13)
        rotate_left
        · refine Does.ite' (fun r => Prod.snd (r)) ?_ ?_
          · split
            · refine Does.ite' (fun r => Prod.snd (r)) ?_ ?_
              · split
                · rename_i x15 x16
                  refine (fun h17 : Does 0x206991f6ff8 o x15 => ?_) (Does.named1 ?_ x16)
                  rotate_left
                  · exact Does.trans ‹_› State.winAdd_does rfl
                  dsimp -zeta -iota only
                  assumption
                · rename_i x18 x19
                  refine (fun h20 : Does 0x206991f6ff8 o x18 => ?_) (Does.named1 ?_ x19)
                  rotate_left
                  · exact Does.trans ‹_› State.winAdd_does rfl
                  dsimp -zeta -iota only
                  assumption
              · dsimp -zeta -iota only
                assumption
            · dsimp -zeta -iota only
              assumption
          · refine Does.ite' (fun r => Prod.snd (r)) ?_ ?_
            · split
              rename_i x21 x22
              refine (fun h23 : Does 0x206991f6ff8 o x21 => ?_) (Does.named1 ?_ x22)
              rotate_left
              · exact Does.trans ‹_› State.l1Yield_does rfl
              refine Does.ite' (fun r => Prod.snd (r)) ?_ ?_
              · exact Does.trans ‹_› State.amoHost_does rfl
              · dsimp -zeta -iota only
                assumption
            · split
              · dsimp -zeta -iota only
                assumption
              · exact Does.trans ‹_› State.amoDram_does rfl
        split
        · rename_i _ _
          refine (fun h24 : Does 0x206991f6ff8 o x12 => ?_) (Does.named1 ?_ x13)
          rotate_left
          · refine Does.ite' (fun r => Prod.snd (r)) ?_ ?_
            · split
              · refine Does.ite' (fun r => Prod.snd (r)) ?_ ?_
                · split
                  · rename_i x25 x26
                    refine (fun h27 : Does 0x206991f6ff8 o x25 => ?_) (Does.named1 ?_ x26)
                    rotate_left
                    · exact Does.trans ‹_› State.winAdd_does rfl
                    dsimp -zeta -iota only
                    assumption
                  · rename_i x28 x29
                    refine (fun h30 : Does 0x206991f6ff8 o x28 => ?_) (Does.named1 ?_ x29)
                    rotate_left
                    · exact Does.trans ‹_› State.winAdd_does rfl
                    dsimp -zeta -iota only
                    assumption
                · dsimp -zeta -iota only
                  assumption
              · dsimp -zeta -iota only
                assumption
            · refine Does.ite' (fun r => Prod.snd (r)) ?_ ?_
              · split
                rename_i x31 x32
                refine (fun h33 : Does 0x206991f6ff8 o x31 => ?_) (Does.named1 ?_ x32)
                rotate_left
                · exact Does.trans ‹_› State.l1Yield_does rfl
                refine Does.ite' (fun r => Prod.snd (r)) ?_ ?_
                · exact Does.trans ‹_› State.amoHost_does rfl
                · dsimp -zeta -iota only
                  assumption
              · split
                · dsimp -zeta -iota only
                  assumption
                · exact Does.trans ‹_› State.amoDram_does rfl
          extract_lets +onlyGivenNames x34
          have h35 : Does 0x206991f6ff8 o x34 := by
            unfold x34
            exact Does.trans ‹_› State.retire_does rfl
          clear_value x34
          refine Does.ite ?_ ?_
          · exact Does.trans ‹_› State.acqAll_does rfl
          · assumption
        · exact Does.trans ‹_› State.stall_does rfl

theorem State.performAccess_does {o a2 a3 a4} : Does 0x297bb9ffff8 o (State.performAccess o a2 a3 a4) := by
  unfold State.performAccess
  split
  · exact Does.refl
  · refine Does.ite ?_ ?_
    · exact Does.refl
    · extract_lets +onlyGivenNames x1
      have h2 : Does 0x297bb9ffff8 o x1 := by
        unfold x1
        exact Does.trans Does.refl State.modThread_does rfl
      clear_value x1
      split
      · exact Does.trans ‹_› State.runLoad_does rfl
      · exact Does.trans ‹_› State.runStore_does rfl
      · exact Does.trans ‹_› State.runAmo_does rfl
      · assumption

theorem State.xferToHold_does {o a2 a3 a4} : Does 0x3000 o (State.xferToHold o a2 a3 a4).2 := by
  unfold State.xferToHold
  dsimp -zeta -iota only
  exact Does.trans Does.refl State.holdPut_does rfl

theorem State.xferXl_does {o a2 a3 a4} : Does 0x4981001f8 o (State.xferXl o a2 a3 a4).2 := by
  unfold State.xferXl
  refine Does.ite' (fun r => Prod.snd (r)) ?_ ?_
  · dsimp -zeta -iota only
    exact Does.refl
  · split
    · rename_i x1 x2
      refine (fun h3 : Does 0x4981001f8 o x1 => ?_) (Does.named1 ?_ x2)
      rotate_left
      · exact Does.trans Does.refl State.translate_does rfl
      dsimp -zeta -iota only
      assumption
    · rename_i x4 x5
      refine (fun h6 : Does 0x4981001f8 o x4 => ?_) (Does.named1 ?_ x5)
      rotate_left
      · exact Does.trans Does.refl State.translate_does rfl
      dsimp -zeta -iota only
      assumption
    · rename_i x7 x8
      refine (fun h9 : Does 0x4981001f8 o x7 => ?_) (Does.named1 ?_ x8)
      rotate_left
      · exact Does.trans Does.refl State.translate_does rfl
      dsimp -zeta -iota only
      assumption

theorem State.hostPoison_does {o a2} : Does 0x8000000 o (State.hostPoison o a2) := by
  unfold State.hostPoison
  exact Does.trans Does.refl State.modPort_does rfl

theorem State.xferPatch_does {o a2 a3 a4 a5} : Does 0x100 o (State.xferPatch o a2 a3 a4 a5) := by
  unfold State.xferPatch
  exact Does.modBasin Does.refl

theorem State.xferTo_does {o a2 a3 a4} : Does 0x206991b6ff8 o (State.xferTo o a2 a3 a4).2 := by
  unfold State.xferTo
  extract_lets +onlyGivenNames x1
  split
  · rename_i x2 x3
    refine (fun h4 : Does 0x206991b6ff8 o x2 => ?_) (Does.named1 ?_ x3)
    rotate_left
    · exact Does.trans Does.refl State.xferXl_does rfl
    dsimp -zeta -iota only
    assumption
  · rename_i x5 x6
    refine (fun h7 : Does 0x206991b6ff8 o x5 => ?_) (Does.named1 ?_ x6)
    rotate_left
    · exact Does.trans Does.refl State.xferXl_does rfl
    extract_lets +onlyGivenNames x8
    clear_value x8
    refine Does.ite' (fun r => Prod.snd (r)) ?_ ?_
    · extract_lets +onlyGivenNames x9
      clear_value x9
      refine Does.ite' (fun r => Prod.snd (r)) ?_ ?_
      · dsimp -zeta -iota only
        assumption
      · refine Does.ite' (fun r => Prod.snd (r)) ?_ ?_
        · dsimp -zeta -iota only
          assumption
        · split
          rename_i x10 x11
          refine (fun h12 : Does 0x206991b6ff8 o x10 => ?_) (Does.named1 ?_ x11)
          rotate_left
          · exact Does.trans ‹_› State.hostWrite_does rfl
          dsimp -zeta -iota only
          refine Does.ite ?_ ?_
          · exact Does.trans ‹_› State.hostPoison_does rfl
          · assumption
    · refine Does.ite' (fun r => Prod.snd (r)) ?_ ?_
      · refine Does.ite' (fun r => Prod.snd (r)) ?_ ?_
        · dsimp -zeta -iota only
          assumption
        · dsimp -zeta -iota only
          refine Does.ite ?_ ?_
          · assumption
          · exact Does.trans ‹_› State.erhPut_does rfl
      · refine Does.ite' (fun r => Prod.snd (r)) ?_ ?_
        · dsimp -zeta -iota only
          assumption
        · split
          · dsimp -zeta -iota only
            assumption
          · refine Does.ite' (fun r => Prod.snd (r)) ?_ ?_
            · dsimp -zeta -iota only
              assumption
            · refine Does.ite' (fun r => Prod.snd (r)) ?_ ?_
              · dsimp -zeta -iota only
                assumption
              · split
                rename_i x13 x14
                refine (fun h15 : Does 0x206991b6ff8 o x13 => ?_) (Does.named2 ?_ x14)
                rotate_left
                · exact Does.trans ‹_› State.homeWrite_does rfl
                refine Does.ite' (fun r => Prod.snd (r)) ?_ ?_
                · dsimp -zeta -iota only
                  assumption
                · refine Does.ite' (fun r => Prod.snd (r)) ?_ ?_
                  · dsimp -zeta -iota only
                    assumption
                  · dsimp -zeta -iota only
                    exact Does.trans ‹_› State.xferPatch_does rfl

theorem State.xferPackedTo_does {o a2 a3 a4 a5 a6} : Does 0x206991b7ff8 o (State.xferPackedTo o a2 a3 a4 a5 a6).2 := by
  unfold State.xferPackedTo
  refine Does.ite' (fun r => Prod.snd (r)) ?_ ?_
  · exact Does.trans Does.refl State.xferToHold_does rfl
  · exact Does.trans Does.refl State.xferTo_does rfl

theorem State.xferFrom_does {o a2 a3 a4 a5 a6} : Does 0x206991b6ff8 o (State.xferFrom o a2 a3 a4 a5 a6).2 := by
  unfold State.xferFrom
  split
  · rename_i x1 x2
    refine (fun h3 : Does 0x206991b6ff8 o x1 => ?_) (Does.named1 ?_ x2)
    rotate_left
    · exact Does.trans Does.refl State.xferXl_does rfl
    dsimp -zeta -iota only
    assumption
  · rename_i x4 x5
    refine (fun h6 : Does 0x206991b6ff8 o x4 => ?_) (Does.named1 ?_ x5)
    rotate_left
    · exact Does.trans Does.refl State.xferXl_does rfl
    refine Does.ite' (fun r => Prod.snd (r)) ?_ ?_
    · split
      rename_i x7 x8
      refine (fun h9 : Does 0x206991b6ff8 o x7 => ?_) (Does.named1 ?_ x8)
      rotate_left
      · exact Does.trans ‹_› State.hostRead_does rfl
      refine Does.ite' (fun r => Prod.snd (r)) ?_ ?_
      · dsimp -zeta -iota only
        assumption
      · refine Does.ite' (fun r => Prod.snd (r)) ?_ ?_
        · dsimp -zeta -iota only
          assumption
        · dsimp -zeta -iota only
          assumption
    · refine Does.ite' (fun r => Prod.snd (r)) ?_ ?_
      · extract_lets +onlyGivenNames x10
        clear_value x10
        refine Does.ite' (fun r => Prod.snd (r)) ?_ ?_
        · dsimp -zeta -iota only
          assumption
        · refine Does.ite' (fun r => Prod.snd (r)) ?_ ?_
          · dsimp -zeta -iota only
            assumption
          · refine Does.ite' (fun r => Prod.snd (r)) ?_ ?_
            · dsimp -zeta -iota only
              assumption
            · extract_lets +onlyGivenNames x11 x12
              clear_value x11 x12
              dsimp -zeta -iota only
              exact Does.trans ‹_› State.erhGet_does rfl
      · refine Does.ite' (fun r => Prod.snd (r)) ?_ ?_
        · dsimp -zeta -iota only
          assumption
        · split
          · dsimp -zeta -iota only
            assumption
          · split
            rename_i x13 x14
            refine (fun h15 : Does 0x206991b6ff8 o x13 => ?_) (Does.named1 ?_ x14)
            rotate_left
            · exact Does.trans ‹_› State.basinRead_does rfl
            extract_lets +onlyGivenNames x16
            clear_value x16
            refine Does.ite' (fun r => Prod.snd (r)) ?_ ?_
            · dsimp -zeta -iota only
              assumption
            · refine Does.ite' (fun r => Prod.snd (r)) ?_ ?_
              · dsimp -zeta -iota only
                assumption
              · dsimp -zeta -iota only
                assumption

theorem State.xferFromHold_does {o a2 a3 a4 a5} : Does 0x4900b6018 o (State.xferFromHold o a2 a3 a4 a5).2 := by
  unfold State.xferFromHold
  extract_lets +onlyGivenNames x1 x2
  clear_value x1 x2
  refine Does.ite' (fun r => Prod.snd (r)) ?_ ?_
  · dsimp -zeta -iota only
    exact Does.trans Does.refl State.cnt_does rfl
  · refine Does.ite' (fun r => Prod.snd (r)) ?_ ?_
    · extract_lets +onlyGivenNames x3 x4 x5
      clear_value x3 x4 x5
      dsimp -zeta -iota only
      exact Does.trans Does.refl State.holdParity_does rfl
    · dsimp -zeta -iota only
      exact Does.refl

theorem State.xferPackedFrom_does {o a2 a3 a4 a5 a6} : Does 0x206991b6ff8 o (State.xferPackedFrom o a2 a3 a4 a5 a6).2 := by
  unfold State.xferPackedFrom
  refine Does.ite' (fun r => Prod.snd (r)) ?_ ?_
  · exact Does.trans Does.refl State.xferFromHold_does rfl
  · exact Does.trans Does.refl State.xferFrom_does rfl

theorem State.xferIndex_does {o a2 a3 a4} : Does 0x206991b6ff8 o (State.xferIndex o a2 a3 a4).2.2 := by
  unfold State.xferIndex
  extract_lets +onlyGivenNames x1
  clear_value x1
  split
  rename_i x2 x3
  refine (fun h4 : Does 0x206991b6ff8 o x2 => ?_) (Does.named1 ?_ x3)
  rotate_left
  · exact Does.trans Does.refl State.xferFrom_does rfl
  split
  · refine Does.ite' (fun r => Prod.snd (Prod.snd (r))) ?_ ?_
    · dsimp -zeta -iota only
      assumption
    · dsimp -zeta -iota only
      assumption
  · dsimp -zeta -iota only
    assumption

theorem State.xferSector_does {o a2 a3 a4} : Does 0x206991b7ff8 o (State.xferSector o a2 a3 a4).2 := by
  unfold State.xferSector
  extract_lets +onlyGivenNames x1 x2 x3
  clear_value x1 x2
  refine Does.ite' (fun r => Prod.snd (r)) ?_ ?_
  · extract_lets +onlyGivenNames x4
    clear_value x4
    split
    rename_i x5 x6
    refine (fun h7 : Does 0x206991b7ff8 o x5 => ?_) (Does.named1 ?_ x6)
    rotate_left
    · exact Does.trans Does.refl State.xferFrom_does rfl
    unfold x3
    refine Does.ite' (fun r => Prod.snd (r)) ?_ ?_
    · beta_reduce
      exact Does.trans ‹_› State.xferPackedTo_does rfl
    · dsimp -zeta -iota only
      assumption
  · refine Does.ite' (fun r => Prod.snd (r)) ?_ ?_
    · extract_lets +onlyGivenNames x8
      clear_value x8
      split
      rename_i x9 x10
      refine (fun h11 : Does 0x206991b7ff8 o x9 => ?_) (Does.named1 ?_ x10)
      rotate_left
      · exact Does.trans Does.refl State.xferPackedFrom_does rfl
      unfold x3
      refine Does.ite' (fun r => Prod.snd (r)) ?_ ?_
      · beta_reduce
        exact Does.trans ‹_› State.xferTo_does rfl
      · dsimp -zeta -iota only
        assumption
    · split
      · rename_i x12 x13
        refine (fun h14 : Does 0x206991b7ff8 o x12 => ?_) (Does.named2 ?_ x13)
        rotate_left
        · exact Does.trans Does.refl State.xferIndex_does rfl
        extract_lets +onlyGivenNames x15 x16 x17
        clear_value x15 x16 x17
        refine Does.ite' (fun r => Prod.snd (r)) ?_ ?_
        · refine Does.ite' (fun r => Prod.snd (r)) ?_ ?_
          · exact Does.trans ‹_› State.xferPackedTo_does rfl
          · split
            rename_i x18 x19
            refine (fun h20 : Does 0x206991b7ff8 o x18 => ?_) (Does.named1 ?_ x19)
            rotate_left
            · exact Does.trans ‹_› State.xferFrom_does rfl
            refine Does.ite' (fun r => Prod.snd (r)) ?_ ?_
            · exact Does.trans ‹_› State.xferPackedTo_does rfl
            · dsimp -zeta -iota only
              assumption
        · refine Does.ite' (fun r => Prod.snd (r)) ?_ ?_
          · dsimp -zeta -iota only
            assumption
          · split
            rename_i x21 x22
            refine (fun h23 : Does 0x206991b7ff8 o x21 => ?_) (Does.named1 ?_ x22)
            rotate_left
            · exact Does.trans ‹_› State.xferPackedFrom_does rfl
            unfold x3
            refine Does.ite' (fun r => Prod.snd (r)) ?_ ?_
            · beta_reduce
              split
              rename_i x24 x25
              refine (fun h26 : Does 0x206991b7ff8 o x24 => ?_) (Does.named1 ?_ x25)
              rotate_left
              · exact Does.trans ‹_› State.xferTo_does rfl
              dsimp -zeta -iota only
              assumption
            · dsimp -zeta -iota only
              assumption
      · rename_i x27 _ x28
        refine (fun h29 : Does 0x206991b7ff8 o x27 => ?_) (Does.named2 ?_ x28)
        rotate_left
        · exact Does.trans Does.refl State.xferIndex_does rfl
        dsimp -zeta -iota only
        assumption

theorem State.bargeSect_does {o a2} : Does 0x80010 o (State.bargeSect o a2) := by
  unfold State.bargeSect
  exact Does.trans (Does.trans (Does.trans Does.refl State.cnt_does rfl) State.pmc_does rfl) State.modCmd_does rfl

theorem State.xferEnd_does {o a2 a3} : Does 0x206991b6ff8 o (State.xferEnd o a2 a3) := by
  unfold State.xferEnd
  extract_lets +onlyGivenNames x1 x2 x3
  clear_value x1 x2
  have h4 : Does 0x206991b6ff8 o x3 := by
    unfold x3
    exact Does.modEng Does.refl
  clear_value x3
  extract_lets +onlyGivenNames x5 x6
  clear_value x5
  have h7 : Does 0x206991b6ff8 o x6 := by
    unfold x6
    exact Does.trans ‹_› State.trace_does rfl
  clear_value x6
  exact Does.trans (Does.trans ‹_› State.gotClear_does rfl) State.closeTicket_does rfl

theorem State.xferLoop_does {a1 a2 a3 a4 o} : Does 0x206991b7ff8 o (State.xferLoop a1 a2 a3 a4 o).2.2 := by
  induction a3 generalizing a1 a2 a4 o
  · unfold State.xferLoop
    dsimp -zeta -iota only
    exact Does.refl
  · rename_i ih
    unfold State.xferLoop
    split
    · rename_i x1 x2
      refine (fun h3 : Does 0x206991b7ff8 o x1 => ?_) (Does.named1 ?_ x2)
      rotate_left
      · exact Does.trans Does.refl State.xferSector_does rfl
      exact Does.trans (Does.trans ‹_› State.bargeSect_does rfl) (ih ..) rfl
    · rename_i x4 x5
      refine (fun h6 : Does 0x206991b7ff8 o x4 => ?_) (Does.named1 ?_ x5)
      rotate_left
      · exact Does.trans Does.refl State.xferSector_does rfl
      exact Does.trans ‹_› (ih ..) rfl
    · rename_i x7 x8
      refine (fun h9 : Does 0x206991b7ff8 o x7 => ?_) (Does.named1 ?_ x8)
      rotate_left
      · exact Does.trans Does.refl State.xferSector_does rfl
      dsimp -zeta -iota only
      assumption
    · rename_i x10 x11
      refine (fun h12 : Does 0x206991b7ff8 o x10 => ?_) (Does.named1 ?_ x11)
      rotate_left
      · exact Does.trans Does.refl State.xferSector_does rfl
      dsimp -zeta -iota only
      exact Does.modMem ‹_›
    · rename_i x13 x14
      refine (fun h15 : Does 0x206991b7ff8 o x13 => ?_) (Does.named1 ?_ x14)
      rotate_left
      · exact Does.trans Does.refl State.xferSector_does rfl
      dsimp -zeta -iota only
      assumption

theorem execTransferComplete_does {a1 a2 a3 o} : OutDoes 0x206991b7ff8 o (execTransferComplete a1 a2 a3 o) := by
  unfold execTransferComplete
  refine OutDoes.needSome fun a1 => ?_
  refine OutDoes.need (OutDoes.need (OutDoes.next ?_))
  refine Does.ite ?_ ?_
  · exact Does.trans Does.refl State.xferEnd_does rfl
  · extract_lets +onlyGivenNames x2
    clear_value x2
    split
    · exact Does.trans Does.refl State.xferEnd_does rfl
    · split
      · rename_i x3 x4
        refine (fun h5 : Does 0x206991b7ff8 o x3 => ?_) (Does.named2 ?_ x4)
        rotate_left
        · exact Does.trans Does.refl State.xferLoop_does rfl
        exact Does.trans (Does.trans ‹_› State.chargeRemote_does rfl) State.xferEnd_does rfl
      · rename_i x6 x7
        refine (fun h8 : Does 0x206991b7ff8 o x6 => ?_) (Does.named2 ?_ x7)
        rotate_left
        · exact Does.trans Does.refl State.xferLoop_does rfl
        exact Does.modEng (Does.trans ‹_› State.chargeRemote_does rfl)

theorem State.handlerNext_does {o a2 a3} : Does 0x10000 o (State.handlerNext o a2 a3) := by
  unfold State.handlerNext
  extract_lets +onlyGivenNames x1
  clear_value x1
  exact Does.trans Does.refl State.modThread_does rfl

theorem State.legal_does {w : Nat} {o s : State} {tid : Nat} {b : Bool} {k : State → State} (h : Does w o s)
    (hk : ∀ r, Does w o r → Does w o (k r)) (hm : 0x206981b6ff8 &&& w = 0x206981b6ff8) : Does w o (State.legal s tid b k) :=
  Does.ite (hk _ h) (Does.trans h State.trap_does (Does.sub rfl hm))

theorem State.ticketResult_does {o a2 a3} : Does 0x20000 o (State.ticketResult o a2 a3).2 := by
  unfold State.ticketResult
  extract_lets +onlyGivenNames x1 x2 x3 x4 x5 x6
  clear_value x1 x2 x3 x4 x5 x6
  dsimp -zeta -iota only
  refine Does.ite ?_ ?_
  · exact Does.refl
  · exact Does.modThr Does.refl

theorem State.ticketEnd_does {o a2 a3 a4 a5 a6} : Does 0xb0110 o (State.ticketEnd o a2 a3 a4 a5 a6) := by
  unfold State.ticketEnd
  split
  rename_i x1 x2
  refine (fun h3 : Does 0xb0110 o x1 => ?_) (Does.named1 ?_ x2)
  rotate_left
  · exact Does.trans Does.refl State.ticketResult_does rfl
  extract_lets +onlyGivenNames x4
  have h5 : Does 0xb0110 o x4 := by
    unfold x4
    exact Does.trans ‹_› State.retire_does rfl
  clear_value x4
  refine Does.ite ?_ ?_
  · exact Does.trans ‹_› State.acqAll_does rfl
  · assumption

theorem State.opTwait_does {o a2 a3 a4 a5 a6 a7} : Does 0x206981b6ff8 o (State.opTwait o a2 a3 a4 a5 a6 a7) := by
  unfold State.opTwait
  extract_lets +onlyGivenNames x1 x2
  clear_value x1 x2
  refine State.legal_does ?_ (fun y3 y4 => ?_) rfl
  · exact Does.refl
  · refine Does.ite ?_ ?_
    · extract_lets +onlyGivenNames x8
      have h9 : Does 0x206981b6ff8 o x8 := by
        unfold x8
        exact Does.trans ‹_› State.retire_does rfl
      clear_value x8
      refine Does.ite ?_ ?_
      · exact Does.trans ‹_› State.acqAll_does rfl
      · assumption
    · refine Does.ite ?_ ?_
      · exact Does.trans ‹_› State.ticketEnd_does rfl
      · exact Does.trans ‹_› State.modThread_does rfl

theorem execTwait_does {a1 a2 a3 a4 o} : OutDoes 0x206991b6ff8 o (execTwait a1 a2 a3 a4 o) := by
  unfold execTwait
  refine State.issue_does ?_ (fun y1 y2 y3 => ?_) rfl
  · exact Does.refl
  · exact Does.trans ‹_› State.opTwait_does rfl

theorem State.lineBack_does {o a2 a3 a4} : Does 0x980003f8 o (State.lineBack o a2 a3 a4).2 := by
  unfold State.lineBack
  extract_lets +onlyGivenNames x1 x2
  clear_value x1 x2
  split
  rename_i x3 x4
  refine (fun h5 : Does 0x980003f8 o x3 => ?_) (Does.named1 ?_ x4)
  rotate_left
  · exact Does.trans Does.refl State.l1Flush_does rfl
  refine Does.ite' (fun r => Prod.snd (r)) ?_ ?_
  · dsimp -zeta -iota only
    assumption
  · extract_lets +onlyGivenNames x6
    have h7 : Does 0x980003f8 o x6 := by
      unfold x6
      refine Does.ite ?_ ?_
      · refine Does.foldl ?_ fun r8 x9 h10 => ?_
        · assumption
        · exact Does.trans ‹_› State.l1DropSec_does rfl
      · assumption
    clear_value x6
    refine Does.ite' (fun r => Prod.snd (r)) ?_ ?_
    · dsimp -zeta -iota only
      assumption
    · split
      rename_i x11 x12
      refine (fun h13 : Does 0x980003f8 o x11 => ?_) (Does.named1 ?_ x12)
      rotate_left
      · exact Does.trans ‹_› State.farWbU_does rfl
      refine Does.ite' (fun r => Prod.snd (r)) ?_ ?_
      · dsimp -zeta -iota only
        assumption
      · dsimp -zeta -iota only
        refine Does.ite ?_ ?_
        · exact Does.trans (Does.trans ‹_› State.farEvict_does rfl) State.dirRemove_does rfl
        · assumption

theorem State.withCtr_does {w : Nat} {o s : State} {tid : Nat} {t : Thread} {v : Word} {k : Nat → Nat → Word → State → State}
    (h : Does w o s) (hk : ∀ a b c r, Does w o r → Does w o (k a b c r)) (hm : 0x206981b6ff8 &&& w = 0x206981b6ff8) :
    Does w o (State.withCtr s tid t v k) := by
  have e (c a : Nat) : Does w o (s.trap tid c a) := Does.trans h State.trap_does (Does.sub rfl hm)
  unfold State.withCtr
  split
  · exact e _ _
  · split
    · exact Does.ite (hk _ _ _ _ h) (e _ _)
    · exact e _ _

theorem State.moorJournal_does {o a2 a3 a4 a5} : Does 0x80000 o (State.moorJournal o a2 a3 a4 a5) := by
  unfold State.moorJournal
  refine Does.ite ?_ ?_
  · exact Does.trans Does.refl State.modCmd_does rfl
  · exact Does.refl

theorem execEcall_does {a1 o} : OutDoes 0x206991b6ff8 o (execEcall a1 o) := by
  unfold execEcall
  refine State.issue_does ?_ (fun y1 y2 y3 => ?_) rfl
  · exact Does.refl
  · exact Does.trans ‹_› State.trap_does rfl

theorem execTwaitAcq_does {a1 a2 a3 a4 o} : OutDoes 0x206991b6ff8 o (execTwaitAcq a1 a2 a3 a4 o) := by
  unfold execTwaitAcq
  refine State.issue_does ?_ (fun y1 y2 y3 => ?_) rfl
  · exact Does.refl
  · exact Does.trans ‹_› State.opTwait_does rfl

theorem State.fenceRanges_does {o a2 a3 a4 a5} : Does 0x4981001f8 o (State.fenceRanges o a2 a3 a4 a5).2 := by
  unfold State.fenceRanges
  refine Does.ite' (fun r => Prod.snd (r)) ?_ ?_
  · dsimp -zeta -iota only
    exact Does.refl
  · extract_lets +onlyGivenNames x1 x2
    clear_value x1 x2
    refine foldl_keeps (fun r => Does 0x4981001f8 o (Prod.snd (r))) ?_ fun r3 x4 h5 => ?_
    · dsimp -zeta -iota only
      exact Does.refl
    · split
      · rename_i x6 x7
        refine (fun h8 : Does 0x4981001f8 o x6 => ?_) (Does.named1 ?_ x7)
        rotate_left
        · exact Does.trans ‹_› State.translate_does rfl
        dsimp -zeta -iota only
        assumption
      · rename_i x9 x10
        refine (fun h11 : Does 0x4981001f8 o x9 => ?_) (Does.named1 ?_ x10)
        rotate_left
        · exact Does.trans ‹_› State.translate_does rfl
        dsimp -zeta -iota only
        assumption
      · rename_i x12 x13
        refine (fun h14 : Does 0x4981001f8 o x12 => ?_) (Does.named1 ?_ x13)
        rotate_left
        · exact Does.trans ‹_› State.translate_does rfl
        dsimp -zeta -iota only
        assumption

theorem State.newTicket_does {o a2 a3 a4} : Does 0xb0010 o (State.newTicket o a2 a3 a4).2 := by
  unfold State.newTicket
  exact Does.trans (Does.trans Does.refl State.countIssue_does rfl) State.issueTicket_does rfl

theorem State.deadTicket_does {o a2 a3 a4 a5} : Does 0x206981b6ff8 o (State.deadTicket o a2 a3 a4 a5) := by
  unfold State.deadTicket
  split
  rename_i x1 x2
  refine (fun h3 : Does 0x206981b6ff8 o x1 => ?_) (Does.named1 ?_ x2)
  rotate_left
  · exact Does.trans Does.refl State.newTicket_does rfl
  exact Does.trans ‹_› State.closeTicket_does rfl

theorem State.newXfer_does {o a2 a3 a4 a5 a6 a7 a8 a9 a10} : Does 0x4000 o (State.newXfer o a2 a3 a4 a5 a6 a7 a8 a9 a10) := by
  unfold State.newXfer
  extract_lets +onlyGivenNames x1 x2
  clear_value x1 x2
  exact Does.modEng Does.refl

theorem State.opGath_does {o a2 a3 a4 a5 a6 a7 a8} : Does 0x207991b6ff8 o (State.opGath o a2 a3 a4 a5 a6 a7 a8) := by
  unfold State.opGath
  extract_lets +onlyGivenNames x1 x2 x3 x4
  clear_value x1 x2 x3 x4
  refine State.legal_does ?_ (fun y5 y6 => ?_) rfl
  · exact Does.refl
  · refine Does.ite ?_ ?_
    · assumption
    · split
      · rename_i x10 x11
        refine (fun h12 : Does 0x207991b6ff8 o x10 => ?_) (Does.named1 ?_ x11)
        rotate_left
        · exact Does.trans ‹_› State.loadBytes_does rfl
        extract_lets +onlyGivenNames x13 x14 x15
        clear_value x13 x14 x15
        refine Does.ite ?_ ?_
        · exact Does.trans ‹_› State.deadTicket_does rfl
        · refine State.legal_does ?_ (fun y16 y17 => ?_) rfl
          · assumption
          · refine Does.ite ?_ ?_
            · exact Does.trans ‹_› State.deadTicket_does rfl
            · split
              rename_i x21 x22
              refine (fun h23 : Does 0x207991b6ff8 o x21 => ?_) (Does.named1 ?_ x22)
              rotate_left
              · exact Does.trans ‹_› State.newTicket_does rfl
              exact Does.trans ‹_› State.newXfer_does rfl
      · rename_i x24 _ x25
        refine (fun h26 : Does 0x207991b6ff8 o x24 => ?_) (Does.named1 ?_ x25)
        rotate_left
        · exact Does.trans ‹_› State.loadBytes_does rfl
        exact Does.trans ‹_› State.stall_does rfl

theorem State.fenceRel_does {o a2 a3 a4} : Does 0x980103f8 o (State.fenceRel o a2 a3 a4).2 := by
  unfold State.fenceRel
  split
  rename_i x1 x2
  refine (fun h3 : Does 0x980103f8 o x1 => ?_) (Does.named1 ?_ x2)
  rotate_left
  · refine foldl_keeps (fun r => Does 0x980103f8 o (Prod.snd (r))) ?_ fun r4 x5 h6 => ?_
    · dsimp -zeta -iota only
      exact Does.refl
    · split
      rename_i x7 x8
      refine (fun h9 : Does 0x980103f8 o x7 => ?_) (Does.named1 ?_ x8)
      rotate_left
      · exact Does.trans ‹_› State.release_does rfl
      dsimp -zeta -iota only
      assumption
  refine Does.ite' (fun r => Prod.snd (r)) ?_ ?_
  · dsimp -zeta -iota only
    assumption
  · refine Does.ite' (fun r => Prod.snd (r)) ?_ ?_
    · dsimp -zeta -iota only
      exact Does.trans ‹_› State.modThread_does rfl
    · dsimp -zeta -iota only
      assumption

theorem State.opAmo_does {o a2 a3 a4 a5 a6 a7 a8 a9 a10 a11} : Does 0x206991f6ff8 o (State.opAmo o a2 a3 a4 a5 a6 a7 a8 a9 a10 a11) := by
  unfold State.opAmo
  split
  rename_i x1 x2
  refine (fun h3 : Does 0x206991f6ff8 o x1 => ?_) (Does.named1 ?_ x2)
  rotate_left
  · refine Does.ite' (fun r => Prod.snd (r)) ?_ ?_
    · exact Does.trans Does.refl State.fenceRel_does rfl
    · dsimp -zeta -iota only
      exact Does.refl
  refine Does.ite ?_ ?_
  · exact Does.trans ‹_› State.runAmo_does rfl
  · assumption

theorem execAmo_does {a1 a2 a3 a4 a5 a6 a7 a8 a9 o} : OutDoes 0x206991f6ff8 o (execAmo a1 a2 a3 a4 a5 a6 a7 a8 a9 o) := by
  unfold execAmo
  refine State.issue_does ?_ (fun y1 y2 y3 => ?_) rfl
  · exact Does.refl
  · refine State.legal_does ?_ (fun y6 y7 => ?_) rfl
    · assumption
    · exact Does.trans ‹_› State.opAmo_does rfl

theorem State.rangeEnd_does {o a2 a3 a4 a5} : Does 0x206991b6ff8 o (State.rangeEnd o a2 a3 a4 a5) := by
  unfold State.rangeEnd
  split
  · exact Does.trans Does.refl State.retire_does rfl
  · exact Does.refl
  · exact Does.trans Does.refl State.trap_does rfl
  · exact Does.trans Does.refl State.trapSt_does rfl
  · exact Does.trans Does.refl State.stall_does rfl

theorem execMpop_does {a1 a2 a3 a4 o} : OutDoes 0x206995b6ff8 o (execMpop a1 a2 a3 a4 o) := by
  unfold execMpop
  refine State.issue_does ?_ (fun y1 y2 y3 => ?_) rfl
  · exact Does.refl
  · refine State.legal_does ?_ (fun y6 y7 => ?_) rfl
    · assumption
    · extract_lets +onlyGivenNames x11 x12
      clear_value x11
      refine Does.ite ?_ ?_
      · exact Does.trans ‹_› State.trap_does rfl
      · refine Does.ite ?_ ?_
        · unfold x12
          exact Does.trans ‹_› State.retire_does rfl
        · extract_lets +onlyGivenNames x13
          clear_value x13
          refine Does.ite ?_ ?_
          · unfold x12
            exact Does.trans (Does.trans ‹_› State.modAccount_does rfl) State.retire_does rfl
          · extract_lets +onlyGivenNames x14 x15
            clear_value x14
            have h16 : Does 0x206995b6ff8 o x15 := by
              unfold x15
              exact Does.trans (Does.drawn ‹_›) State.modBerth_does rfl
            clear_value x15
            extract_lets +onlyGivenNames x17
            have h18 : Does 0x206995b6ff8 o x17 := by
              unfold x17
              refine Does.ite ?_ ?_
              · exact Does.modBth ‹_›
              · assumption
            clear_value x17
            exact Does.trans (Does.trans ‹_› State.moorJournal_does rfl) State.retire_does rfl

theorem execLdaq_does {a1 a2 a3 a4 a5 a6 o} : OutDoes 0x207991b6ff8 o (execLdaq a1 a2 a3 a4 a5 a6 o) := by
  unfold execLdaq
  refine State.issue_does ?_ (fun y1 y2 y3 => ?_) rfl
  · exact Does.refl
  · refine State.legal_does ?_ (fun y6 y7 => ?_) rfl
    · assumption
    · exact Does.trans ‹_› State.runLoad_does rfl

theorem State.opHld_does {o a2 a3 a4 a5 a6 a7 a8 a9} : Does 0x206981b6ff8 o (State.opHld o a2 a3 a4 a5 a6 a7 a8 a9) := by
  unfold State.opHld
  extract_lets +onlyGivenNames x1 x2 x3 x4 x5 x6 x7 x8 x9
  clear_value x1 x2 x3 x4 x5 x6 x7 x8 x9
  refine State.legal_does ?_ (fun y10 y11 => ?_) rfl
  · exact Does.refl
  · refine Does.ite ?_ ?_
    · assumption
    · refine Does.ite ?_ ?_
      · exact Does.trans ‹_› State.deadTicket_does rfl
      · refine Does.ite ?_ ?_
        · exact Does.trans ‹_› State.deadTicket_does rfl
        · split
          rename_i x15 x16
          refine (fun h17 : Does 0x206981b6ff8 o x15 => ?_) (Does.named1 ?_ x16)
          rotate_left
          · exact Does.trans ‹_› State.newTicket_does rfl
          exact Does.trans ‹_› State.newXfer_does rfl

theorem execHld_does {a1 a2 a3 a4 a5 a6 o} : OutDoes 0x206991b6ff8 o (execHld a1 a2 a3 a4 a5 a6 o) := by
  unfold execHld
  refine State.issue_does ?_ (fun y1 y2 y3 => ?_) rfl
  · exact Does.refl
  · exact Does.trans ‹_› State.opHld_does rfl

theorem State.fenceAcq_does {o a2 a3} : Does 0x100 o (State.fenceAcq o a2 a3) := by
  unfold State.fenceAcq
  refine Does.foldl ?_ fun r1 x2 h3 => ?_
  · exact Does.refl
  · exact Does.trans ‹_› State.acquire_does rfl

theorem State.opFence_does {o a2 a3 a4 a5 a6 a7 a8} : Does 0x206981b6ff8 o (State.opFence o a2 a3 a4 a5 a6 a7 a8) := by
  unfold State.opFence
  refine State.legal_does ?_ (fun y1 y2 => ?_) rfl
  · exact Does.refl
  · split
    rename_i x6 x7
    refine (fun h8 : Does 0x206981b6ff8 o x6 => ?_) (Does.named1 ?_ x7)
    rotate_left
    · exact Does.trans ‹_› State.fenceRanges_does rfl
    split
    rename_i x9 x10
    refine (fun h11 : Does 0x206981b6ff8 o x9 => ?_) (Does.named1 ?_ x10)
    rotate_left
    · refine Does.ite' (fun r => Prod.snd (r)) ?_ ?_
      · exact Does.trans ‹_› State.fenceRel_does rfl
      · dsimp -zeta -iota only
        assumption
    refine Does.ite ?_ ?_
    · assumption
    · refine Does.trans ?_ State.retire_does rfl
      refine Does.ite ?_ ?_
      · exact Does.trans ‹_› State.fenceAcq_does rfl
      · assumption

theorem execFenceFull_does {a1 a2 a3 a4 o} : OutDoes 0x206991b6ff8 o (execFenceFull a1 a2 a3 a4 o) := by
  unfold execFenceFull
  refine State.issue_does ?_ (fun y1 y2 y3 => ?_) rfl
  · exact Does.refl
  · exact Does.trans ‹_› State.opFence_does rfl

theorem State.prefetch_does {o a2 a3 a4} : Does 0x498180bf8 o (State.prefetch o a2 a3 a4) := by
  unfold State.prefetch
  split
  · rename_i x1 x2
    refine (fun h3 : Does 0x498180bf8 o x1 => ?_) (Does.named1 ?_ x2)
    rotate_left
    · exact Does.trans Does.refl State.translate_does rfl
    refine Does.ite ?_ ?_
    · exact Does.trans ‹_› State.hostRead_does rfl
    · refine Does.ite ?_ ?_
      · assumption
      · split
        · assumption
        · refine Does.ite ?_ ?_
          · assumption
          · refine Does.foldl ?_ fun r4 x5 h6 => ?_
            · assumption
            · exact Does.trans ‹_› State.basinRead_does rfl
  · rename_i x7 _ x8
    refine (fun h9 : Does 0x498180bf8 o x7 => ?_) (Does.named1 ?_ x8)
    rotate_left
    · exact Does.trans Does.refl State.translate_does rfl
    assumption

theorem rangeLoop_does {w : Nat} {o s : State} {f : State → Nat → Nat → RangeStep × State} {l : List (Nat × Nat)}
    (h : Does w o s) (hf : ∀ r a n, Does w o r → Does w o (f r a n).2) : Does w o (rangeLoop f l s).2.2 := by
  induction l generalizing s with
  | nil => exact h
  | cons p t ih =>
    have k := hf s p.1 p.2 h
    unfold rangeLoop
    split
    · rename_i s1 e
      exact ih (.named1 k e)
    · rename_i r s1 _ e
      exact .named1 k e

theorem State.backStep_does {o a2 a3 a4 a5} : Does 0x4981003f8 o (State.backStep o a2 a3 a4 a5).2 := by
  unfold State.backStep
  split
  · rename_i x1 x2
    refine (fun h3 : Does 0x4981003f8 o x1 => ?_) (Does.named1 ?_ x2)
    rotate_left
    · exact Does.trans Does.refl State.translate_does rfl
    dsimp -zeta -iota only
    assumption
  · rename_i x4 x5
    refine (fun h6 : Does 0x4981003f8 o x4 => ?_) (Does.named1 ?_ x5)
    rotate_left
    · exact Does.trans Does.refl State.translate_does rfl
    dsimp -zeta -iota only
    assumption
  · rename_i x7 x8
    refine (fun h9 : Does 0x4981003f8 o x7 => ?_) (Does.named1 ?_ x8)
    rotate_left
    · exact Does.trans Does.refl State.translate_does rfl
    refine Does.ite' (fun r => Prod.snd (r)) ?_ ?_
    · split
      rename_i x10 x11
      refine (fun h12 : Does 0x4981003f8 o x10 => ?_) (Does.named1 ?_ x11)
      rotate_left
      · exact Does.trans ‹_› State.lineBack_does rfl
      dsimp -zeta -iota only
      assumption
    · split
      · dsimp -zeta -iota only
        assumption
      · split
        · split
          rename_i x13 x14
          refine (fun h15 : Does 0x4981003f8 o x13 => ?_) (Does.named1 ?_ x14)
          rotate_left
          · exact Does.trans ‹_› State.lineBack_does rfl
          dsimp -zeta -iota only
          assumption
        · dsimp -zeta -iota only
          assumption

theorem State.opBack_does {o a2 a3 a4 a5 a6 a7} : Does 0x206991b6ff8 o (State.opBack o a2 a3 a4 a5 a6 a7) := by
  unfold State.opBack
  refine State.legal_does ?_ (fun y1 y2 => ?_) rfl
  · exact Does.refl
  · split
    rename_i x6 x7
    refine (fun h8 : Does 0x206991b6ff8 o x6 => ?_) (Does.named2 ?_ x7)
    rotate_left
    · refine rangeLoop_does ?_ fun y9 y10 y11 y12 => ?_
      · assumption
      · exact Does.trans ‹_› State.backStep_does rfl
    exact Does.trans ‹_› State.rangeEnd_does rfl

theorem execBinv_does {a1 a2 a3 a4 o} : OutDoes 0x206991b6ff8 o (execBinv a1 a2 a3 a4 o) := by
  unfold execBinv
  refine State.issue_does ?_ (fun y1 y2 y3 => ?_) rfl
  · exact Does.refl
  · exact Does.trans ‹_› State.opBack_does rfl

theorem execHst_does {a1 a2 a3 a4 a5 a6 o} : OutDoes 0x206991b6ff8 o (execHst a1 a2 a3 a4 a5 a6 o) := by
  unfold execHst
  refine State.issue_does ?_ (fun y1 y2 y3 => ?_) rfl
  · exact Does.refl
  · exact Does.trans ‹_› State.opHld_does rfl

theorem State.lrscAddr_does {o a2 a3 a4 a5 a6} : Does 0x4981001f8 o (State.lrscAddr o a2 a3 a4 a5 a6).2 := by
  unfold State.lrscAddr
  refine Does.ite' (fun r => Prod.snd (r)) ?_ ?_
  · dsimp -zeta -iota only
    exact Does.refl
  · split
    · rename_i x1 x2
      refine (fun h3 : Does 0x4981001f8 o x1 => ?_) (Does.named1 ?_ x2)
      rotate_left
      · exact Does.trans Does.refl State.xl_does rfl
      dsimp -zeta -iota only
      assumption
    · rename_i x4 x5
      refine (fun h6 : Does 0x4981001f8 o x4 => ?_) (Does.named1 ?_ x5)
      rotate_left
      · exact Does.trans Does.refl State.xl_does rfl
      dsimp -zeta -iota only
      assumption
    · rename_i x7 x8
      refine (fun h9 : Does 0x4981001f8 o x7 => ?_) (Does.named1 ?_ x8)
      rotate_left
      · exact Does.trans Does.refl State.xl_does rfl
      split
      · dsimp -zeta -iota only
        assumption
      · dsimp -zeta -iota only
        assumption

theorem State.opLr_does {o a2 a3 a4 a5 a6 a7 a8 a9} : Does 0x206991b6ff8 o (State.opLr o a2 a3 a4 a5 a6 a7 a8 a9) := by
  unfold State.opLr
  extract_lets +onlyGivenNames x1 x2
  clear_value x1 x2
  split
  rename_i x3 x4
  refine (fun h5 : Does 0x206991b6ff8 o x3 => ?_) (Does.named1 ?_ x4)
  rotate_left
  · refine Does.ite' (fun r => Prod.snd (r)) ?_ ?_
    · exact Does.trans Does.refl State.fenceRel_does rfl
    · dsimp -zeta -iota only
      exact Does.refl
  refine Does.ite ?_ ?_
  · assumption
  · split
    · rename_i x6 x7
      refine (fun h8 : Does 0x206991b6ff8 o x6 => ?_) (Does.named1 ?_ x7)
      rotate_left
      · exact Does.trans ‹_› State.lrscAddr_does rfl
      exact Does.trans ‹_› State.stall_does rfl
    · rename_i x9 x10
      refine (fun h11 : Does 0x206991b6ff8 o x9 => ?_) (Does.named1 ?_ x10)
      rotate_left
      · exact Does.trans ‹_› State.lrscAddr_does rfl
      extract_lets +onlyGivenNames x12
      clear_value x12
      split
      rename_i x13 x14
      refine (fun h15 : Does 0x206991b6ff8 o x13 => ?_) (Does.named1 ?_ x14)
      rotate_left
      · refine Does.ite' (fun r => Prod.snd (r)) ?_ ?_
        · unfold State.recall
          split
          · dsimp -zeta -iota only
            assumption
          · split
            · dsimp -zeta -iota only
              assumption
            · refine Does.ite' (fun r => Prod.snd (r)) ?_ ?_
              · extract_lets +onlyGivenNames x16
                have h17 : Does 0x206991b6ff8 o x16 := by
                  unfold x16
                  exact Does.trans (Does.trans ‹_› State.farWriteBack_does rfl) State.farDrop_does rfl
                clear_value x16
                extract_lets +onlyGivenNames x18
                have h19 : Does 0x206991b6ff8 o x18 := by
                  unfold x18
                  refine Does.ite ?_ ?_
                  · exact Does.trans ‹_› State.predMove_does rfl
                  · assumption
                clear_value x18
                dsimp -zeta -iota only
                exact Does.trans ‹_› State.dirRemove_does rfl
              · dsimp -zeta -iota only
                exact Does.trans ‹_› State.biSnoop_does rfl
            · extract_lets +onlyGivenNames x20
              have h21 : Does 0x206991b6ff8 o x20 := by
                unfold x20
                refine Does.foldl ?_ fun r22 x23 h24 => ?_
                · assumption
                · exact Does.trans (Does.trans ‹_› State.farDrop_does rfl) State.dirRemove_does rfl
              clear_value x20
              refine Does.ite' (fun r => Prod.snd (r)) ?_ ?_
              · dsimp -zeta -iota only
                exact Does.trans ‹_› State.biSnoop_does rfl
              · refine Does.ite' (fun r => Prod.snd (r)) ?_ ?_
                · dsimp -zeta -iota only
                  exact Does.trans ‹_› State.biSnoop_does rfl
                · dsimp -zeta -iota only
                  assumption
        · dsimp -zeta -iota only
          assumption
      refine Does.ite ?_ ?_
      · assumption
      · split
        rename_i x25 x26
        refine (fun h27 : Does 0x206991b6ff8 o x25 => ?_) (Does.named1 ?_ x26)
        rotate_left
        · exact Does.trans ‹_› State.homeRead_does rfl
        split
        · extract_lets +onlyGivenNames x28
          have h29 : Does 0x206991b6ff8 o x28 := by
            unfold x28
            exact Does.modBasin ‹_›
          clear_value x28
          extract_lets +onlyGivenNames x30
          have h31 : Does 0x206991b6ff8 o x30 := by
            unfold x30
            exact Does.trans ‹_› State.retire_does rfl
          clear_value x30
          refine Does.ite ?_ ?_
          · exact Does.trans ‹_› State.acqAll_does rfl
          · assumption
        · exact Does.trans ‹_› State.stall_does rfl

theorem State.ctrEnd_does {o a2 a3 a4} : Does 0x90110 o (State.ctrEnd o a2 a3 a4) := by
  unfold State.ctrEnd
  exact Does.trans (Does.trans Does.refl State.acqAll_does rfl) State.retire_does rfl

theorem execCtrwaitResume_does {a1 o} : OutDoes 0x90110 o (execCtrwaitResume a1 o) := by
  unfold execCtrwaitResume
  refine OutDoes.needSome fun a1 => ?_
  refine OutDoes.need ?_
  split
  · refine OutDoes.needSome fun a2 => ?_
    exact OutDoes.need (OutDoes.next (Does.trans Does.refl State.ctrEnd_does rfl))
  · exact OutDoes.fault

theorem State.opSc_does {o a2 a3 a4 a5 a6 a7 a8 a9} : Does 0x206991b6ff8 o (State.opSc o a2 a3 a4 a5 a6 a7 a8 a9) := by
  unfold State.opSc
  extract_lets +onlyGivenNames x1 x2
  clear_value x1 x2
  split
  rename_i x3 x4
  refine (fun h5 : Does 0x206991b6ff8 o x3 => ?_) (Does.named1 ?_ x4)
  rotate_left
  · refine Does.ite' (fun r => Prod.snd (r)) ?_ ?_
    · exact Does.trans Does.refl State.fenceRel_does rfl
    · dsimp -zeta -iota only
      exact Does.refl
  extract_lets +onlyGivenNames x6
  refine Does.ite ?_ ?_
  · assumption
  · split
    · rename_i x7 x8
      refine (fun h9 : Does 0x206991b6ff8 o x7 => ?_) (Does.named1 ?_ x8)
      rotate_left
      · exact Does.trans ‹_› State.lrscAddr_does rfl
      exact Does.trans ‹_› State.stall_does rfl
    · rename_i x10 x11
      refine (fun h12 : Does 0x206991b6ff8 o x10 => ?_) (Does.named1 ?_ x11)
      rotate_left
      · exact Does.trans ‹_› State.lrscAddr_does rfl
      extract_lets +onlyGivenNames x13
      clear_value x13
      refine Does.ite ?_ ?_
      · unfold x6
        extract_lets +onlyGivenNames x14
        have h15 : Does 0x206991b6ff8 o x14 := by
          unfold x14
          exact Does.trans (Does.modBasin ‹_›) State.retire_does rfl
        clear_value x14
        refine Does.ite ?_ ?_
        · exact Does.trans ‹_› State.acqAll_does rfl
        · assumption
      · refine Does.ite ?_ ?_
        · exact Does.trans ‹_› State.trap_does rfl
        · split
          rename_i x16 x17
          refine (fun h18 : Does 0x206991b6ff8 o x16 => ?_) (Does.named2 ?_ x17)
          rotate_left
          · exact Does.trans ‹_› State.homeWrite_does rfl
          refine Does.ite ?_ ?_
          · exact Does.trans ‹_› State.trapSt_does rfl
          · refine Does.ite ?_ ?_
            · exact Does.modBasin ‹_›
            · unfold x6
              extract_lets +onlyGivenNames x19
              have h20 : Does 0x206991b6ff8 o x19 := by
                unfold x19
                exact Does.trans (Does.modBasin ‹_›) State.retire_does rfl
              clear_value x19
              refine Does.ite ?_ ?_
              · exact Does.trans ‹_› State.acqAll_does rfl
              · assumption

theorem execSc_does {a1 a2 a3 a4 a5 a6 a7 o} : OutDoes 0x206991b6ff8 o (execSc a1 a2 a3 a4 a5 a6 a7 o) := by
  unfold execSc
  refine State.issue_does ?_ (fun y1 y2 y3 => ?_) rfl
  · exact Does.refl
  · exact Does.trans ‹_› State.opSc_does rfl

theorem State.opTsub_does {o a2 a3 a4 a5 a6} : Does 0x207991b6ff8 o (State.opTsub o a2 a3 a4 a5 a6) := by
  unfold State.opTsub
  extract_lets +onlyGivenNames x1 x2
  clear_value x1 x2
  refine State.legal_does ?_ (fun y3 y4 => ?_) rfl
  · exact Does.refl
  · refine Does.ite ?_ ?_
    · exact Does.trans ‹_› State.trap_does rfl
    · refine Does.ite ?_ ?_
      · assumption
      · split
        · rename_i x8 x9
          refine (fun h10 : Does 0x207991b6ff8 o x8 => ?_) (Does.named1 ?_ x9)
          rotate_left
          · exact Does.trans ‹_› State.loadBytes_does rfl
          extract_lets +onlyGivenNames x11
          clear_value x11
          refine Does.ite ?_ ?_
          · exact Does.trans ‹_› State.deadTicket_does rfl
          · split
            rename_i x12 x13
            refine (fun h14 : Does 0x207991b6ff8 o x12 => ?_) (Does.named1 ?_ x13)
            rotate_left
            · exact Does.trans ‹_› State.newTicket_does rfl
            exact Does.modEng ‹_›
        · rename_i x15 _ x16
          refine (fun h17 : Does 0x207991b6ff8 o x15 => ?_) (Does.named1 ?_ x16)
          rotate_left
          · exact Does.trans ‹_› State.loadBytes_does rfl
          exact Does.trans ‹_› State.stall_does rfl

theorem execTsub_does {a1 a2 a3 a4 o} : OutDoes 0x207991b6ff8 o (execTsub a1 a2 a3 a4 o) := by
  unfold execTsub
  refine State.issue_does ?_ (fun y1 y2 y3 => ?_) rfl
  · exact Does.refl
  · exact Does.trans ‹_› State.opTsub_does rfl

theorem execThreadLoad_does {a1 a2 a3 a4 a5 a6 o} : OutDoes 0x207991b6ff8 o (execThreadLoad a1 a2 a3 a4 a5 a6 o) := by
  unfold execThreadLoad
  extract_lets +onlyGivenNames x1
  clear_value x1
  refine State.issue_does ?_ (fun y2 y3 y4 => ?_) rfl
  · exact Does.refl
  · exact Does.trans ‹_› State.runLoad_does rfl

theorem execCtrread_does {a1 a2 a3 a4 o} : OutDoes 0x206991b6ff8 o (execCtrread a1 a2 a3 a4 o) := by
  unfold execCtrread
  refine State.issue_does ?_ (fun y1 y2 y3 => ?_) rfl
  · exact Does.refl
  · refine State.legal_does ?_ (fun y6 y7 => ?_) rfl
    · assumption
    · refine State.withCtr_does ?_ (fun y11 y12 y13 y14 y15 => ?_) rfl
      · assumption
      · exact Does.trans ‹_› State.retire_does rfl

theorem execGath_does {a1 a2 a3 a4 a5 o} : OutDoes 0x207991b6ff8 o (execGath a1 a2 a3 a4 a5 o) := by
  unfold execGath
  refine State.issue_does ?_ (fun y1 y2 y3 => ?_) rfl
  · exact Does.refl
  · exact Does.trans ‹_› State.opGath_does rfl

theorem State.spdSector_does {o a2} : Does 0x4900809f8 o (State.spdSector o a2) := by
  unfold State.spdSector
  extract_lets +onlyGivenNames x1
  clear_value x1
  refine Does.ite ?_ ?_
  · exact Does.refl
  · extract_lets +onlyGivenNames x2
    have h3 : Does 0x4900809f8 o x2 := by
      unfold x2
      exact Does.trans Does.refl State.drainLine_does rfl
    clear_value x2
    extract_lets +onlyGivenNames x4
    have h5 : Does 0x4900809f8 o x4 := by
      unfold x4
      exact Does.modBasin ‹_›
    clear_value x4
    refine Does.ite ?_ ?_
    · extract_lets +onlyGivenNames x6
      have h7 : Does 0x4900809f8 o x6 := by
        unfold x6
        exact Does.modBasin ‹_›
      clear_value x6
      split
      rename_i x8 x9
      refine (fun h10 : Does 0x4900809f8 o x8 => ?_) (Does.named2 ?_ x9)
      rotate_left
      · exact Does.trans ‹_› State.dramSector_does rfl
      exact Does.modMem (Does.trans ‹_› State.dramPut_does rfl)
    · assumption

theorem State.faultAct_does {o a2 a3 a4} : Does 0x1b6000 o (State.faultAct o a2 a3 a4) := by
  unfold State.faultAct
  extract_lets +onlyGivenNames x1
  have h2 : Does 0x1b6000 o x1 := by
    unfold x1
    exact Does.trans Does.refl State.modBerth_does rfl
  clear_value x1
  extract_lets +onlyGivenNames x3
  have h4 : Does 0x1b6000 o x3 := by
    unfold x3
    refine Does.ite ?_ ?_
    · assumption
    · exact Does.trans ‹_› State.modCmd_does rfl
  clear_value x3
  extract_lets +onlyGivenNames x5
  clear_value x5
  refine Does.ite ?_ ?_
  · exact Does.trans ‹_› State.failCmd_does rfl
  · refine Does.ite ?_ ?_
    · exact Does.trans ‹_› State.modThread_does rfl
    · assumption

theorem State.spentHeld_does {o a2 a3} : Does 0x100 o (State.spentHeld o a2 a3) := by
  unfold State.spentHeld
  extract_lets +onlyGivenNames x1 x2
  clear_value x1
  have h3 : Does 0x100 o x2 := by
    unfold x2
    exact Does.modBasin Does.refl
  clear_value x2
  refine Does.ite ?_ ?_
  · assumption
  · exact Does.modBasin ‹_›

theorem State.spentStep_does {o a2 a3 a4 a5} : Does 0x4981809f8 o (State.spentStep o a2 a3 a4 a5).2 := by
  unfold State.spentStep
  split
  · rename_i x1 x2
    refine (fun h3 : Does 0x4981809f8 o x1 => ?_) (Does.named1 ?_ x2)
    rotate_left
    · exact Does.trans Does.refl State.translate_does rfl
    dsimp -zeta -iota only
    assumption
  · rename_i x4 x5
    refine (fun h6 : Does 0x4981809f8 o x4 => ?_) (Does.named1 ?_ x5)
    rotate_left
    · exact Does.trans Does.refl State.translate_does rfl
    dsimp -zeta -iota only
    assumption
  · rename_i x7 x8
    refine (fun h9 : Does 0x4981809f8 o x7 => ?_) (Does.named1 ?_ x8)
    rotate_left
    · exact Does.trans Does.refl State.translate_does rfl
    refine Does.ite' (fun r => Prod.snd (r)) ?_ ?_
    · dsimp -zeta -iota only
      refine Does.ite ?_ ?_
      · exact Does.trans ‹_› State.spentHeld_does rfl
      · assumption
    · split
      · dsimp -zeta -iota only
        assumption
      · split
        · dsimp -zeta -iota only
          refine Does.ite ?_ ?_
          · exact Does.trans (Does.trans ‹_› State.spentHeld_does rfl) State.spdSector_does rfl
          · assumption
        · dsimp -zeta -iota only
          assumption

theorem execSpentB_does {a1 a2 a3 a4 o} : OutDoes 0x206991b6ff8 o (execSpentB a1 a2 a3 a4 o) := by
  unfold execSpentB
  refine State.issue_does ?_ (fun y1 y2 y3 => ?_) rfl
  · exact Does.refl
  · refine State.legal_does ?_ (fun y6 y7 => ?_) rfl
    · assumption
    · extract_lets +onlyGivenNames x11 x12
      clear_value x11 x12
      split
      rename_i x13 x14
      refine (fun h15 : Does 0x206991b6ff8 o x13 => ?_) (Does.named2 ?_ x14)
      rotate_left
      · refine rangeLoop_does ?_ fun y16 y17 y18 y19 => ?_
        · assumption
        · exact Does.trans ‹_› State.spentStep_does rfl
      exact Does.trans ‹_› State.rangeEnd_does rfl

theorem execThreadStore_does {a1 a2 a3 a4 a5 o} : OutDoes 0x297bb9ffff8 o (execThreadStore a1 a2 a3 a4 a5 o) := by
  unfold execThreadStore
  extract_lets +onlyGivenNames x1
  clear_value x1
  refine State.issue_does ?_ (fun y2 y3 y4 => ?_) rfl
  · exact Does.refl
  · exact Does.trans ‹_› State.runStore_does rfl

theorem execCtrwait_does {a1 a2 a3 a4 o} : OutDoes 0x206991b6ff8 o (execCtrwait a1 a2 a3 a4 o) := by
  unfold execCtrwait
  refine State.issue_does ?_ (fun y1 y2 y3 => ?_) rfl
  · exact Does.refl
  · refine State.withCtr_does ?_ (fun y6 y7 y8 y9 y10 => ?_) rfl
    · assumption
    · refine Does.ite ?_ ?_
      · exact Does.trans ‹_› State.ctrEnd_does rfl
      · exact Does.trans ‹_› State.modThread_does rfl

theorem execKexit_does {a1 a2 a3 a4 o} : OutDoes 0x206991b6ff8 o (execKexit a1 a2 a3 a4 o) := by
  unfold execKexit
  refine State.issue_does ?_ (fun y1 y2 y3 => ?_) rfl
  · exact Does.refl
  · refine State.legal_does ?_ (fun y6 y7 => ?_) rfl
    · assumption
    · extract_lets +onlyGivenNames x11
      have h12 : Does 0x206991b6ff8 o x11 := by
        unfold x11
        exact Does.trans ‹_› State.countIssue_does rfl
      clear_value x11
      refine Does.ite ?_ ?_
      · extract_lets +onlyGivenNames x13
        clear_value x13
        exact Does.trans (Does.trans ‹_› State.modThread_does rfl) State.handlerNext_does rfl
      · exact Does.modThr ‹_›

theorem execSpentH_does {a1 a2 a3 a4 o} : OutDoes 0x206991b7ff8 o (execSpentH a1 a2 a3 a4 o) := by
  unfold execSpentH
  refine State.issue_does ?_ (fun y1 y2 y3 => ?_) rfl
  · exact Does.refl
  · extract_lets +onlyGivenNames x6 x7
    clear_value x6 x7
    refine State.legal_does ?_ (fun y8 y9 => ?_) rfl
    · assumption
    · split
      · exact Does.trans ‹_› State.retire_does rfl
      · extract_lets +onlyGivenNames x13
        clear_value x13
        refine Does.trans ?_ State.retire_does rfl
        refine Does.foldl ?_ fun r14 x15 h16 => ?_
        · assumption
        · exact Does.trans ‹_› State.holdSpent_does rfl

theorem execBwb_does {a1 a2 a3 a4 o} : OutDoes 0x206991b6ff8 o (execBwb a1 a2 a3 a4 o) := by
  unfold execBwb
  refine State.issue_does ?_ (fun y1 y2 y3 => ?_) rfl
  · exact Does.refl
  · exact Does.trans ‹_› State.opBack_does rfl

theorem State.icacheDrop_does {o a2} : Does 0x100 o (State.icacheDrop o a2) := by
  unfold State.icacheDrop
  exact Does.modBasin Does.refl

theorem execFenceI_does {a1 o} : OutDoes 0x206991b6ff8 o (execFenceI a1 o) := by
  unfold execFenceI
  refine State.issue_does ?_ (fun y1 y2 y3 => ?_) rfl
  · exact Does.refl
  · exact Does.trans (Does.trans ‹_› State.icacheDrop_does rfl) State.retire_does rfl

theorem execSdrl_does {a1 a2 a3 a4 a5 o} : OutDoes 0x297bb9ffff8 o (execSdrl a1 a2 a3 a4 a5 o) := by
  unfold execSdrl
  refine State.issue_does ?_ (fun y1 y2 y3 => ?_) rfl
  · exact Does.refl
  · refine State.legal_does ?_ (fun y6 y7 => ?_) rfl
    · assumption
    · split
      rename_i x11 x12
      refine (fun h13 : Does 0x297bb9ffff8 o x11 => ?_) (Does.named1 ?_ x12)
      rotate_left
      · exact Does.trans ‹_› State.fenceRel_does rfl
      refine Does.ite ?_ ?_
      · exact Does.trans ‹_› State.runStore_does rfl
      · assumption

theorem execMpush_does {a1 a2 a3 a4 o} : OutDoes 0x206993b6ff8 o (execMpush a1 a2 a3 a4 o) := by
  unfold execMpush
  refine State.issue_does ?_ (fun y1 y2 y3 => ?_) rfl
  · exact Does.refl
  · refine State.legal_does ?_ (fun y6 y7 => ?_) rfl
    · assumption
    · extract_lets +onlyGivenNames x11 x12
      clear_value x11 x12
      refine Does.ite ?_ ?_
      · exact Does.trans ‹_› State.trap_does rfl
      · split
        · exact Does.trans ‹_› State.trap_does rfl
        · refine Does.ite ?_ ?_
          · exact Does.trans ‹_› State.trap_does rfl
          · extract_lets +onlyGivenNames x13 x14
            clear_value x13
            have h15 : Does 0x206993b6ff8 o x14 := by
              unfold x14
              exact Does.trans ‹_› State.modBerth_does rfl
            clear_value x14
            extract_lets +onlyGivenNames x16
            have h17 : Does 0x206993b6ff8 o x16 := by
              unfold x16
              refine Does.ite ?_ ?_
              · exact Does.modBth (Does.trans ‹_› State.gcnt_does rfl)
              · assumption
            clear_value x16
            exact Does.trans (Does.trans ‹_› State.moorJournal_does rfl) State.retire_does rfl

theorem execLr_does {a1 a2 a3 a4 a5 a6 a7 o} : OutDoes 0x206991b6ff8 o (execLr a1 a2 a3 a4 a5 a6 a7 o) := by
  unfold execLr
  refine State.issue_does ?_ (fun y1 y2 y3 => ?_) rfl
  · exact Does.refl
  · exact Does.trans ‹_› State.opLr_does rfl

theorem execBpref_does {a1 a2 a3 a4 o} : OutDoes 0x206991b6ff8 o (execBpref a1 a2 a3 a4 o) := by
  unfold execBpref
  refine State.issue_does ?_ (fun y1 y2 y3 => ?_) rfl
  · exact Does.refl
  · refine State.legal_does ?_ (fun y6 y7 => ?_) rfl
    · assumption
    · refine Does.trans ?_ State.retire_does rfl
      refine Does.foldl ?_ fun r11 x12 h13 => ?_
      · assumption
      · exact Does.trans ‹_› State.prefetch_does rfl

theorem execScat_does {a1 a2 a3 a4 a5 o} : OutDoes 0x207991b6ff8 o (execScat a1 a2 a3 a4 a5 o) := by
  unfold execScat
  refine State.issue_does ?_ (fun y1 y2 y3 => ?_) rfl
  · exact Does.refl
  · exact Does.trans ‹_› State.opGath_does rfl

theorem execFenceRel_does {a1 a2 a3 a4 o} : OutDoes 0x206991b6ff8 o (execFenceRel a1 a2 a3 a4 o) := by
  unfold execFenceRel
  refine State.issue_does ?_ (fun y1 y2 y3 => ?_) rfl
  · exact Does.refl
  · exact Does.trans ‹_› State.opFence_does rfl

theorem execTwaitResume_does {a1 o} : OutDoes 0xb0110 o (execTwaitResume a1 o) := by
  unfold execTwaitResume
  refine OutDoes.needSome fun a1 => ?_
  refine OutDoes.need ?_
  split
  · exact OutDoes.need (OutDoes.next (Does.trans Does.refl State.ticketEnd_does rfl))
  · exact OutDoes.fault

theorem execCtradd_does {a1 a2 a3 a4 o} : OutDoes 0x206991f6ff8 o (execCtradd a1 a2 a3 a4 o) := by
  unfold execCtradd
  refine State.issue_does ?_ (fun y1 y2 y3 => ?_) rfl
  · exact Does.refl
  · refine State.withCtr_does ?_ (fun y6 y7 y8 y9 y10 => ?_) rfl
    · assumption
    · split
      rename_i x11 x12
      refine (fun h13 : Does 0x206991f6ff8 o x11 => ?_) (Does.named1 ?_ x12)
      rotate_left
      · exact Does.trans ‹_› State.fenceRel_does rfl
      refine Does.ite ?_ ?_
      · exact Does.trans (Does.trans ‹_› State.addCtr_does rfl) State.retire_does rfl
      · assumption

theorem execKresume_does {a1 a2 a3 a4 o} : OutDoes 0x206991b6ff8 o (execKresume a1 a2 a3 a4 o) := by
  unfold execKresume
  refine State.issue_does ?_ (fun y1 y2 y3 => ?_) rfl
  · exact Does.refl
  · extract_lets +onlyGivenNames x6 x7
    clear_value x6 x7
    split
    · exact Does.trans ‹_› State.trap_does rfl
    · refine State.legal_does ?_ (fun y8 y9 => ?_) rfl
      · assumption
      · exact Does.trans (Does.trans (Does.trans ‹_› State.faultAct_does rfl) State.retire_does rfl) State.handlerNext_does rfl

theorem execEbreak_does {a1 a2 o} : OutDoes 0x206991b6ff8 o (execEbreak a1 a2 o) := by
  unfold execEbreak
  refine State.issue_does ?_ (fun y1 y2 y3 => ?_) rfl
  · exact Does.refl
  · exact Does.trans ‹_› State.trap_does rfl

theorem execFenceAcq_does {a1 a2 a3 a4 o} : OutDoes 0x206991b6ff8 o (execFenceAcq a1 a2 a3 a4 o) := by
  unfold execFenceAcq
  refine State.issue_does ?_ (fun y1 y2 y3 => ?_) rfl
  · exact Does.refl
  · exact Does.trans ‹_› State.opFence_does rfl

theorem State.opTpoll_does {o a2 a3 a4 a5 a6} : Does 0x206981b6ff8 o (State.opTpoll o a2 a3 a4 a5 a6) := by
  unfold State.opTpoll
  refine State.legal_does ?_ (fun y1 y2 => ?_) rfl
  · exact Does.refl
  · split
    rename_i x6 x7
    refine (fun h8 : Does 0x206981b6ff8 o x6 => ?_) (Does.named1 ?_ x7)
    rotate_left
    · exact Does.trans ‹_› State.ticketResult_does rfl
    exact Does.trans ‹_› State.retire_does rfl

theorem execTpoll_does {a1 a2 a3 a4 o} : OutDoes 0x206991b6ff8 o (execTpoll a1 a2 a3 a4 o) := by
  unfold execTpoll
  refine State.issue_does ?_ (fun y1 y2 y3 => ?_) rfl
  · exact Does.refl
  · exact Does.trans ‹_› State.opTpoll_does rfl

theorem execAmofaddW_does {a1 a2 a3 a4 a5 a6 a7 o} : OutDoes 0x206991f6ff8 o (execAmofaddW a1 a2 a3 a4 a5 a6 a7 o) := by
  unfold execAmofaddW
  refine State.issue_does ?_ (fun y1 y2 y3 => ?_) rfl
  · exact Does.refl
  · exact Does.trans ‹_› State.opAmo_does rfl

end Sys2Proof.Machine
end

