-- ==== Sys2Proof/Laws/DoesKeeper.lean ====
section
/-! SUPPORT. What each operation can do, once per operation (lock-keepers and convoys). Read `Does w o t` in Laws/Does.lean. -/

set_option Elab.async false

namespace Sys2Proof.Machine

theorem State.onCmd_does {w : Nat} {o s : State} {a b : Nat} {k : Cmd → Out} (h : ∀ c, OutDoes w o (k c)) :
    OutDoes w o (State.onCmd s a b k) := OutDoes.needSome h

theorem State.publish_does {o a2} : Does 0x498180ff8 o (State.publish o a2) := by
  unfold State.publish
  split
  · exact Does.refl
  · exact Does.trans Does.refl State.vaWrite_does rfl

theorem State.complete_does {o a2 a3 a4 a5 a6} : Does 0x4981c0ff8 o (State.complete o a2 a3 a4 a5 a6).2 := by
  unfold State.complete
  split
  · dsimp -zeta -iota only
    exact Does.modLk Does.refl
  · split
    rename_i x1 x2
    refine (fun h3 : Does 0x4981c0ff8 o x1 => ?_) (Does.named2 ?_ x2)
    rotate_left
    · exact Does.trans Does.refl State.vaWrite_does rfl
    refine Does.ite' (fun r => Prod.snd (r)) ?_ ?_
    · dsimp -zeta -iota only
      assumption
    · extract_lets +onlyGivenNames x4
      have h5 : Does 0x4981c0ff8 o x4 := by
        unfold x4
        exact Does.trans ‹_› State.modAccount_does rfl
      clear_value x4
      extract_lets +onlyGivenNames x6
      have h7 : Does 0x4981c0ff8 o x6 := by
        unfold x6
        exact Does.modBth ‹_›
      clear_value x6
      extract_lets +onlyGivenNames x8 x9 x10
      clear_value x8 x9
      have h11 : Does 0x4981c0ff8 o x10 := by
        unfold x10
        exact Does.trans ‹_› State.modCtx_does rfl
      clear_value x10
      extract_lets +onlyGivenNames x12
      have h13 : Does 0x4981c0ff8 o x12 := by
        unfold x12
        exact Does.modLk ‹_›
      clear_value x12
      extract_lets +onlyGivenNames x14
      have h15 : Does 0x4981c0ff8 o x14 := by
        unfold x14
        exact Does.trans ‹_› State.publish_does rfl
      clear_value x14
      extract_lets +onlyGivenNames x16 x17
      clear_value x16 x17
      dsimp -zeta -iota only
      refine Does.ite ?_ ?_
      · exact Does.trans ‹_› State.addCtr_does rfl
      · assumption

theorem State.makeReady_does {o a2} : Does 0x4981c0ff8 o (State.makeReady o a2) := by
  unfold State.makeReady
  split
  · exact Does.refl
  · extract_lets +onlyGivenNames x1 x2
    clear_value x1
    have h3 : Does 0x4981c0ff8 o x2 := by
      unfold x2
      exact Does.trans (Does.trans Does.refl State.modCtx_does rfl) State.modCmd_does rfl
    clear_value x2
    refine Does.ite ?_ ?_
    · split
      rename_i x4 x5
      refine (fun h6 : Does 0x4981c0ff8 o x4 => ?_) (Does.named1 ?_ x5)
      rotate_left
      · exact Does.trans ‹_› State.complete_does rfl
      refine Does.ite ?_ ?_
      · assumption
      · exact Does.refl
    · assumption

theorem State.ctxStop_does {o a2 a3 a4} : Does 0x5981c0ff8 o (State.ctxStop o a2 a3 a4) := by
  unfold State.ctxStop
  split
  · exact Does.refl
  · extract_lets +onlyGivenNames x1
    have h2 : Does 0x5981c0ff8 o x1 := by
      unfold x1
      exact Does.trans (Does.trans Does.refl State.modCtx_does rfl) State.publish_does rfl
    clear_value x1
    exact Does.trans ‹_› State.event_does rfl

theorem State.leafAt_does {a1 o a3 a4 a5} : Does 0x4900001f8 o (State.leafAt a1 o a3 a4 a5).2 := by
  induction a1 generalizing o a3 a4 a5
  · unfold State.leafAt
    dsimp -zeta -iota only
    exact Does.refl
  · rename_i ih
    unfold State.leafAt
    split
    rename_i x1 x2
    refine (fun h3 : Does 0x4900001f8 o x1 => ?_) (Does.named1 ?_ x2)
    rotate_left
    · exact Does.trans Does.refl State.mapEntry_does rfl
    split
    · dsimp -zeta -iota only
      assumption
    · dsimp -zeta -iota only
      assumption
    · exact Does.trans ‹_› (ih ..) rfl

theorem State.passageBuf_does {o a2 a3 a4 a5} : Does 0x4900001f8 o (State.passageBuf o a2 a3 a4 a5).2 := by
  unfold State.passageBuf
  refine Does.ite' (fun r => Prod.snd (r)) ?_ ?_
  · dsimp -zeta -iota only
    exact Does.refl
  · split
    · rename_i x1 x2
      refine (fun h3 : Does 0x4900001f8 o x1 => ?_) (Does.named1 ?_ x2)
      rotate_left
      · exact Does.trans Does.refl State.leafAt_does rfl
      dsimp -zeta -iota only
      assumption
    · rename_i x4 x5
      refine (fun h6 : Does 0x4900001f8 o x4 => ?_) (Does.named1 ?_ x5)
      rotate_left
      · exact Does.trans Does.refl State.leafAt_does rfl
      extract_lets +onlyGivenNames x7 x8
      clear_value x7 x8
      dsimp -zeta -iota only
      assumption

theorem State.lkRead_does {o a2 a3 a4} : Does 0x498180bf8 o (State.lkRead o a2 a3 a4).2.2 := by
  unfold State.lkRead
  split
  rename_i x1 x2
  refine (fun h3 : Does 0x498180bf8 o x1 => ?_) (Does.named1 ?_ x2)
  rotate_left
  · exact Does.trans Does.refl State.vaRead_does rfl
  refine Does.ite' (fun r => Prod.snd (Prod.snd (r))) ?_ ?_
  · dsimp -zeta -iota only
    assumption
  · refine Does.ite' (fun r => Prod.snd (Prod.snd (r))) ?_ ?_
    · dsimp -zeta -iota only
      assumption
    · dsimp -zeta -iota only
      assumption

theorem State.readLive_does {o a2} : Does 0x498180bf8 o (State.readLive o a2).2.2 := by
  unfold State.readLive
  extract_lets +onlyGivenNames x1
  clear_value x1
  refine Does.ite' (fun r => Prod.snd (Prod.snd (r))) ?_ ?_
  · dsimp -zeta -iota only
    exact Does.refl
  · refine Does.ite' (fun r => Prod.snd (Prod.snd (r))) ?_ ?_
    · dsimp -zeta -iota only
      exact Does.refl
    · split
      · rename_i x2 x3
        refine (fun h4 : Does 0x498180bf8 o x2 => ?_) (Does.named2 ?_ x3)
        rotate_left
        · exact Does.trans Does.refl State.lkRead_does rfl
        dsimp -zeta -iota only
        assumption
      · rename_i x5 x6
        refine (fun h7 : Does 0x498180bf8 o x5 => ?_) (Does.named2 ?_ x6)
        rotate_left
        · exact Does.trans Does.refl State.lkRead_does rfl
        extract_lets +onlyGivenNames x8
        clear_value x8
        refine Does.ite' (fun r => Prod.snd (Prod.snd (r))) ?_ ?_
        · dsimp -zeta -iota only
          assumption
        · refine Does.ite' (fun r => Prod.snd (Prod.snd (r))) ?_ ?_
          · dsimp -zeta -iota only
            assumption
          · split
            · rename_i x9 x10
              refine (fun h11 : Does 0x498180bf8 o x9 => ?_) (Does.named2 ?_ x10)
              rotate_left
              · exact Does.trans ‹_› State.lkRead_does rfl
              dsimp -zeta -iota only
              assumption
            · rename_i x12 x13
              refine (fun h14 : Does 0x498180bf8 o x12 => ?_) (Does.named2 ?_ x13)
              rotate_left
              · exact Does.trans ‹_› State.lkRead_does rfl
              extract_lets +onlyGivenNames x15 x16
              clear_value x15 x16
              refine Does.ite' (fun r => Prod.snd (Prod.snd (r))) ?_ ?_
              · dsimp -zeta -iota only
                assumption
              · refine Does.ite' (fun r => Prod.snd (Prod.snd (r))) ?_ ?_
                · dsimp -zeta -iota only
                  assumption
                · dsimp -zeta -iota only
                  assumption

theorem State.anchorCheck_does {o a2} : Does 0x498180bf8 o (State.anchorCheck o a2).2.2 := by
  unfold State.anchorCheck
  refine Does.ite' (fun r => Prod.snd (Prod.snd (r))) ?_ ?_
  · dsimp -zeta -iota only
    exact Does.refl
  · split
    · rename_i x1 x2
      refine (fun h3 : Does 0x498180bf8 o x1 => ?_) (Does.named2 ?_ x2)
      rotate_left
      · exact Does.trans Does.refl State.lkRead_does rfl
      dsimp -zeta -iota only
      assumption
    · rename_i x4 x5
      refine (fun h6 : Does 0x498180bf8 o x4 => ?_) (Does.named2 ?_ x5)
      rotate_left
      · exact Does.trans Does.refl State.lkRead_does rfl
      extract_lets +onlyGivenNames x7 x8 x9
      clear_value x7 x8 x9
      refine Does.ite' (fun r => Prod.snd (Prod.snd (r))) ?_ ?_
      · dsimp -zeta -iota only
        assumption
      · refine Does.ite' (fun r => Prod.snd (Prod.snd (r))) ?_ ?_
        · dsimp -zeta -iota only
          assumption
        · split
          · rename_i x10 x11
            refine (fun h12 : Does 0x498180bf8 o x10 => ?_) (Does.named2 ?_ x11)
            rotate_left
            · exact Does.trans ‹_› State.lkRead_does rfl
            dsimp -zeta -iota only
            assumption
          · rename_i x13 x14
            refine (fun h15 : Does 0x498180bf8 o x13 => ?_) (Does.named2 ?_ x14)
            rotate_left
            · exact Does.trans ‹_› State.lkRead_does rfl
            extract_lets +onlyGivenNames x16
            clear_value x16
            dsimp -zeta -iota only
            assumption

theorem State.validate_does {o a2} : Does 0x498180bf8 o (State.validate o a2).2.2.2.2.2 := by
  unfold State.validate
  extract_lets +onlyGivenNames x1
  refine Does.ite' (fun r => Prod.snd (Prod.snd (Prod.snd (Prod.snd (Prod.snd (r)))))) ?_ ?_
  · unfold x1
    dsimp -zeta -iota only
    exact Does.refl
  · refine Does.ite' (fun r => Prod.snd (Prod.snd (Prod.snd (Prod.snd (Prod.snd (r)))))) ?_ ?_
    · unfold x1
      dsimp -zeta -iota only
      exact Does.refl
    · refine Does.ite' (fun r => Prod.snd (Prod.snd (Prod.snd (Prod.snd (Prod.snd (r)))))) ?_ ?_
      · unfold x1
        dsimp -zeta -iota only
        exact Does.refl
      · refine Does.ite' (fun r => Prod.snd (Prod.snd (Prod.snd (Prod.snd (Prod.snd (r)))))) ?_ ?_
        · unfold x1
          dsimp -zeta -iota only
          exact Does.refl
        · split
          · unfold x1
            dsimp -zeta -iota only
            exact Does.refl
          · refine Does.ite' (fun r => Prod.snd (Prod.snd (Prod.snd (Prod.snd (Prod.snd (r)))))) ?_ ?_
            · unfold x1
              dsimp -zeta -iota only
              exact Does.refl
            · refine Does.ite' (fun r => Prod.snd (Prod.snd (Prod.snd (Prod.snd (Prod.snd (r)))))) ?_ ?_
              · split
                · rename_i x2 x3
                  refine (fun h4 : Does 0x498180bf8 o x2 => ?_) (Does.named1 ?_ x3)
                  rotate_left
                  · exact Does.trans Does.refl State.passageBuf_does rfl
                  unfold x1
                  dsimp -zeta -iota only
                  assumption
                · rename_i x5 x6
                  refine (fun h7 : Does 0x498180bf8 o x5 => ?_) (Does.named1 ?_ x6)
                  rotate_left
                  · exact Does.trans Does.refl State.passageBuf_does rfl
                  split
                  · rename_i x8 x9
                    refine (fun h10 : Does 0x498180bf8 o x8 => ?_) (Does.named1 ?_ x9)
                    rotate_left
                    · exact Does.trans ‹_› State.passageBuf_does rfl
                    unfold x1
                    dsimp -zeta -iota only
                    assumption
                  · rename_i x11 x12
                    refine (fun h13 : Does 0x498180bf8 o x11 => ?_) (Does.named1 ?_ x12)
                    rotate_left
                    · exact Does.trans ‹_› State.passageBuf_does rfl
                    dsimp -zeta -iota only
                    assumption
              · refine Does.ite' (fun r => Prod.snd (Prod.snd (Prod.snd (Prod.snd (Prod.snd (r)))))) ?_ ?_
                · dsimp -zeta -iota only
                  exact Does.refl
                · split
                  · rename_i x14 x15
                    refine (fun h16 : Does 0x498180bf8 o x14 => ?_) (Does.named2 ?_ x15)
                    rotate_left
                    · exact Does.trans Does.refl State.readLive_does rfl
                    unfold x1
                    dsimp -zeta -iota only
                    assumption
                  · rename_i x17 x18
                    refine (fun h19 : Does 0x498180bf8 o x17 => ?_) (Does.named2 ?_ x18)
                    rotate_left
                    · exact Does.trans Does.refl State.readLive_does rfl
                    refine Does.ite' (fun r => Prod.snd (Prod.snd (Prod.snd (Prod.snd (Prod.snd (r)))))) ?_ ?_
                    · dsimp -zeta -iota only
                      assumption
                    · split
                      rename_i x20 x21
                      refine (fun h22 : Does 0x498180bf8 o x20 => ?_) (Does.named2 ?_ x21)
                      rotate_left
                      · exact Does.trans ‹_› State.anchorCheck_does rfl
                      refine Does.ite' (fun r => Prod.snd (Prod.snd (Prod.snd (Prod.snd (Prod.snd (r)))))) ?_ ?_
                      · unfold x1
                        dsimp -zeta -iota only
                        assumption
                      · dsimp -zeta -iota only
                        assumption

theorem State.takeOne_does {o a2 a3} : Does 0x5985c0ff8 o (State.takeOne o a2 a3).2 := by
  unfold State.takeOne
  split
  · dsimp -zeta -iota only
    exact Does.refl
  · refine Does.ite' (fun r => Prod.snd (r)) ?_ ?_
    · dsimp -zeta -iota only
      exact Does.refl
    · split
      rename_i x1 x2
      refine (fun h3 : Does 0x5985c0ff8 o x1 => ?_) (Does.named1 ?_ x2)
      rotate_left
      · exact Does.trans Does.refl State.vaRead_does rfl
      refine Does.ite' (fun r => Prod.snd (r)) ?_ ?_
      · dsimp -zeta -iota only
        assumption
      · refine Does.ite' (fun r => Prod.snd (r)) ?_ ?_
        · dsimp -zeta -iota only
          exact Does.trans ‹_› State.ctxStop_does rfl
        · refine Does.ite' (fun r => Prod.snd (r)) ?_ ?_
          · refine Does.ite' (fun r => Prod.snd (r)) ?_ ?_
            · dsimp -zeta -iota only
              exact Does.trans ‹_› State.ctxStop_does rfl
            · dsimp -zeta -iota only
              exact Does.trans ‹_› State.modCtx_does rfl
          · extract_lets +onlyGivenNames x4
            clear_value x4
            split
            rename_i x5 x6
            refine (fun h7 : Does 0x5985c0ff8 o x5 => ?_) (Does.named5 ?_ x6)
            rotate_left
            · exact Does.trans ‹_› State.validate_does rfl
            refine Does.ite' (fun r => Prod.snd (r)) ?_ ?_
            · dsimp -zeta -iota only
              assumption
            · extract_lets +onlyGivenNames x8 x9
              clear_value x8
              have h10 : Does 0x5985c0ff8 o x9 := by
                unfold x9
                exact Does.trans (Does.trans ‹_› State.modCtx_does rfl) State.publish_does rfl
              clear_value x9
              extract_lets +onlyGivenNames x11
              have h12 : Does 0x5985c0ff8 o x11 := by
                unfold x11
                exact Does.modLk ‹_›
              clear_value x11
              extract_lets +onlyGivenNames x13
              have h14 : Does 0x5985c0ff8 o x13 := by
                unfold x13
                refine Does.ite ?_ ?_
                · exact Does.modBth ‹_›
                · assumption
              clear_value x13
              dsimp -zeta -iota only
              refine Does.ite ?_ ?_
              · exact Does.trans ‹_› State.makeReady_does rfl
              · assumption

theorem State.takeAll_does {a1 o a3} : Does 0x5985c0ff8 o (State.takeAll a1 o a3) := by
  induction a1 generalizing o a3
  · unfold State.takeAll
    exact Does.refl
  · rename_i ih
    unfold State.takeAll
    split
    · rename_i x1 x2
      refine (fun h3 : Does 0x5985c0ff8 o x1 => ?_) (Does.named1 ?_ x2)
      rotate_left
      · exact Does.trans Does.refl State.takeOne_does rfl
      exact Does.trans ‹_› (ih ..) rfl
    · rename_i x4 x5
      refine (fun h6 : Does 0x5985c0ff8 o x4 => ?_) (Does.named1 ?_ x5)
      rotate_left
      · exact Does.trans Does.refl State.takeOne_does rfl
      assumption

theorem State.pump_does {o a2} : Does 0x5985c0ff8 o (State.pump o a2) := by
  unfold State.pump
  extract_lets +onlyGivenNames x1
  have h2 : Does 0x5985c0ff8 o x1 := by
    unfold x1
    refine Does.foldl ?_ fun r3 x4 h5 => ?_
    · exact Does.refl
    · refine Does.ite ?_ ?_
      · exact Does.trans ‹_› State.makeReady_does rfl
      · assumption
  clear_value x1
  split
  · exact Does.trans ‹_› State.takeAll_does rfl
  · assumption

theorem execSignal_does {a1 a2 o} : OutDoes 0x5985c0ff8 o (execSignal a1 a2 o) := by
  unfold execSignal
  refine State.onCmd_does fun y1 => ?_
  refine OutDoes.need (OutDoes.next ?_)
  split
  · rename_i x6 x7
    refine (fun h8 : Does 0x5985c0ff8 o x6 => ?_) (Does.named1 ?_ x7)
    rotate_left
    · exact Does.trans Does.refl State.complete_does rfl
    exact Does.trans ‹_› State.pump_does rfl
  · rename_i x9 x10
    refine (fun h11 : Does 0x5985c0ff8 o x9 => ?_) (Does.named1 ?_ x10)
    rotate_left
    · exact Does.trans Does.refl State.complete_does rfl
    assumption

theorem State.watchArm_does {o a2 a3} : Does 0x4981403f8 o (State.watchArm o a2 a3) := by
  unfold State.watchArm
  split
  · rename_i x1 x2
    refine (fun h3 : Does 0x4981403f8 o x1 => ?_) (Does.named1 ?_ x2)
    rotate_left
    · exact Does.trans Does.refl State.translate_does rfl
    refine Does.ite ?_ ?_
    · extract_lets +onlyGivenNames x4 x5
      clear_value x4 x5
      exact Does.trans (Does.trans ‹_› State.modPort_does rfl) State.modCtx_does rfl
    · split
      · assumption
      · extract_lets +onlyGivenNames x6 x7 x8 x9
        clear_value x6 x8
        split
        · refine Does.ite ?_ ?_
          · unfold x9
            refine Does.trans ?_ State.modCtx_does rfl
            refine Does.ite ?_ ?_
            · assumption
            · exact Does.trans ‹_› State.cnt_does rfl
          · refine Does.ite ?_ ?_
            · unfold x9
              refine Does.trans ?_ State.modCtx_does rfl
              refine Does.ite ?_ ?_
              · unfold x7
                exact Does.modBasin ‹_›
              · refine Does.trans ?_ State.cnt_does rfl
                unfold x7
                exact Does.modBasin ‹_›
            · unfold x9
              refine Does.trans ?_ State.modCtx_does rfl
              refine Does.ite ?_ ?_
              · assumption
              · exact Does.trans ‹_› State.cnt_does rfl
        · refine Does.ite ?_ ?_
          · unfold x9
            refine Does.trans ?_ State.modCtx_does rfl
            refine Does.ite ?_ ?_
            · assumption
            · exact Does.trans ‹_› State.cnt_does rfl
          · split
            rename_i x10 x11
            refine (fun h12 : Does 0x4981403f8 o x10 => ?_) (Does.named1 ?_ x11)
            rotate_left
            · exact Does.trans ‹_› State.dirRoom_does rfl
            refine Does.ite ?_ ?_
            · unfold x9
              refine Does.trans ?_ State.modCtx_does rfl
              refine Does.ite ?_ ?_
              · unfold x7
                exact Does.modBasin ‹_›
              · refine Does.trans ?_ State.cnt_does rfl
                unfold x7
                exact Does.modBasin ‹_›
            · unfold x9
              refine Does.trans ?_ State.modCtx_does rfl
              refine Does.ite ?_ ?_
              · assumption
              · exact Does.trans ‹_› State.cnt_does rfl
  · rename_i x13 _ x14
    refine (fun h15 : Does 0x4981403f8 o x13 => ?_) (Does.named1 ?_ x14)
    rotate_left
    · exact Does.trans Does.refl State.translate_does rfl
    assumption

theorem State.ctxRead_does {o a2 a3} : Does 0x5985c0ff8 o (State.ctxRead o a2 a3) := by
  unfold State.ctxRead
  split
  · exact Does.refl
  · split
    rename_i x1 x2
    refine (fun h3 : Does 0x5985c0ff8 o x1 => ?_) (Does.named1 ?_ x2)
    rotate_left
    · exact Does.trans Does.refl State.vaRead_does rfl
    refine Does.ite ?_ ?_
    · assumption
    · refine Does.ite ?_ ?_
      · exact Does.trans ‹_› State.modCtx_does rfl
      · refine Does.ite ?_ ?_
        · exact Does.trans ‹_› State.ctxStop_does rfl
        · extract_lets +onlyGivenNames x4 x5 x6
          clear_value x4 x5
          have h7 : Does 0x5985c0ff8 o x6 := by
            unfold x6
            exact Does.trans ‹_› State.watchArm_does rfl
          clear_value x6
          refine Does.ite ?_ ?_
          · exact Does.trans ‹_› State.ctxStop_does rfl
          · extract_lets +onlyGivenNames x8
            have h9 : Does 0x5985c0ff8 o x8 := by
              unfold x8
              exact Does.trans ‹_› State.modCtx_does rfl
            clear_value x8
            extract_lets +onlyGivenNames x10
            have h11 : Does 0x5985c0ff8 o x10 := by
              unfold x10
              refine Does.ite ?_ ?_
              · exact Does.trans ‹_› State.event_does rfl
              · assumption
            clear_value x10
            exact Does.trans ‹_› State.pump_does rfl

theorem execWatchBackstop_does {a1 o} : OutDoes 0x5985c0ff8 o (execWatchBackstop a1 o) := by
  unfold execWatchBackstop
  refine OutDoes.need (OutDoes.need (OutDoes.next ?_))
  refine Does.foldl ?_ fun r1 x2 h3 => ?_
  · exact Does.refl
  · exact Does.trans ‹_› State.ctxRead_does rfl

theorem State.watchDrop_does {o a2} : Does 0x4981003f8 o (State.watchDrop o a2) := by
  unfold State.watchDrop
  split
  · rename_i x1 x2
    refine (fun h3 : Does 0x4981003f8 o x1 => ?_) (Does.named1 ?_ x2)
    rotate_left
    · exact Does.trans Does.refl State.translate_does rfl
    refine Does.ite ?_ ?_
    · exact Does.trans ‹_› State.modPort_does rfl
    · split
      · assumption
      · extract_lets +onlyGivenNames x4
        clear_value x4
        split
        · assumption
        · refine Does.ite ?_ ?_
          · exact Does.modBasin ‹_›
          · exact Does.modBasin ‹_›
  · rename_i x5 _ x6
    refine (fun h7 : Does 0x4981003f8 o x5 => ?_) (Does.named1 ?_ x6)
    rotate_left
    · exact Does.trans Does.refl State.translate_does rfl
    assumption

theorem State.onWatch_does {w : Nat} {o s : State} {n : Nat} {k : Context → Out} (h : ∀ c, OutDoes w o (k c)) :
    OutDoes w o (State.onWatch s n k) := OutDoes.needSome fun c => OutDoes.need (h c)

theorem execSeqReread_does {a1 o} : OutDoes 0x5985c0ff8 o (execSeqReread a1 o) := by
  unfold execSeqReread
  refine State.onWatch_does fun y1 => ?_
  refine OutDoes.need (OutDoes.next ?_)
  split
  · rename_i x6 x7
    refine (fun h8 : Does 0x5985c0ff8 o x6 => ?_) (Does.named1 ?_ x7)
    rotate_left
    · exact Does.trans Does.refl State.takeOne_does rfl
    exact Does.trans ‹_› State.pump_does rfl
  · rename_i x9 x10
    refine (fun h11 : Does 0x5985c0ff8 o x9 => ?_) (Does.named1 ?_ x10)
    rotate_left
    · exact Does.trans Does.refl State.takeOne_does rfl
    assumption

theorem execPassage_does {a1 a2 o} : OutDoes 0x5985c0ff8 o (execPassage a1 a2 o) := by
  unfold execPassage
  refine State.onCmd_does fun y1 => ?_
  exact OutDoes.need (OutDoes.next (Does.trans (Does.trans Does.refl State.modCmd_does rfl) State.pump_does rfl))

theorem execWatchRefetch_does {a1 a2 o} : OutDoes 0x5985c0ff8 o (execWatchRefetch a1 a2 o) := by
  unfold execWatchRefetch
  refine State.onWatch_does fun y1 => ?_
  exact OutDoes.need (OutDoes.next (Does.trans Does.refl State.ctxRead_does rfl))

theorem execWatchFire_does {a1 o} : OutDoes 0x5985c0ff8 o (execWatchFire a1 o) := by
  unfold execWatchFire
  refine State.onWatch_does fun y1 => ?_
  exact OutDoes.next (Does.trans Does.refl State.ctxRead_does rfl)

theorem execCommandReady_does {a1 a2 o} : OutDoes 0x5985c0ff8 o (execCommandReady a1 a2 o) := by
  unfold execCommandReady
  refine State.onCmd_does fun y1 => ?_
  exact OutDoes.need (OutDoes.next (Does.trans (Does.trans Does.refl State.makeReady_does rfl) State.pump_does rfl))

theorem State.reserveDies_does {o a2 a3} : Does 0x80000 o (State.reserveDies o a2 a3) := by
  induction a3 generalizing o a2
  · unfold State.reserveDies
    exact Does.refl
  · rename_i ih
    unfold State.reserveDies
    refine Does.ite ?_ ?_
    · exact Does.trans (Does.modLk Does.refl) (ih ..) rfl
    · exact Does.refl

theorem State.startThreads_does {o a2 a3 a4 a5} : Does 0x10000 o (State.startThreads o a2 a3 a4 a5) := by
  unfold State.startThreads
  split
  · exact Does.refl
  · extract_lets +onlyGivenNames x1
    clear_value x1
    refine Does.foldl ?_ fun r2 x3 h4 => ?_
    · exact Does.refl
    · extract_lets +onlyGivenNames x5
      clear_value x5
      exact Does.modThr ‹_›

theorem State.endUnstarted_does {o a2 a3} : Does 0x5985c0ff8 o (State.endUnstarted o a2 a3) := by
  unfold State.endUnstarted
  split
  · rename_i x1 x2
    refine (fun h3 : Does 0x5985c0ff8 o x1 => ?_) (Does.named1 ?_ x2)
    rotate_left
    · exact Does.trans Does.refl State.complete_does rfl
    exact Does.trans (Does.modLk ‹_›) State.pump_does rfl
  · rename_i x4 x5
    refine (fun h6 : Does 0x5985c0ff8 o x4 => ?_) (Does.named1 ?_ x5)
    rotate_left
    · exact Does.trans Does.refl State.complete_does rfl
    assumption

theorem State.scanRead_does {o a2 a3 a4 a5} : Does 0x498180bf8 o (State.scanRead o a2 a3 a4 a5).2 := by
  unfold State.scanRead
  refine readPieces_does ?_ fun y1 y2 y3 y4 => ?_
  · exact Does.refl
  · split
    · rename_i x6 x7
      refine (fun h8 : Does 0x498180bf8 o x6 => ?_) (Does.named1 ?_ x7)
      rotate_left
      · exact Does.trans ‹_› State.translate_does rfl
      exact Does.trans ‹_› State.gaReadSec_does rfl
    · rename_i x9 x10
      refine (fun h11 : Does 0x498180bf8 o x9 => ?_) (Does.named1 ?_ x10)
      rotate_left
      · exact Does.trans ‹_› State.translate_does rfl
      dsimp -zeta -iota only
      assumption
    · rename_i x12 x13
      refine (fun h14 : Does 0x498180bf8 o x12 => ?_) (Does.named1 ?_ x13)
      rotate_left
      · exact Does.trans ‹_› State.translate_does rfl
      dsimp -zeta -iota only
      assumption

theorem State.thaw_does {o a2 a3} : Does 0x90000 o (State.thaw o a2 a3) := by
  unfold State.thaw
  exact Does.trans (Does.modThr Does.refl) State.modCmd_does rfl

theorem execAnchorGeneration_does {a1 a2 a3 o} : OutDoes 0x2090000 o (execAnchorGeneration a1 a2 a3 o) := by
  unfold execAnchorGeneration
  refine State.onCmd_does fun y1 => ?_
  refine OutDoes.need (OutDoes.needSome fun a6 => ?_)
  refine OutDoes.needSome fun a7 => ?_
  refine OutDoes.need ?_
  extract_lets +onlyGivenNames x8
  have h9 : Does 0x2090000 o x8 := by
    unfold x8
    exact Does.modErh Does.refl
  clear_value x8
  exact OutDoes.next (Does.trans (Does.trans ‹_› State.modCmd_does rfl) State.thaw_does rfl)

theorem State.scanFail_does {o a2 a3 a4} : Does 0xb6000 o (State.scanFail o a2 a3 a4) := by
  unfold State.scanFail
  refine Does.ite ?_ ?_
  · exact Does.trans Does.refl State.replayCmd_does rfl
  · exact Does.trans Does.refl State.failCmd_does rfl

theorem State.startDie_does {o a2 a3} : Does 0x200002110 o (State.startDie o a2 a3) := by
  unfold State.startDie
  extract_lets +onlyGivenNames x1
  have h2 : Does 0x200002110 o x1 := by
    unfold x1
    exact Does.trans Does.refl State.farInvalidate_does rfl
  clear_value x1
  extract_lets +onlyGivenNames x3
  have h4 : Does 0x200002110 o x3 := by
    unfold x3
    refine Does.foldl ?_ fun r5 x6 h7 => ?_
    · assumption
    · exact Does.trans (Does.trans ‹_› State.l1Invalidate_does rfl) State.icacheDrop_does rfl
  clear_value x3
  extract_lets +onlyGivenNames x8
  have h9 : Does 0x200002110 o x8 := by
    unfold x8
    exact Does.modEng ‹_›
  clear_value x8
  exact Does.trans (Does.trans ‹_› State.pmcStart_does rfl) State.trace_does rfl

theorem State.begin_does {o a2} : Does 0x200192110 o (State.begin o a2) := by
  unfold State.begin
  extract_lets +onlyGivenNames x1 x2 x3 x4
  clear_value x1 x2 x3
  have h5 : Does 0x200192110 o x4 := by
    unfold x4
    refine Does.ite ?_ ?_
    · exact Does.trans Does.refl State.modAccount_does rfl
    · exact Does.refl
  clear_value x4
  extract_lets +onlyGivenNames x6
  have h7 : Does 0x200192110 o x6 := by
    unfold x6
    exact Does.modLk ‹_›
  clear_value x6
  extract_lets +onlyGivenNames x8
  have h9 : Does 0x200192110 o x8 := by
    unfold x8
    exact Does.trans ‹_› State.modCmd_does rfl
  clear_value x8
  extract_lets +onlyGivenNames x10
  have h11 : Does 0x200192110 o x10 := by
    unfold x10
    refine Does.foldl ?_ fun r12 x13 h14 => ?_
    · assumption
    · exact Does.trans ‹_› State.startDie_does rfl
  clear_value x10
  refine Does.foldl ?_ fun r15 x16 h17 => ?_
  · assumption
  · exact Does.trans ‹_› State.startThreads_does rfl

theorem State.scanList_does {a1 a2 a3 o} : Does 0x498180bf8 o (State.scanList a1 a2 a3 o).2 := by
  induction a3 generalizing a1 a2 o
  · unfold State.scanList
    dsimp -zeta -iota only
    exact Does.refl
  · rename_i ih
    unfold State.scanList
    extract_lets +onlyGivenNames x1 x2 x3
    clear_value x1 x2 x3
    split
    rename_i x4 x5
    refine (fun h6 : Does 0x498180bf8 o x4 => ?_) (Does.named1 ?_ x5)
    rotate_left
    · exact Does.trans Does.refl State.scanRead_does rfl
    refine Does.ite' (fun r => Prod.snd (r)) ?_ ?_
    · dsimp -zeta -iota only
      assumption
    · refine Does.ite' (fun r => Prod.snd (r)) ?_ ?_
      · dsimp -zeta -iota only
        assumption
      · split
        · rename_i x7 x8
          refine (fun h9 : Does 0x498180bf8 o x7 => ?_) (Does.named1 ?_ x8)
          rotate_left
          · exact Does.trans ‹_› (ih ..) rfl
          extract_lets +onlyGivenNames x10
          clear_value x10
          dsimp -zeta -iota only
          assumption
        · exact Does.trans ‹_› (ih ..) rfl

theorem execRun_does {a1 a2 o} : OutDoes 0x7985d2ff8 o (execRun a1 a2 o) := by
  unfold execRun
  refine State.onCmd_does fun y1 => ?_
  refine OutDoes.need ?_
  refine OutDoes.ite ?_ ?_
  · exact OutDoes.next (Does.trans Does.refl State.endUnstarted_does rfl)
  · exact OutDoes.need (OutDoes.next (Does.trans (Does.trans Does.refl State.begin_does rfl) State.pump_does rfl))

theorem execPrescan_does {a1 a2 a3 o} : OutDoes 0x204981b6bf8 o (execPrescan a1 a2 a3 o) := by
  unfold execPrescan
  refine State.onCmd_does fun y1 => ?_
  refine OutDoes.need (OutDoes.next ?_)
  split
  rename_i x6 x7
  refine (fun h8 : Does 0x204981b6bf8 o x6 => ?_) (Does.named1 ?_ x7)
  rotate_left
  · exact Does.trans Does.refl State.scanRead_does rfl
  refine Does.ite ?_ ?_
  · assumption
  · refine Does.ite ?_ ?_
    · exact Does.trans ‹_› State.scanFail_does rfl
    · extract_lets +onlyGivenNames x9 x10
      clear_value x9 x10
      split
      rename_i x11 x12
      refine (fun h13 : Does 0x204981b6bf8 o x11 => ?_) (Does.named1 ?_ x12)
      rotate_left
      · exact Does.trans ‹_› State.scanRead_does rfl
      refine Does.ite ?_ ?_
      · assumption
      · refine Does.ite ?_ ?_
        · exact Does.trans ‹_› State.scanFail_does rfl
        · split
          · rename_i x14 x15
            refine (fun h16 : Does 0x204981b6bf8 o x14 => ?_) (Does.named1 ?_ x15)
            rotate_left
            · exact Does.trans ‹_› State.scanList_does rfl
            assumption
          · rename_i x17 x18
            refine (fun h19 : Does 0x204981b6bf8 o x17 => ?_) (Does.named1 ?_ x18)
            rotate_left
            · exact Does.trans ‹_› State.scanList_does rfl
            exact Does.trans ‹_› State.scanFail_does rfl
          · rename_i x20 x21
            refine (fun h22 : Does 0x204981b6bf8 o x20 => ?_) (Does.named1 ?_ x21)
            rotate_left
            · exact Does.trans ‹_› State.scanList_does rfl
            split
            rename_i x23 x24
            refine (fun h25 : Does 0x204981b6bf8 o x23 => ?_) (Does.named2 ?_ x24)
            rotate_left
            · split
              · extract_lets +onlyGivenNames x26
                clear_value x26
                dsimp -zeta -iota only
                assumption
              · dsimp -zeta -iota only
                exact Does.drawn ‹_›
            extract_lets +onlyGivenNames x27
            have h28 : Does 0x204981b6bf8 o x27 := by
              unfold x27
              exact Does.trans ‹_› State.modCmd_does rfl
            clear_value x27
            refine Does.ite ?_ ?_
            · exact Does.trans ‹_› State.thaw_does rfl
            · assumption

theorem execMultiDieSchedule_does {a1 a2 o} : OutDoes 0x7985d2ff8 o (execMultiDieSchedule a1 a2 o) := by
  unfold execMultiDieSchedule
  refine State.onCmd_does fun y1 => ?_
  refine OutDoes.need ?_
  refine OutDoes.ite ?_ ?_
  · exact OutDoes.next (Does.trans Does.refl State.endUnstarted_does rfl)
  · refine OutDoes.ite ?_ ?_
    · exact OutDoes.next (Does.trans Does.refl State.endUnstarted_does rfl)
    · refine OutDoes.need ?_
      extract_lets +onlyGivenNames x6
      have h7 : Does 0x7985d2ff8 o x6 := by
        unfold x6
        exact Does.trans (Does.trans Does.refl State.modCmd_does rfl) State.reserveDies_does rfl
      clear_value x6
      refine OutDoes.next ?_
      refine Does.ite ?_ ?_
      · exact Does.trans (Does.trans ‹_› State.begin_does rfl) State.pump_does rfl
      · assumption

theorem State.modPsg_does {o a2 a3} : Does 0x400000 o (State.modPsg o a2 a3) := by
  unfold State.modPsg
  exact Does.modBth Does.refl

theorem State.stepPassage_does {o a2 a3 a4 a5 a6 a7} : Does 0x498580bf8 o (State.stepPassage o a2 a3 a4 a5 a6 a7) := by
  unfold State.stepPassage
  split
  · exact Does.refl
  · extract_lets +onlyGivenNames x1 x2 x3
    clear_value x1 x2
    have h4 : Does 0x498580bf8 o x3 := by
      unfold x3
      exact Does.trans Does.refl State.modCmd_does rfl
    clear_value x3
    extract_lets +onlyGivenNames x5
    have h6 : Does 0x498580bf8 o x5 := by
      unfold x5
      exact Does.trans ‹_› State.modAccount_does rfl
    clear_value x5
    refine Does.ite ?_ ?_
    · assumption
    · refine Does.ite ?_ ?_
      · extract_lets +onlyGivenNames x7 x8 x9
        clear_value x7 x8 x9
        exact Does.trans ‹_› State.modPsg_does rfl
      · extract_lets +onlyGivenNames x10 x11
        clear_value x10
        have h12 : Does 0x498580bf8 o x11 := by
          unfold x11
          exact Does.trans ‹_› State.modCmd_does rfl
        clear_value x11
        exact Does.trans ‹_› State.modPsg_does rfl

theorem State.stepDone_does {o a2 a3} : Does 0x498580bf8 o (State.stepDone o a2 a3) := by
  unfold State.stepDone
  extract_lets +onlyGivenNames x1 x2
  clear_value x2
  split
  rename_i x3 x4
  refine (fun h5 : Does 0x498580bf8 o x3 => ?_) (Does.named1 ?_ x4)
  rotate_left
  · refine foldl_keeps (fun r => Does 0x498580bf8 o (Prod.snd (r))) ?_ fun r6 x7 h8 => ?_
    · dsimp -zeta -iota only
      exact Does.refl
    · dsimp -zeta -iota only
      exact Does.trans ‹_› State.stepPassage_does rfl
  extract_lets +onlyGivenNames x9 x10
  clear_value x9
  have h11 : Does 0x498580bf8 o x10 := by
    unfold x10
    exact Does.modBth ‹_›
  clear_value x10
  refine Does.foldl ?_ fun r12 x13 h14 => ?_
  · assumption
  · exact Does.trans (Does.trans ‹_› State.modCmd_does rfl) State.modPsg_does rfl

theorem State.endPassage_does {o a2 a3} : Does 0x5985c0ff8 o (State.endPassage o a2 a3).2 := by
  unfold State.endPassage
  split
  · dsimp -zeta -iota only
    exact Does.modBth Does.refl
  · split
    rename_i x1 x2
    refine (fun h3 : Does 0x5985c0ff8 o x1 => ?_) (Does.named2 ?_ x2)
    rotate_left
    · refine Does.ite' (fun r => Prod.snd (Prod.snd (r))) ?_ ?_
      · exact Does.trans Does.refl State.paWrite_does rfl
      · dsimp -zeta -iota only
        exact Does.refl
    refine Does.ite' (fun r => Prod.snd (r)) ?_ ?_
    · dsimp -zeta -iota only
      assumption
    · extract_lets +onlyGivenNames x4
      clear_value x4
      split
      rename_i x5 x6
      refine (fun h7 : Does 0x5985c0ff8 o x5 => ?_) (Does.named1 ?_ x6)
      rotate_left
      · exact Does.trans ‹_› State.complete_does rfl
      refine Does.ite' (fun r => Prod.snd (r)) ?_ ?_
      · dsimp -zeta -iota only
        exact Does.trans (Does.modBth ‹_›) State.pump_does rfl
      · dsimp -zeta -iota only
        assumption

theorem State.leakCheck_does {o a2} : Does 0x300010 o (State.leakCheck o a2) := by
  unfold State.leakCheck
  split
  · exact Does.refl
  · extract_lets +onlyGivenNames x1 x2
    clear_value x1 x2
    refine Does.ite ?_ ?_
    · exact Does.refl
    · exact Does.modBth (Does.trans (Does.trans Does.refl State.modBerth_does rfl) State.gcnt_does rfl)

theorem State.leave_does {o} : Does 0x5987c0ff8 o (State.leave o) := by
  unfold State.leave
  extract_lets +onlyGivenNames x1 x2
  clear_value x1
  have h3 : Does 0x5987c0ff8 o x2 := by
    unfold x2
    refine Does.foldl ?_ fun r4 x5 h6 => ?_
    · exact Does.refl
    · exact Does.trans ‹_› State.endPassage_does rfl
  clear_value x2
  refine Does.foldl ?_ fun r7 x8 h9 => ?_
  · assumption
  · exact Does.trans ‹_› State.leakCheck_does rfl

theorem State.returnMoor_does {o a2} : Does 0x20000100000 o (State.returnMoor o a2) := by
  unfold State.returnMoor
  extract_lets +onlyGivenNames x1
  clear_value x1
  exact Does.trans (Does.drawn Does.refl) State.modBerth_does rfl

theorem State.grow_does {a1 a2 a3 a4 o a6 a7} : Does 0x205985c0ff8 o (State.grow a1 a2 a3 a4 o a6 a7).2 := by
  induction a4 generalizing a1 a2 a3 o a6 a7
  · unfold State.grow
    dsimp -zeta -iota only
    exact Does.refl
  · rename_i ih
    unfold State.grow
    split
    · dsimp -zeta -iota only
      exact Does.refl
    · extract_lets +onlyGivenNames x1 x2
      clear_value x1 x2
      refine Does.ite' (fun r => Prod.snd (r)) ?_ ?_
      · dsimp -zeta -iota only
        exact Does.refl
      · refine Does.ite' (fun r => Prod.snd (r)) ?_ ?_
        · extract_lets +onlyGivenNames x3
          clear_value x3
          refine Does.ite' (fun r => Prod.snd (r)) ?_ ?_
          · dsimp -zeta -iota only
            exact Does.refl
          · extract_lets +onlyGivenNames x4
            clear_value x4
            split
            · dsimp -zeta -iota only
              exact Does.refl
            · extract_lets +onlyGivenNames x5 x6 x7
              clear_value x5 x6
              have h8 : Does 0x205985c0ff8 o x7 := by
                unfold x7
                exact Does.trans (Does.trans Does.refl State.returnMoor_does rfl) State.modPsg_does rfl
              clear_value x7
              extract_lets +onlyGivenNames x9
              have h10 : Does 0x205985c0ff8 o x9 := by
                unfold x9
                refine Does.getD ?_ ?_
                · refine OptDoes.ofMap fun a11 => ?_
                  exact Does.trans ‹_› State.endPassage_does rfl
                · assumption
              clear_value x9
              exact Does.trans ‹_› (ih ..) rfl
        · refine Does.ite' (fun r => Prod.snd (r)) ?_ ?_
          · dsimp -zeta -iota only
            exact Does.refl
          · dsimp -zeta -iota only
            exact Does.refl

theorem State.makeUp_does {o a2 a3 a4} : Does 0x205985c0ff8 o (State.makeUp o a2 a3 a4).2 := by
  unfold State.makeUp
  extract_lets +onlyGivenNames x1 x2
  clear_value x1 x2
  split
  rename_i x3 x4
  refine (fun h5 : Does 0x205985c0ff8 o x3 => ?_) (Does.named1 ?_ x4)
  rotate_left
  · refine foldl_keeps (fun r => Does 0x205985c0ff8 o (Prod.snd (r))) ?_ fun r6 x7 h8 => ?_
    · dsimp -zeta -iota only
      exact Does.refl
    · exact Does.trans ‹_› State.grow_does rfl
  dsimp -zeta -iota only
  assumption

theorem State.takeBatch_does {o a2 a3} : Does 0x580000 o (State.takeBatch o a2 a3) := by
  unfold State.takeBatch
  extract_lets +onlyGivenNames x1
  have h2 : Does 0x580000 o x1 := by
    unfold x1
    refine Does.foldl ?_ fun r3 x4 h5 => ?_
    · exact Does.modBth Does.refl
    · extract_lets +onlyGivenNames x6
      clear_value x6
      exact Does.modBth (Does.trans ‹_› State.modPsg_does rfl)
  clear_value x1
  extract_lets +onlyGivenNames x7
  have h8 : Does 0x580000 o x7 := by
    unfold x7
    refine Does.foldl ?_ fun r9 x10 h11 => ?_
    · assumption
    · split
      · exact Does.modBth (Does.trans ‹_› State.modCmd_does rfl)
      · assumption
  clear_value x7
  extract_lets +onlyGivenNames x12
  have h13 : Does 0x580000 o x12 := by
    unfold x12
    refine Does.foldl ?_ fun r14 x15 h16 => ?_
    · assumption
    · exact Does.trans ‹_› State.modPsg_does rfl
  clear_value x12
  exact Does.trans (Does.modBth ‹_›) State.modCmd_does rfl

theorem execConvoyStep_does {a1 a2 o} : OutDoes 0x207987d2ff8 o (execConvoyStep a1 a2 o) := by
  unfold execConvoyStep
  refine State.onCmd_does fun y1 => ?_
  refine OutDoes.need (OutDoes.needSome fun a6 => ?_)
  refine OutDoes.ite ?_ ?_
  · exact OutDoes.next (Does.trans Does.refl State.endUnstarted_does rfl)
  · refine OutDoes.ite ?_ ?_
    · exact OutDoes.next (Does.trans Does.refl State.endUnstarted_does rfl)
    · refine OutDoes.need (OutDoes.next ?_)
      extract_lets +onlyGivenNames x7
      have h8 : Does 0x207987d2ff8 o x7 := by
        unfold x7
        exact Does.trans Does.refl State.leave_does rfl
      clear_value x7
      split
      rename_i x9 x10
      refine (fun h11 : Does 0x207987d2ff8 o x9 => ?_) (Does.named1 ?_ x10)
      rotate_left
      · exact Does.trans ‹_› State.makeUp_does rfl
      refine Does.ite ?_ ?_
      · exact Does.trans ‹_› State.endUnstarted_does rfl
      · split
        rename_i x12 x13
        refine (fun h14 : Does 0x207987d2ff8 o x12 => ?_) (Does.named2 ?_ x13)
        rotate_left
        · exact Does.trans ‹_› State.paWrite_does rfl
        refine Does.ite ?_ ?_
        · assumption
        · refine Does.ite ?_ ?_
          · exact Does.trans ‹_› State.endUnstarted_does rfl
          · extract_lets +onlyGivenNames x15
            have h16 : Does 0x207987d2ff8 o x15 := by
              unfold x15
              exact Does.trans ‹_› State.takeBatch_does rfl
            clear_value x15
            split
            · exact Does.trans (Does.trans ‹_› State.begin_does rfl) State.pump_does rfl
            · assumption

end Sys2Proof.Machine
end

