-- ==== Sys2Proof/Laws/DoesEngine.lean ====
section
/-! SUPPORT. What each operation can do, once per operation (tiles, engines, units and register commands). Read `Does w o t` in Laws/Does.lean. -/

set_option Elab.async false

namespace Sys2Proof.Machine

theorem State.closeL1_does {o a2} : Does 0x980003f8 o (State.closeL1 o a2).2 := by
  unfold State.closeL1
  extract_lets +onlyGivenNames x1
  clear_value x1
  refine foldl_keeps (fun r => Does 0x980003f8 o (Prod.snd (r))) ?_ fun r2 x3 h4 => ?_
  · dsimp -zeta -iota only
    exact Does.refl
  · split
    rename_i x5 x6
    refine (fun h7 : Does 0x980003f8 o x5 => ?_) (Does.named1 ?_ x6)
    rotate_left
    · exact Does.trans ‹_› State.l1Flush_does rfl
    dsimp -zeta -iota only
    exact Does.trans ‹_› State.l1Invalidate_does rfl

theorem State.closeFar_does {o a2} : Does 0x980003f8 o (State.closeFar o a2).2 := by
  unfold State.closeFar
  refine foldl_keeps (fun r => Does 0x980003f8 o (Prod.snd (r))) ?_ fun r1 x2 h3 => ?_
  · exact Does.trans Does.refl State.closeL1_does rfl
  · split
    rename_i x4 x5
    refine (fun h6 : Does 0x980003f8 o x4 => ?_) (Does.named1 ?_ x5)
    rotate_left
    · exact Does.trans ‹_› State.farFlush_does rfl
    dsimp -zeta -iota only
    assumption

theorem State.closeMem_does {o a2} : Does 0x980003f8 o (State.closeMem o a2).2 := by
  unfold State.closeMem
  dsimp -zeta -iota only
  exact Does.trans Does.refl State.closeFar_does rfl

theorem State.writeSnap_does {o a2 a3} : Does 0x498180ff8 o (State.writeSnap o a2 a3).2.2 := by
  unfold State.writeSnap
  split
  · dsimp -zeta -iota only
    exact Does.refl
  · extract_lets +onlyGivenNames x1
    clear_value x1
    split
    rename_i x2 x3
    refine (fun h4 : Does 0x498180ff8 o x2 => ?_) (Does.named2 ?_ x3)
    rotate_left
    · exact Does.trans Does.refl State.vaWrite_does rfl
    refine Does.ite' (fun r => Prod.snd (Prod.snd (r))) ?_ ?_
    · dsimp -zeta -iota only
      assumption
    · refine Does.ite' (fun r => Prod.snd (Prod.snd (r))) ?_ ?_
      · dsimp -zeta -iota only
        exact Does.trans ‹_› State.modAccount_does rfl
      · dsimp -zeta -iota only
        assumption

theorem State.judge_does {o a2} : Does 0x4900b6018 o (State.judge o a2) := by
  unfold State.judge
  extract_lets +onlyGivenNames x1 x2 x3
  clear_value x1 x2 x3
  refine Does.foldl ?_ fun r4 x5 h6 => ?_
  · exact Does.refl
  · exact Does.trans ‹_› State.tallySlot_does rfl

theorem State.boundary_does {o a2} : Does 0x800000a010 o (State.boundary o a2) := by
  unfold State.boundary
  refine Does.ite ?_ ?_
  · exact Does.refl
  · exact Does.trans Does.refl State.commandBoundary_does rfl

theorem State.forget_does {o a2} : Does 0x84900be018 o (State.forget o a2) := by
  unfold State.forget
  extract_lets +onlyGivenNames x1
  have h2 : Does 0x84900be018 o x1 := by
    unfold x1
    exact Does.modThr Does.refl
  clear_value x1
  extract_lets +onlyGivenNames x3
  have h4 : Does 0x84900be018 o x3 := by
    unfold x3
    exact Does.modLk ‹_›
  clear_value x3
  extract_lets +onlyGivenNames x5
  have h6 : Does 0x84900be018 o x5 := by
    unfold x5
    refine Does.ite ?_ ?_
    · exact Does.trans ‹_› State.judge_does rfl
    · assumption
  clear_value x5
  extract_lets +onlyGivenNames x7
  have h8 : Does 0x84900be018 o x7 := by
    unfold x7
    exact Does.modEng ‹_›
  clear_value x7
  refine Does.foldl ?_ fun r9 x10 h11 => ?_
  · assumption
  · exact Does.trans ‹_› State.boundary_does rfl

theorem State.traceEnd_does {o a2 a3} : Does 0x698180ff8 o (State.traceEnd o a2 a3) := by
  unfold State.traceEnd
  refine Does.foldl ?_ fun r1 x2 h3 => ?_
  · exact Does.refl
  · exact Does.trans (Does.trans ‹_› State.trace_does rfl) State.traceDrain_does rfl

theorem execCommandComplete_does {a1 a2 o} : OutDoes 0x87985feff8 o (execCommandComplete a1 a2 o) := by
  unfold execCommandComplete
  refine State.onCmd_does fun y1 => ?_
  refine OutDoes.need (OutDoes.next ?_)
  extract_lets +onlyGivenNames x6
  clear_value x6
  split
  rename_i x7 x8
  refine (fun h9 : Does 0x87985feff8 o x7 => ?_) (Does.named1 ?_ x8)
  rotate_left
  · exact Does.trans Does.refl State.closeMem_does rfl
  refine Does.ite ?_ ?_
  · assumption
  · split
    rename_i x10 x11
    refine (fun h12 : Does 0x87985feff8 o x10 => ?_) (Does.named2 ?_ x11)
    rotate_left
    · exact Does.trans ‹_› State.writeSnap_does rfl
    refine Does.ite ?_ ?_
    · assumption
    · split
      rename_i x13 x14
      refine (fun h15 : Does 0x87985feff8 o x13 => ?_) (Does.named1 ?_ x14)
      rotate_left
      · exact Does.trans ‹_› State.complete_does rfl
      refine Does.ite ?_ ?_
      · assumption
      · extract_lets +onlyGivenNames x16
        have h17 : Does 0x87985feff8 o x16 := by
          unfold x16
          refine Does.ite ?_ ?_
          · exact Does.trans ‹_› State.stepDone_does rfl
          · assumption
        clear_value x16
        exact Does.trans (Does.trans (Does.trans ‹_› State.traceEnd_does rfl) State.forget_does rfl) State.pump_does rfl

theorem State.preemptOne_does {o a2 a3} : Does 0x94000 o (State.preemptOne o a2 a3) := by
  unfold State.preemptOne
  extract_lets +onlyGivenNames x1
  have h2 : Does 0x94000 o x1 := by
    unfold x1
    exact Does.trans Does.refl State.modCmd_does rfl
  clear_value x1
  extract_lets +onlyGivenNames x3
  have h4 : Does 0x94000 o x3 := by
    unfold x3
    exact Does.modThr ‹_›
  clear_value x3
  extract_lets +onlyGivenNames x5
  have h6 : Does 0x94000 o x5 := by
    unfold x5
    exact Does.modEng ‹_›
  clear_value x5
  exact Does.modLk ‹_›

theorem State.refill_does {o a2 a3 a4 a5} : Does 0x3000 o (State.refill o a2 a3 a4 a5) := by
  unfold State.refill
  split
  · exact Does.refl
  · extract_lets +onlyGivenNames x1
    have h2 : Does 0x3000 o x1 := by
      unfold x1
      exact Does.trans Does.refl State.holdZero_does rfl
    clear_value x1
    refine Does.foldl ?_ fun r3 x4 h5 => ?_
    · assumption
    · exact Does.trans ‹_› State.holdPut_does rfl

theorem execRestore_does {a1 a2 o} : OutDoes 0x200097000 o (execRestore a1 a2 o) := by
  unfold execRestore
  refine State.onCmd_does fun y1 => ?_
  refine OutDoes.needSome fun a6 => ?_
  refine OutDoes.need ?_
  extract_lets +onlyGivenNames x7
  have h8 : Does 0x200097000 o x7 := by
    unfold x7
    refine Does.foldl ?_ fun r9 x10 h11 => ?_
    · exact Does.refl
    · exact Does.trans ‹_› State.refill_does rfl
  clear_value x7
  extract_lets +onlyGivenNames x12
  have h13 : Does 0x200097000 o x12 := by
    unfold x12
    exact Does.modThr ‹_›
  clear_value x12
  extract_lets +onlyGivenNames x14
  have h15 : Does 0x200097000 o x14 := by
    unfold x14
    exact Does.modEng ‹_›
  clear_value x14
  extract_lets +onlyGivenNames x16
  have h17 : Does 0x200097000 o x16 := by
    unfold x16
    exact Does.modLk ‹_›
  clear_value x16
  extract_lets +onlyGivenNames x18
  have h19 : Does 0x200097000 o x18 := by
    unfold x18
    exact Does.trans ‹_› State.modCmd_does rfl
  clear_value x18
  refine OutDoes.next ?_
  refine Does.foldl ?_ fun r20 x21 h22 => ?_
  · assumption
  · exact Does.trans ‹_› State.trace_does rfl

theorem execPreempt_does {a1 a2 o} : OutDoes 0x94000 o (execPreempt a1 a2 o) := by
  unfold execPreempt
  refine State.onCmd_does fun y1 => ?_
  extract_lets +onlyGivenNames x6
  clear_value x6
  refine OutDoes.need (OutDoes.need (OutDoes.next ?_))
  refine Does.ite ?_ ?_
  · refine Does.foldl ?_ fun r7 x8 h9 => ?_
    · exact Does.refl
    · exact Does.trans ‹_› State.preemptOne_does rfl
  · exact Does.trans Does.refl State.modCmd_does rfl

theorem State.cargoDelay_does {o a2 a3 a4 a5} : Does 0x180000 o (State.cargoDelay o a2 a3 a4 a5) := by
  unfold State.cargoDelay
  exact Does.trans (Does.trans Does.refl State.modAccount_does rfl) State.modCmd_does rfl

theorem State.replayNotes_does {o a2} : Does 0x180000 o (State.replayNotes o a2) := by
  unfold State.replayNotes
  extract_lets +onlyGivenNames x1
  clear_value x1
  refine Does.ite ?_ ?_
  · extract_lets +onlyGivenNames x2 x3
    clear_value x2
    have h4 : Does 0x180000 o x3 := by
      unfold x3
      refine Does.foldl ?_ fun r5 x6 h7 => ?_
      · exact Does.refl
      · exact Does.trans ‹_› State.modCmd_does rfl
    clear_value x3
    refine Does.ite ?_ ?_
    · extract_lets +onlyGivenNames x8
      have h9 : Does 0x180000 o x8 := by
        unfold x8
        refine Does.foldl ?_ fun r10 x11 h12 => ?_
        · assumption
        · exact Does.trans ‹_› State.modCmd_does rfl
      clear_value x8
      refine Does.foldl ?_ fun r13 x14 h15 => ?_
      · assumption
      · exact Does.trans ‹_› State.modAccount_does rfl
    · assumption
  · refine Does.ite ?_ ?_
    · exact Does.trans Does.refl State.cargoDelay_does rfl
    · exact Does.refl

theorem State.undoMoor_does {o a2} : Does 0x500000 o (State.undoMoor o a2) := by
  unfold State.undoMoor
  extract_lets +onlyGivenNames x1
  have h2 : Does 0x500000 o x1 := by
    unfold x1
    exact Does.trans Does.refl State.modBerth_does rfl
  clear_value x1
  refine Does.ite ?_ ?_
  · exact Does.modBth ‹_›
  · assumption

theorem State.tryRun_does {o a2 a3} : Does 0x7985d2ff8 o (State.tryRun o a2 a3) := by
  unfold State.tryRun
  split
  · exact Does.refl
  · refine Does.ite ?_ ?_
    · exact Does.trans (Does.trans Does.refl State.begin_does rfl) State.pump_does rfl
    · exact Does.refl

theorem execPreemptSpillDone_does {a1 a2 o} : OutDoes 0x7985d2ff8 o (execPreemptSpillDone a1 a2 o) := by
  unfold execPreemptSpillDone
  refine State.onCmd_does fun y1 => ?_
  refine OutDoes.need (OutDoes.needSome fun a6 => ?_)
  refine OutDoes.next ?_
  split
  rename_i x7 x8
  refine (fun h9 : Does 0x7985d2ff8 o x7 => ?_) (Does.named1 ?_ x8)
  rotate_left
  · exact Does.trans Does.refl State.closeL1_does rfl
  refine Does.ite ?_ ?_
  · assumption
  · extract_lets +onlyGivenNames x10 x11 x12 x13 x14
    clear_value x10 x11 x12 x13
    have h15 : Does 0x7985d2ff8 o x14 := by
      unfold x14
      exact Does.modLk ‹_›
    clear_value x14
    extract_lets +onlyGivenNames x16
    have h17 : Does 0x7985d2ff8 o x16 := by
      unfold x16
      exact Does.modThr ‹_›
    clear_value x16
    extract_lets +onlyGivenNames x18
    have h19 : Does 0x7985d2ff8 o x18 := by
      unfold x18
      exact Does.trans ‹_› State.modCmd_does rfl
    clear_value x18
    extract_lets +onlyGivenNames x20 x21
    clear_value x20
    have h22 : Does 0x7985d2ff8 o x21 := by
      unfold x21
      refine Does.foldl ?_ fun r23 x24 h25 => ?_
      · assumption
      · exact Does.trans ‹_› State.trace_does rfl
    clear_value x21
    exact Does.trans ‹_› State.tryRun_does rfl

theorem execReplay_does {a1 a2 o} : OutDoes 0x2985b63f8 o (execReplay a1 a2 o) := by
  unfold execReplay
  refine State.onCmd_does fun y1 => ?_
  refine OutDoes.need ?_
  refine OutDoes.ite ?_ ?_
  · exact OutDoes.next (Does.trans Does.refl State.failCmd_does rfl)
  · refine OutDoes.needSome fun a6 => ?_
    refine OutDoes.need (OutDoes.next ?_)
    split
    rename_i x7 x8
    refine (fun h9 : Does 0x2985b63f8 o x7 => ?_) (Does.named1 ?_ x8)
    rotate_left
    · exact Does.trans Does.refl State.closeMem_does rfl
    refine Does.ite ?_ ?_
    · assumption
    · extract_lets +onlyGivenNames x10
      have h11 : Does 0x2985b63f8 o x10 := by
        unfold x10
        refine Does.trans ?_ State.replayNotes_does rfl
        refine Does.foldl ?_ fun r12 x13 h14 => ?_
        · assumption
        · exact Does.trans ‹_› State.undoMoor_does rfl
      clear_value x10
      extract_lets +onlyGivenNames x15
      have h16 : Does 0x2985b63f8 o x15 := by
        unfold x15
        exact Does.modThr ‹_›
      clear_value x15
      extract_lets +onlyGivenNames x17
      have h18 : Does 0x2985b63f8 o x17 := by
        unfold x17
        exact Does.trans ‹_› State.modCmd_does rfl
      clear_value x17
      split
      · exact Does.trans ‹_› State.begin_does rfl
      · assumption

theorem execMaxDurExpire_does {a1 a2 o} : OutDoes 0x4b6000 o (execMaxDurExpire a1 a2 o) := by
  unfold execMaxDurExpire
  refine State.onCmd_does fun y1 => ?_
  extract_lets +onlyGivenNames x6
  clear_value x6
  refine OutDoes.need (OutDoes.need (OutDoes.next ?_))
  split
  · exact Does.trans Does.refl State.modPsg_does rfl
  · exact Does.trans Does.refl State.failCmd_does rfl

theorem State.regionWork_does {o a2 a3} : Does 0x2000 o (State.regionWork o a2 a3) := by
  unfold State.regionWork
  extract_lets +onlyGivenNames x1
  clear_value x1
  exact Does.modEng Does.refl

theorem State.metCount_does {o a2 a3 a4 a5} : Does 0x4900b6018 o (State.metCount o a2 a3 a4 a5) := by
  unfold State.metCount
  extract_lets +onlyGivenNames x1
  have h2 : Does 0x4900b6018 o x1 := by
    unfold x1
    refine Does.ite ?_ ?_
    · exact Does.trans Does.refl State.cnt_does rfl
    · exact Does.refl
  clear_value x1
  extract_lets +onlyGivenNames x3
  have h4 : Does 0x4900b6018 o x3 := by
    unfold x3
    split
    · exact Does.modRel (Does.trans ‹_› State.cnt_does rfl)
    · assumption
  clear_value x3
  refine Does.ite ?_ ?_
  · exact Does.trans ‹_› State.holdParity_does rfl
  · assumption

theorem State.checkFail_does {o a2 a3 a4} : Does 0xb6000 o (State.checkFail o a2 a3 a4) := by
  unfold State.checkFail
  exact Does.trans (Does.trans Does.refl State.endTicket_does rfl) State.replayCmd_does rfl

theorem State.stopTile_does {o a2 a3} : Does 0x206981b6ff8 o (State.stopTile o a2 a3) := by
  unfold State.stopTile
  extract_lets +onlyGivenNames x1 x2
  clear_value x1
  have h3 : Does 0x206981b6ff8 o x2 := by
    unfold x2
    exact Does.trans Does.refl State.closeTicket_does rfl
  clear_value x2
  refine Does.ite ?_ ?_
  · exact Does.trans ‹_› State.modCmd_does rfl
  · assumption

theorem State.runTile_does {o a2 a3 a4 a5 a6} : Does 0x206981b6ff8 o (State.runTile o a2 a3 a4 a5 a6) := by
  unfold State.runTile
  extract_lets +onlyGivenNames x1
  clear_value x1
  split
  extract_lets +onlyGivenNames x2 x3
  clear_value x2
  have h4 : Does 0x206981b6ff8 o x3 := by
    unfold x3
    exact Does.trans (Does.trans Does.refl State.injectTake_does rfl) State.regionWork_does rfl
  clear_value x3
  extract_lets +onlyGivenNames x5 x6
  clear_value x5
  have h7 : Does 0x206981b6ff8 o x6 := by
    unfold x6
    exact Does.trans ‹_› State.metCount_does rfl
  clear_value x6
  refine Does.ite ?_ ?_
  · exact Does.trans ‹_› State.checkFail_does rfl
  · refine Does.ite ?_ ?_
    · exact Does.trans ‹_› State.stopTile_does rfl
    · extract_lets +onlyGivenNames x8
      clear_value x8
      split
      split
      extract_lets +onlyGivenNames x9 x10
      clear_value x9 x10
      exact Does.modEng ‹_›

theorem State.takeTile_does {o a2 a3 a4 a5} : Does 0x206981b6ff8 o (State.takeTile o a2 a3 a4 a5) := by
  unfold State.takeTile
  refine Does.ite ?_ ?_
  · exact Does.trans Does.refl State.runTile_does rfl
  · exact Does.trans Does.refl State.stopTile_does rfl

theorem State.dequeue_does {o a2} : Does 0x2000 o (State.dequeue o a2) := by
  unfold State.dequeue
  exact Does.modEng Does.refl

theorem State.enterDrain_does {o a2 a3 a4} : Does 0x82010 o (State.enterDrain o a2 a3 a4) := by
  unfold State.enterDrain
  extract_lets +onlyGivenNames x1 x2 x3
  clear_value x1 x2
  have h4 : Does 0x82010 o x3 := by
    unfold x3
    exact Does.modEng Does.refl
  clear_value x3
  refine Does.ite ?_ ?_
  · exact Does.trans (Does.trans ‹_› State.cnt_does rfl) State.modCmd_does rfl
  · assumption

theorem execTileDispatch_does {a1 a2 a3 a4 o} : OutDoes 0x206981b6ff8 o (execTileDispatch a1 a2 a3 a4 o) := by
  unfold execTileDispatch
  refine OutDoes.need (OutDoes.need (OutDoes.needSome fun a1 => ?_))
  split
  · exact OutDoes.need (OutDoes.next (Does.trans (Does.trans Does.refl State.dequeue_does rfl) State.takeTile_does rfl))
  · exact OutDoes.need (OutDoes.next (Does.trans (Does.trans (Does.trans Does.refl State.enterDrain_does rfl) State.dequeue_does rfl)
        State.takeTile_does rfl))

theorem execReRun_does {a1 a2 a3 o} : OutDoes 0x206981b6ff8 o (execReRun a1 a2 a3 o) := by
  unfold execReRun
  refine OutDoes.need (OutDoes.needSome fun a1 => ?_)
  exact OutDoes.next (Does.trans (Does.modEng Does.refl) State.runTile_does rfl)

theorem State.traceTile_does {o a2 a3 a4 a5} : Does 0x200000000 o (State.traceTile o a2 a3 a4 a5) := by
  unfold State.traceTile
  extract_lets +onlyGivenNames x1 x2 x3
  clear_value x1 x2 x3
  exact Does.trans Does.refl State.trace_does rfl

theorem State.releaseOut_does {o a2 a3} : Does 0x3000 o (State.releaseOut o a2 a3) := by
  unfold State.releaseOut
  refine Does.foldl ?_ fun r1 x2 h3 => ?_
  · exact Does.refl
  · exact Does.trans ‹_› State.holdWrite_does rfl

theorem State.runFailed_does {o a2 a3 a4} : Does 0x4900b6018 o (State.runFailed o a2 a3 a4) := by
  unfold State.runFailed
  extract_lets +onlyGivenNames x1 x2 x3
  clear_value x1 x2 x3
  refine Does.ite ?_ ?_
  · extract_lets +onlyGivenNames x4 x5 x6
    clear_value x4 x5
    have h7 : Does 0x4900b6018 o x6 := by
      unfold x6
      exact Does.trans Does.refl State.detectUnit_does rfl
    clear_value x6
    split
    · refine Does.ite ?_ ?_
      · exact Does.modEng ‹_›
      · assumption
    · assumption
  · exact Does.trans (Does.trans Does.refl State.detectUnit_does rfl) State.checkFail_does rfl

theorem State.acceptTile_does {o a2 a3 a4 a5} : Does 0x80000 o (State.acceptTile o a2 a3 a4 a5) := by
  unfold State.acceptTile
  exact Does.trans Does.refl State.modCmd_does rfl

theorem State.compareCup_does {o a2 a3 a4 a5} : Does 0x206981b6ff8 o (State.compareCup o a2 a3 a4 a5) := by
  unfold State.compareCup
  extract_lets +onlyGivenNames x1 x2
  clear_value x1
  have h3 : Does 0x206981b6ff8 o x2 := by
    unfold x2
    exact Does.modEng Does.refl
  clear_value x2
  extract_lets +onlyGivenNames x4
  clear_value x4
  split
  · assumption
  · refine Does.ite ?_ ?_
    · extract_lets +onlyGivenNames x5
      have h6 : Does 0x206981b6ff8 o x5 := by
        unfold x5
        refine Does.ite ?_ ?_
        · exact Does.modEng ‹_›
        · assumption
      clear_value x5
      exact Does.trans ‹_› State.closeTicket_does rfl
    · refine Does.ite ?_ ?_
      · extract_lets +onlyGivenNames x7 x8 x9
        clear_value x7 x8
        have h10 : Does 0x206981b6ff8 o x9 := by
          unfold x9
          exact Does.trans (Does.trans ‹_› State.detectUnit_does rfl) State.tallySlot_does rfl
        clear_value x9
        exact Does.trans (Does.trans ‹_› State.endTicket_does rfl) State.failCmd_does rfl
      · extract_lets +onlyGivenNames x11 x12
        clear_value x11 x12
        refine Does.ite ?_ ?_
        · extract_lets +onlyGivenNames x13
          have h14 : Does 0x206981b6ff8 o x13 := by
            unfold x13
            exact Does.modEng (Does.trans ‹_› State.signSlot_does rfl)
          clear_value x13
          exact Does.trans ‹_› State.checkFail_does rfl
        · exact Does.trans (Does.trans (Does.trans ‹_› State.detectUnit_does rfl) State.tallySlot_does rfl) State.checkFail_does rfl

theorem State.countRun_does {o a2 a3 a4 a5} : Does 0x10 o (State.countRun o a2 a3 a4 a5) := by
  unfold State.countRun
  extract_lets +onlyGivenNames x1 x2
  clear_value x1 x2
  exact Does.trans (Does.trans (Does.trans (Does.trans (Does.trans Does.refl State.cnt_does rfl) State.cnt_does rfl) State.cnt_does rfl)
      State.pmc_does rfl) State.pmc_does rfl

theorem State.copyRegion_does {o a2 a3 a4} : Does 0x3000 o (State.copyRegion o a2 a3 a4) := by
  unfold State.copyRegion
  refine Does.foldl ?_ fun r1 x2 h3 => ?_
  · exact Does.refl
  · extract_lets +onlyGivenNames x4
    clear_value x4
    exact Does.trans ‹_› State.holdPut_does rfl

theorem State.stealTile_does {o a2 a3 a4 a5 a6} : Does 0x206981b7ff8 o (State.stealTile o a2 a3 a4 a5 a6) := by
  unfold State.stealTile
  extract_lets +onlyGivenNames x1
  clear_value x1
  split
  extract_lets +onlyGivenNames x2
  have h3 : Does 0x206981b7ff8 o x2 := by
    unfold x2
    exact Does.trans (Does.trans Does.refl State.dequeue_does rfl) State.modCmd_does rfl
  clear_value x2
  extract_lets +onlyGivenNames x4
  clear_value x4
  refine Does.ite ?_ ?_
  · exact Does.trans (Does.trans ‹_› State.metCount_does rfl) State.checkFail_does rfl
  · refine Does.ite ?_ ?_
    · exact Does.trans (Does.trans ‹_› State.metCount_does rfl) State.stopTile_does rfl
    · extract_lets +onlyGivenNames x5 x6 x7
      clear_value x5 x6 x7
      split
      rename_i x8 _ _ x9
      refine (fun h10 : Does 0x206981b7ff8 o x8 => ?_) (Does.named1st ?_ x9)
      rotate_left
      · refine foldl_keeps (fun r => Does 0x206981b7ff8 o (Prod.fst (r))) ?_ fun r11 x12 h13 => ?_
        · dsimp -zeta -iota only
          assumption
        · dsimp -zeta -iota only
          exact Does.trans ‹_› State.copyRegion_does rfl
      extract_lets +onlyGivenNames x14 x15
      clear_value x14
      have h16 : Does 0x206981b7ff8 o x15 := by
        unfold x15
        exact Does.trans (Does.trans (Does.trans ‹_› State.cnt_does rfl) State.pmc_does rfl) State.modCmd_does rfl
      clear_value x15
      exact Does.trans ‹_› State.runTile_does rfl

theorem execTileSteal_does {a1 a2 a3 a4 o} : OutDoes 0x206981b7ff8 o (execTileSteal a1 a2 a3 a4 o) := by
  unfold execTileSteal
  refine OutDoes.need (OutDoes.need ?_)
  extract_lets +onlyGivenNames x1
  clear_value x1
  refine OutDoes.needSome fun a2 => ?_
  refine OutDoes.needSome fun a3 => ?_
  exact OutDoes.next (Does.trans Does.refl State.stealTile_does rfl)

theorem State.runOut_does {o a2} : Does 0x20000000000 o (State.runOut o a2).2 := by
  unfold State.runOut
  extract_lets +onlyGivenNames x1
  clear_value x1
  split
  extract_lets +onlyGivenNames x2 x3 x4 x5 x6 x7 x8
  clear_value x2 x3 x4 x5 x6 x7 x8
  refine Does.ite' (fun r => Prod.snd (r)) ?_ ?_
  · extract_lets +onlyGivenNames x9 x10
    clear_value x9 x10
    dsimp -zeta -iota only
    exact Does.drawn Does.refl
  · dsimp -zeta -iota only
    exact Does.refl

theorem State.copyRun_does {o a2 a3 a4 a5 a6} : Does 0x206981b6ff8 o (State.copyRun o a2 a3 a4 a5 a6) := by
  unfold State.copyRun
  extract_lets +onlyGivenNames x1 x2 x3
  clear_value x1 x2 x3
  split
  extract_lets +onlyGivenNames x4 x5 x6
  clear_value x4 x5
  have h7 : Does 0x206981b6ff8 o x6 := by
    unfold x6
    exact Does.trans (Does.trans Does.refl State.injectTake_does rfl) State.regionWork_does rfl
  clear_value x6
  extract_lets +onlyGivenNames x8 x9
  clear_value x8 x9
  split
  extract_lets +onlyGivenNames x10
  have h11 : Does 0x206981b6ff8 o x10 := by
    unfold x10
    exact Does.trans (Does.trans ‹_› State.countRun_does rfl) State.pmc_does rfl
  clear_value x10
  extract_lets +onlyGivenNames x12
  have h13 : Does 0x206981b6ff8 o x12 := by
    unfold x12
    exact Does.trans ‹_› State.modCmd_does rfl
  clear_value x12
  extract_lets +onlyGivenNames x14
  refine Does.ite ?_ ?_
  · refine Does.trans ?_ State.checkFail_does rfl
    unfold x14
    exact Does.modEng (Does.trans ‹_› State.metCount_does rfl)
  · split
    extract_lets +onlyGivenNames x15
    clear_value x15
    split
    rename_i x16 x17
    refine (fun h18 : Does 0x206981b6ff8 o x16 => ?_) (Does.named1 ?_ x17)
    rotate_left
    · refine Does.ite' (fun r => Prod.snd (r)) ?_ ?_
      · extract_lets +onlyGivenNames x19
        have h20 : Does 0x206981b6ff8 o (Prod.snd (x19)) := by
          unfold x19
          exact Does.trans ‹_› State.runOut_does rfl
        clear_value x19
        dsimp -zeta -iota only
        assumption
      · dsimp -zeta -iota only
        exact Does.trans ‹_› State.metCount_does rfl
    extract_lets +onlyGivenNames x21
    clear_value x21
    split
    rename_i x22 x23
    refine (fun h24 : Does 0x206981b6ff8 o x22 => ?_) (Does.named1 ?_ x23)
    rotate_left
    · split
      · rename_i _ _
        refine (fun h25 : Does 0x206981b6ff8 o x22 => ?_) (Does.named1 ?_ x23)
        rotate_left
        · split
          · dsimp -zeta -iota only
            exact Does.trans (Does.drawn ‹_›) State.detectUnit_does rfl
          · dsimp -zeta -iota only
            assumption
        dsimp -zeta -iota only
        exact Does.trans (Does.drawn ‹_›) State.detectUnit_does rfl
      · rename_i _
        refine (fun h26 : Does 0x206981b6ff8 o x22 => ?_) (Does.named1 ?_ x23)
        rotate_left
        · split
          · dsimp -zeta -iota only
            exact Does.trans (Does.drawn ‹_›) State.detectUnit_does rfl
          · dsimp -zeta -iota only
            assumption
        dsimp -zeta -iota only
        assumption
    split
    · exact Does.trans ‹_› State.compareCup_does rfl
    · exact Does.modEng ‹_›

theorem execCuppingCopy_does {a1 a2 a3 a4 a5 o} : OutDoes 0x206981b6ff8 o (execCuppingCopy a1 a2 a3 a4 a5 o) := by
  unfold execCuppingCopy
  refine OutDoes.need (OutDoes.needSome fun a1 => ?_)
  exact OutDoes.next (Does.trans (Does.trans Does.refl State.copyRun_does rfl) State.tileBoundary_does rfl)

theorem State.runPassed_does {o a2 a3 a4} : Does 0x206981b7ff8 o (State.runPassed o a2 a3 a4) := by
  unfold State.runPassed
  extract_lets +onlyGivenNames x1 x2
  clear_value x1 x2
  split
  rename_i x3 x4
  refine (fun h5 : Does 0x206981b7ff8 o x3 => ?_) (Does.named1 ?_ x4)
  rotate_left
  · exact Does.trans Does.refl State.runOut_does rfl
  extract_lets +onlyGivenNames x6 x7
  clear_value x6
  have h8 : Does 0x206981b7ff8 o x7 := by
    unfold x7
    refine Does.ite ?_ ?_
    · exact Does.drawn (Does.trans (Does.trans ‹_› State.cnt_does rfl) State.modCmd_does rfl)
    · assumption
  clear_value x7
  extract_lets +onlyGivenNames x9
  have h10 : Does 0x206981b7ff8 o x9 := by
    unfold x9
    exact Does.trans (Does.trans (Does.trans ‹_› State.releaseOut_does rfl) State.acceptTile_does rfl) State.traceTile_does rfl
  clear_value x9
  split
  · split
    · exact Does.trans ‹_› State.compareCup_does rfl
    · exact Does.modEng ‹_›
  · exact Does.trans ‹_› State.closeTicket_does rfl

theorem execTileComplete_does {a1 a2 a3 a4 o} : OutDoes 0x206981b7ff8 o (execTileComplete a1 a2 a3 a4 o) := by
  unfold execTileComplete
  refine OutDoes.needSome fun a1 => ?_
  refine OutDoes.next ?_
  extract_lets +onlyGivenNames x2
  have h3 : Does 0x206981b7ff8 o x2 := by
    unfold x2
    refine Does.ite ?_ ?_
    · exact Does.refl
    · exact Does.trans Does.refl State.enterDrain_does rfl
  clear_value x2
  extract_lets +onlyGivenNames x4
  have h5 : Does 0x206981b7ff8 o x4 := by
    unfold x4
    exact Does.modEng ‹_›
  clear_value x4
  extract_lets +onlyGivenNames x6 x7 x8
  clear_value x6 x7
  have h9 : Does 0x206981b7ff8 o x8 := by
    unfold x8
    exact Does.trans (Does.trans ‹_› State.regionWork_does rfl) State.countRun_does rfl
  clear_value x8
  extract_lets +onlyGivenNames x10
  have h11 : Does 0x206981b7ff8 o x10 := by
    unfold x10
    refine Does.ite ?_ ?_
    · exact Does.trans (Does.trans (Does.trans ‹_› State.cnt_does rfl) State.pmc_does rfl) State.modCmd_does rfl
    · assumption
  clear_value x10
  extract_lets +onlyGivenNames x12 x13
  clear_value x12
  have h14 : Does 0x206981b7ff8 o x13 := by
    unfold x13
    split
    · exact Does.trans (Does.drawn ‹_›) State.runFailed_does rfl
    · exact Does.trans ‹_› State.runPassed_does rfl
  clear_value x13
  exact Does.trans ‹_› State.tileBoundary_does rfl

theorem State.thawCore_does {o a2 a3} : Does 0x10000 o (State.thawCore o a2 a3) := by
  unfold State.thawCore
  extract_lets +onlyGivenNames x1
  clear_value x1
  exact Does.modThr Does.refl

theorem execSelftestAbandon_does {a1 o} : OutDoes 0x800000000 o (execSelftestAbandon a1 o) := by
  unfold execSelftestAbandon
  exact OutDoes.need (OutDoes.next (Does.modRel Does.refl))

theorem State.moveHold_does {o a2 a3} : Does 0x1000 o (State.moveHold o a2 a3) := by
  unfold State.moveHold
  exact Does.modEng Does.refl

theorem execUnitRetirementDone_does {a1 a2 a3 o} : OutDoes 0x400011010 o (execUnitRetirementDone a1 a2 a3 o) := by
  unfold execUnitRetirementDone
  refine OutDoes.needSome fun a1 => ?_
  refine OutDoes.need ?_
  extract_lets +onlyGivenNames x2 x3
  clear_value x2
  have h4 : Does 0x400011010 o x3 := by
    unfold x3
    exact Does.trans (Does.modRel Does.refl) State.setUnitPos_does rfl
  clear_value x3
  refine OutDoes.next ?_
  refine Does.ite ?_ ?_
  · exact Does.trans ‹_› State.thawCore_does rfl
  · extract_lets +onlyGivenNames x5
    have h6 : Does 0x400011010 o x5 := by
      unfold x5
      split
      · exact Does.trans ‹_› State.moveHold_does rfl
      · assumption
    clear_value x5
    exact Does.trans ‹_› State.regrade_does rfl

theorem State.slack_does {o a2 a3} : Does 0x300080010 o (State.slack o a2 a3) := by
  unfold State.slack
  extract_lets +onlyGivenNames x1 x2 x3 x4
  clear_value x1 x2 x3
  have h5 : Does 0x300080010 o x4 := by
    unfold x4
    exact Does.trans (Does.trans Does.refl State.event_does rfl) State.cnt_does rfl
  clear_value x4
  extract_lets +onlyGivenNames x6 x7
  clear_value x6
  have h8 : Does 0x300080010 o x7 := by
    unfold x7
    exact Does.trans ‹_› State.trace_does rfl
  clear_value x7
  refine Does.foldl ?_ fun r9 x10 h11 => ?_
  · assumption
  · exact Does.trans ‹_› State.modCmd_does rfl

theorem execSlackWindow_does {a1 a2 o} : OutDoes 0x300080010 o (execSlackWindow a1 a2 o) := by
  unfold execSlackWindow
  refine OutDoes.need ?_
  extract_lets +onlyGivenNames x1
  clear_value x1
  refine OutDoes.next ?_
  refine Does.foldl ?_ fun r2 x3 h4 => ?_
  · exact Does.refl
  · exact Does.trans ‹_› State.slack_does rfl

theorem execArithIdleStop_does {a1 a2 o} : OutDoes 0x2000 o (execArithIdleStop a1 a2 o) := by
  unfold execArithIdleStop
  extract_lets +onlyGivenNames x1
  clear_value x1
  exact OutDoes.need (OutDoes.need (OutDoes.need (OutDoes.next (Does.modEng Does.refl))))

theorem execSelftestChunkEnd_does {a1 a2 o} : OutDoes 0xc900b6018 o (execSelftestChunkEnd a1 a2 o) := by
  unfold execSelftestChunkEnd
  refine OutDoes.needSome fun a1 => ?_
  extract_lets +onlyGivenNames x2 x3 x4
  clear_value x2 x3
  have h5 : Does 0xc900b6018 o x4 := by
    unfold x4
    exact Does.modRel Does.refl
  clear_value x4
  refine OutDoes.next ?_
  refine Does.ite ?_ ?_
  · assumption
  · exact Does.trans ‹_› State.detectUnit_does rfl

theorem execSelftestStart_does {a1 a2 a3 o} : OutDoes 0x800000000 o (execSelftestStart a1 a2 a3 o) := by
  unfold execSelftestStart
  refine OutDoes.need ?_
  extract_lets +onlyGivenNames x1
  clear_value x1
  exact OutDoes.need (OutDoes.next (Does.modRel Does.refl))

theorem State.onRouter_does {w : Nat} {o s k : State} {r : Nat} (h : Does w o k) : OutDoes w o (State.onRouter s r k) :=
  .need (.need (.next h))

theorem State.onCut_does {w : Nat} {o s k : State} {r p : Nat} (h : Does w o k) : OutDoes w o (State.onCut s r p k) :=
  .need (State.onRouter_does h)

theorem State.poke_does {o a2 a3 a4 a5} : Does 0x297bb9ffff8 o (State.poke o a2 a3 a4 a5) := by
  unfold State.poke
  exact Does.trans Does.refl State.regWrite_does rfl

theorem State.strobe_does {o a2 a3 a4 a5} : Does 0x297bb9ffff8 o (State.strobe o a2 a3 a4 a5) := by
  unfold State.strobe
  exact Does.trans Does.refl State.poke_does rfl

theorem execCutRetrain_does {a1 a2 a3 o} : OutDoes 0x297bb9ffff8 o (execCutRetrain a1 a2 a3 o) := by
  unfold execCutRetrain
  exact State.onCut_does (Does.trans Does.refl State.strobe_does rfl)

theorem State.clearWays_does {o a2 a3 a4} : Does 0x490080bf8 o (State.clearWays o a2 a3 a4) := by
  unfold State.clearWays
  extract_lets +onlyGivenNames x1 x2
  clear_value x1
  have h3 : Does 0x490080bf8 o x2 := by
    unfold x2
    refine Does.foldl ?_ fun r4 x5 h6 => ?_
    · exact Does.refl
    · extract_lets +onlyGivenNames x7
      clear_value x7
      refine Does.ite ?_ ?_
      · exact Does.trans (Does.trans ‹_› State.farEvict_does rfl) State.dirRemove_does rfl
      · assumption
  clear_value x2
  extract_lets +onlyGivenNames x8
  clear_value x8
  refine Does.foldl ?_ fun r9 x10 h11 => ?_
  · assumption
  · refine Does.ite ?_ ?_
    · exact Does.trans (Does.trans ‹_› State.drainLine_does rfl) State.homeEvict_does rfl
    · assumption

theorem State.onDie_does {w : Nat} {o s k : State} {d : Nat} (h : Does w o k) : OutDoes w o (State.onDie s d k) :=
  .need (.need (.next h))

theorem execInject_does {a1 a2 a3 o} : OutDoes 0x297bb9ffff8 o (execInject a1 a2 a3 o) := by
  unfold execInject
  exact State.onDie_does (Does.trans Does.refl State.poke_does rfl)

theorem execFabEcoWrite_does {a1 a2 a3 o} : OutDoes 0x297bb9ffff8 o (execFabEcoWrite a1 a2 a3 o) := by
  unfold execFabEcoWrite
  exact State.onDie_does (Does.trans Does.refl State.poke_does rfl)

theorem execRouteCtlCommit_does {a1 a2 o} : OutDoes 0x297bb9ffff8 o (execRouteCtlCommit a1 a2 o) := by
  unfold execRouteCtlCommit
  exact State.onRouter_does (Does.trans Does.refl State.strobe_does rfl)

theorem execFarQuotaApply_does {a1 a2 o} : OutDoes 0x490080bf8 o (execFarQuotaApply a1 a2 o) := by
  unfold execFarQuotaApply
  refine OutDoes.needSome fun a1 => ?_
  exact State.onDie_does (Does.trans (Does.trans Does.refl State.clearWays_does rfl) State.quotaApply_does rfl)

theorem execDramMgnDone_does {a1 a2 o} : OutDoes 0x90 o (execDramMgnDone a1 a2 o) := by
  unfold execDramMgnDone
  refine OutDoes.need ?_
  extract_lets +onlyGivenNames x1 x2
  clear_value x1
  have h3 : Does 0x90 o x2 := by
    unfold x2
    exact Does.modMem Does.refl
  clear_value x2
  exact OutDoes.next (Does.trans (Does.trans ‹_› State.setRfld_does rfl) State.setRbit_does rfl)

theorem execWindowCommit_does {a1 a2 a3 o} : OutDoes 0x297bb9ffff8 o (execWindowCommit a1 a2 a3 o) := by
  unfold execWindowCommit
  exact OutDoes.need (State.onDie_does (Does.trans Does.refl State.strobe_does rfl))

theorem execErhForceDown_does {a1 a2 a3 o} : OutDoes 0x297bb9ffff8 o (execErhForceDown a1 a2 a3 o) := by
  unfold execErhForceDown
  exact OutDoes.need (OutDoes.next (Does.trans Does.refl State.poke_does rfl))

theorem State.maintRow_does {o a2 a3 a4} : OutDoes 0x297bb9ffff8 o (State.maintRow o a2 a3 a4) := by
  unfold State.maintRow
  exact OutDoes.need (State.onDie_does (Does.trans Does.refl State.poke_does rfl))

theorem execFlushHome_does {a1 a2 o} : OutDoes 0x297bb9ffff8 o (execFlushHome a1 a2 o) := by
  unfold execFlushHome
  exact OutDoes.after Does.refl State.maintRow_does rfl

theorem execBmapCommit_does {a1 a2 o} : OutDoes 0x297bb9ffff8 o (execBmapCommit a1 a2 o) := by
  unfold execBmapCommit
  exact OutDoes.need (OutDoes.next (Does.trans Does.refl State.strobe_does rfl))

theorem execBasinMaintDone_does {a1 o} : OutDoes 0x810 o (execBasinMaintDone a1 o) := by
  unfold execBasinMaintDone
  exact OutDoes.need (State.onDie_does (Does.trans (Does.modBasin Does.refl) State.setRbit_does rfl))

theorem execFlushHomeAndCleanFar_does {a1 a2 o} : OutDoes 0x297bb9ffff8 o (execFlushHomeAndCleanFar a1 a2 o) := by
  unfold execFlushHomeAndCleanFar
  exact OutDoes.after Does.refl State.maintRow_does rfl

theorem execCleanFar_does {a1 a2 o} : OutDoes 0x297bb9ffff8 o (execCleanFar a1 a2 o) := by
  unfold execCleanFar
  exact OutDoes.after Does.refl State.maintRow_does rfl

theorem execRegisterWrite_does {a1 a2 a3 a4 o} : OutDoes 0x297bb9ffff8 o (execRegisterWrite a1 a2 a3 a4 o) := by
  unfold execRegisterWrite
  exact OutDoes.need (OutDoes.next (Does.trans Does.refl State.poke_does rfl))

theorem execFinCtlCommit_does {a1 a2 o} : OutDoes 0x297bb9ffff8 o (execFinCtlCommit a1 a2 o) := by
  unfold execFinCtlCommit
  exact State.onDie_does (Does.trans Does.refl State.strobe_does rfl)

theorem execClkCtlCommit_does {a1 a2 o} : OutDoes 0x297bb9ffff8 o (execClkCtlCommit a1 a2 o) := by
  unfold execClkCtlCommit
  exact State.onDie_does (Does.trans Does.refl State.strobe_does rfl)

theorem execErhRestore_does {a1 a2 o} : OutDoes 0x297bb9ffff8 o (execErhRestore a1 a2 o) := by
  unfold execErhRestore
  exact OutDoes.need (OutDoes.next (Does.trans Does.refl State.strobe_does rfl))

theorem execBmapRootWrite_does {a1 a2 a3 a4 o} : OutDoes 0x297bb9ffff8 o (execBmapRootWrite a1 a2 a3 a4 o) := by
  unfold execBmapRootWrite
  exact OutDoes.need (OutDoes.next (Does.trans Does.refl State.poke_does rfl))

theorem execDramMgnStart_does {a1 a2 o} : OutDoes 0x297bb9ffff8 o (execDramMgnStart a1 a2 o) := by
  unfold execDramMgnStart
  exact OutDoes.need (OutDoes.next (Does.trans Does.refl State.strobe_does rfl))

theorem execSpreadCommit_does {a1 a2 a3 o} : OutDoes 0x297bb9ffff8 o (execSpreadCommit a1 a2 a3 o) := by
  unfold execSpreadCommit
  exact OutDoes.need (State.onDie_does (Does.trans Does.refl State.strobe_does rfl))

theorem execEpochBroadcast_does {o} : OutDoes 0x800010 o (execEpochBroadcast o) := by
  unfold execEpochBroadcast
  exact OutDoes.next (Does.trans Does.refl State.epochApply_does rfl)

theorem execCutRestore_does {a1 a2 a3 o} : OutDoes 0x297bb9ffff8 o (execCutRestore a1 a2 a3 o) := by
  unfold execCutRestore
  exact State.onCut_does (Does.trans Does.refl State.strobe_does rfl)

theorem execErhRctlCommit_does {a1 o} : OutDoes 0x297bb9ffff8 o (execErhRctlCommit a1 o) := by
  unfold execErhRctlCommit
  exact OutDoes.next (Does.trans Does.refl State.strobe_does rfl)

theorem execErhRetrain_does {a1 a2 o} : OutDoes 0x297bb9ffff8 o (execErhRetrain a1 a2 o) := by
  unfold execErhRetrain
  exact OutDoes.need (OutDoes.next (Does.trans Does.refl State.strobe_does rfl))

theorem execFarQuotaWrite_does {a1 a2 a3 a4 o} : OutDoes 0x297bb9ffff8 o (execFarQuotaWrite a1 a2 a3 a4 o) := by
  unfold execFarQuotaWrite
  exact OutDoes.need (State.onDie_does (Does.trans Does.refl State.poke_does rfl))

theorem execCutForceDown_does {a1 a2 a3 a4 o} : OutDoes 0x297bb9ffff8 o (execCutForceDown a1 a2 a3 a4 o) := by
  unfold execCutForceDown
  exact State.onCut_does (Does.trans Does.refl State.poke_does rfl)

end Sys2Proof.Machine
end

