-- ==== Sys2Proof/Laws/DoesLinks.lean ====
section
/-! SUPPORT. What each operation can do, once per operation (the basin protocol, DRAM events, cuts, Erhar, collectives and CXL). Read `Does w o t` in Laws/Does.lean. -/

set_option Elab.async false

namespace Sys2Proof.Machine

theorem State.atHome_does {w : Nat} {o s : State} {r : Req} {l : Nat} {k : Out} (h : OutDoes w o k) :
    OutDoes w o (State.atHome s r l k) := .need (.need h)

theorem State.parityGate_does {w : Nat} {o s k : State} {r : Req} {l : Nat} {u : Upset} (h : Does w o s) (hk : Does w o k)
    (hm : 0x310 &&& w = 0x310) : Does w o (State.parityGate s r l u k) := by
  unfold State.parityGate
  refine Does.ite (Does.trans ?_ State.nackTo_does (Does.sub rfl hm)) hk
  exact Does.trans h State.dirRebuild_does (Does.sub rfl hm)

theorem State.readSecs_does {o a2 a3 a4 a5 a6} : Does 0x490080bf8 o (State.readSecs o a2 a3 a4 a5 a6).2.2.2 := by
  unfold State.readSecs
  refine foldl_keeps (fun r => Does 0x490080bf8 o (Prod.snd (Prod.snd (Prod.snd (r))))) ?_ fun r1 x2 h3 => ?_
  · dsimp -zeta -iota only
    exact Does.refl
  · refine Does.ite' (fun r => Prod.snd (Prod.snd (Prod.snd (r)))) ?_ ?_
    · assumption
    · split
      rename_i x4 x5
      refine (fun h6 : Does 0x490080bf8 o x4 => ?_) (Does.named1 ?_ x5)
      rotate_left
      · exact Does.trans ‹_› State.homeRead_does rfl
      extract_lets +onlyGivenNames x7
      dsimp -zeta -iota only
      assumption

theorem State.reply_does {o a2} : Does 0x200 o (State.reply o a2) := by
  unfold State.reply
  refine Does.ite ?_ ?_
  · exact Does.trans Does.refl State.send_does rfl
  · exact Does.refl

theorem State.homeRdU_does {o a2 a3 a4 a5 a6} : Does 0x490080bf8 o (State.homeRdU o a2 a3 a4 a5 a6) := by
  unfold State.homeRdU
  split
  rename_i x1 x2
  refine (fun h3 : Does 0x490080bf8 o x1 => ?_) (Does.named3 ?_ x2)
  rotate_left
  · exact Does.trans (Does.trans Does.refl State.attrCheck_does rfl) State.readSecs_does rfl
  refine Does.ite ?_ ?_
  · refine Does.ite ?_ ?_
    · exact Does.modMem ‹_›
    · exact Does.trans ‹_› State.reply_does rfl
  · refine Does.ite ?_ ?_
    · exact Does.trans ‹_› State.reply_does rfl
    · exact Does.trans ‹_› State.reply_does rfl

theorem execRdU_does {a1 a2 a3 a4 o} : OutDoes 0x490080bf8 o (execRdU a1 a2 a3 a4 o) := by
  unfold execRdU
  refine State.atHome_does (OutDoes.next ?_)
  refine State.parityGate_does ?_ ?_ rfl
  · exact Does.refl
  · exact Does.trans Does.refl State.homeRdU_does rfl

theorem State.atDie_does {w : Nat} {o s : State} {d l : Nat} {k : Out} (h : OutDoes w o k) :
    OutDoes w o (State.atDie s d l k) := .need (.need h)

theorem State.holdMsg_does {o a2 a3 a4} : Does 0x200 o (State.holdMsg o a2 a3 a4) := by
  unfold State.holdMsg
  exact Does.trans Does.refl State.modPend_does rfl

theorem State.fwdAt_does {o a2 a3 a4} : OutDoes 0x300 o (State.fwdAt o a2 a3 a4) := by
  unfold State.fwdAt
  refine State.atDie_does (OutDoes.needSome fun a6 => ?_)
  refine OutDoes.next ?_
  extract_lets +onlyGivenNames x7
  have h8 : Does 0x300 o x7 := by
    unfold x7
    exact Does.trans Does.refl State.dropMsg_does rfl
  clear_value x7
  extract_lets +onlyGivenNames x9
  clear_value x9
  refine Does.ite ?_ ?_
  · exact Does.trans ‹_› State.holdMsg_does rfl
  · exact Does.trans ‹_› State.serveFwd_does rfl

theorem execSnpCur_does {a1 a2 o} : OutDoes 0x300 o (execSnpCur a1 a2 o) := by
  unfold execSnpCur
  exact OutDoes.after Does.refl State.fwdAt_does rfl

theorem State.redSecs_does {o a2 a3 a4} : Does 0x490080ff8 o (State.redSecs o a2 a3 a4).2.2 := by
  unfold State.redSecs
  refine foldl_keeps (fun r => Does 0x490080ff8 o (Prod.snd (Prod.snd (r)))) ?_ fun r1 x2 h3 => ?_
  · dsimp -zeta -iota only
    exact Does.refl
  · extract_lets +onlyGivenNames x4
    clear_value x4
    refine Does.ite' (fun r => Prod.snd (Prod.snd (r))) ?_ ?_
    · assumption
    · split
      rename_i x5 x6
      refine (fun h7 : Does 0x490080ff8 o x5 => ?_) (Does.named2 ?_ x6)
      rotate_left
      · exact Does.trans ‹_› State.homeWrite_does rfl
      dsimp -zeta -iota only
      assumption

theorem execUpg_does {a1 a2 a3 o} : OutDoes 0x490080ff8 o (execUpg a1 a2 a3 o) := by
  unfold execUpg
  exact State.atHome_does (OutDoes.need (OutDoes.next (Does.trans Does.refl State.homeRdX_does rfl)))

theorem execSpd_does {a1 a2 a3 o} : OutDoes 0x490080bf8 o (execSpd a1 a2 a3 o) := by
  unfold execSpd
  refine State.atHome_does (OutDoes.next ?_)
  refine Does.ite ?_ ?_
  · exact Does.trans Does.refl State.reply_does rfl
  · refine Does.foldl ?_ fun r6 x7 h8 => ?_
    · exact Does.refl
    · exact Does.trans ‹_› State.spdSector_does rfl

theorem State.served_does {o a2 a3 a4} : Does 0x297bb9ffff8 o (State.served o a2 a3 a4) := by
  unfold State.served
  split
  · exact Does.refl
  · extract_lets +onlyGivenNames x1
    have h2 : Does 0x297bb9ffff8 o x1 := by
      unfold x1
      exact Does.trans (Does.trans Does.refl State.dropPend_does rfl) State.performAccess_does rfl
    clear_value x1
    extract_lets +onlyGivenNames x3
    have h4 : Does 0x297bb9ffff8 o x3 := by
      unfold x3
      exact Does.trans ‹_› State.serveHeld_does rfl
    clear_value x3
    refine Does.ite ?_ ?_
    · assumption
    · exact Does.trans (Does.trans ‹_› State.farEvict_does rfl) State.dirRemove_does rfl

theorem State.dataAt_does {o a2 a3 a4 a5} : OutDoes 0x297bb9ffff8 o (State.dataAt o a2 a3 a4 a5) := by
  unfold State.dataAt
  refine State.atDie_does (OutDoes.needSome fun a6 => ?_)
  refine OutDoes.next ?_
  split
  rename_i x7 x8
  refine (fun h9 : Does 0x297bb9ffff8 o x7 => ?_) (Does.named1 ?_ x8)
  rotate_left
  · exact Does.trans (Does.trans Does.refl State.dropMsg_does rfl) State.install_does rfl
  exact Does.trans ‹_› State.served_does rfl

theorem execRedU_does {a1 a2 a3 a4 o} : OutDoes 0x490080ff8 o (execRedU a1 a2 a3 a4 o) := by
  unfold execRedU
  refine State.atHome_does (OutDoes.need (OutDoes.next ?_))
  extract_lets +onlyGivenNames x6
  have h7 : Does 0x490080ff8 o x6 := by
    unfold x6
    exact Does.trans Does.refl State.attrCheck_does rfl
  clear_value x6
  extract_lets +onlyGivenNames x8 x9
  clear_value x8 x9
  refine Does.ite ?_ ?_
  · exact Does.trans ‹_› State.reply_does rfl
  · split
    rename_i x10 x11
    refine (fun h12 : Does 0x490080ff8 o x10 => ?_) (Does.named2 ?_ x11)
    rotate_left
    · exact Does.trans ‹_› State.redSecs_does rfl
    refine Does.ite ?_ ?_
    · exact Does.trans ‹_› State.reply_does rfl
    · refine Does.ite ?_ ?_
      · exact Does.trans ‹_› State.reply_does rfl
      · assumption

theorem execDataS_does {a1 a2 o} : OutDoes 0x297bb9ffff8 o (execDataS a1 a2 o) := by
  unfold execDataS
  exact OutDoes.after Does.refl State.dataAt_does rfl

theorem execGntX_does {a1 a2 o} : OutDoes 0x297bb9ffff8 o (execGntX a1 a2 o) := by
  unfold execGntX
  refine State.atDie_does (OutDoes.needSome fun a6 => ?_)
  refine OutDoes.next ?_
  extract_lets +onlyGivenNames x7
  have h8 : Does 0x297bb9ffff8 o x7 := by
    unfold x7
    exact Does.trans Does.refl State.dropMsg_does rfl
  clear_value x7
  refine Does.ite ?_ ?_
  · exact Does.trans (Does.trans ‹_› State.setOwned_does rfl) State.served_does rfl
  · exact Does.trans ‹_› State.modPend_does rfl

theorem execLook_does {a1 a2 a3 a4 o} : OutDoes 0x490080bf8 o (execLook a1 a2 a3 a4 o) := by
  unfold execLook
  refine State.atHome_does (OutDoes.next ?_)
  refine State.parityGate_does ?_ ?_ rfl
  · exact Does.refl
  · exact Does.trans Does.refl State.homeRdU_does rfl

theorem execWbU_does {a1 a2 a3 o} : OutDoes 0x490080ff8 o (execWbU a1 a2 a3 o) := by
  unfold execWbU
  refine State.atHome_does (OutDoes.need (OutDoes.next ?_))
  refine Does.ite ?_ ?_
  · exact Does.trans Does.refl State.reply_does rfl
  · extract_lets +onlyGivenNames x6
    have h7 : Does 0x490080ff8 o x6 := by
      unfold x6
      exact Does.trans (Does.trans Does.refl State.attrCheck_does rfl) State.drainLine_does rfl
    clear_value x6
    split
    rename_i x8 x9
    refine (fun h10 : Does 0x490080ff8 o x8 => ?_) (Does.named1 ?_ x9)
    rotate_left
    · unfold State.recall
      split
      · dsimp -zeta -iota only
        assumption
      · split
        · dsimp -zeta -iota only
          assumption
        · refine Does.ite' (fun r => Prod.snd (r)) ?_ ?_
          · extract_lets +onlyGivenNames x11
            have h12 : Does 0x490080ff8 o x11 := by
              unfold x11
              exact Does.trans (Does.trans ‹_› State.farWriteBack_does rfl) State.farDrop_does rfl
            clear_value x11
            extract_lets +onlyGivenNames x13
            have h14 : Does 0x490080ff8 o x13 := by
              unfold x13
              refine Does.ite ?_ ?_
              · exact Does.trans ‹_› State.predMove_does rfl
              · assumption
            clear_value x13
            dsimp -zeta -iota only
            exact Does.trans ‹_› State.dirRemove_does rfl
          · dsimp -zeta -iota only
            exact Does.trans ‹_› State.biSnoop_does rfl
        · extract_lets +onlyGivenNames x15
          have h16 : Does 0x490080ff8 o x15 := by
            unfold x15
            refine Does.foldl ?_ fun r17 x18 h19 => ?_
            · assumption
            · exact Does.trans (Does.trans ‹_› State.farDrop_does rfl) State.dirRemove_does rfl
          clear_value x15
          refine Does.ite' (fun r => Prod.snd (r)) ?_ ?_
          · dsimp -zeta -iota only
            exact Does.trans ‹_› State.biSnoop_does rfl
          · refine Does.ite' (fun r => Prod.snd (r)) ?_ ?_
            · dsimp -zeta -iota only
              exact Does.trans ‹_› State.biSnoop_does rfl
            · dsimp -zeta -iota only
              assumption
    exact Does.trans (Does.trans ‹_› State.breakResv_does rfl) State.mergeLine_does rfl

theorem execRdS_does {a1 a2 a3 a4 o} : OutDoes 0x490080bf8 o (execRdS a1 a2 a3 a4 o) := by
  unfold execRdS
  refine State.atHome_does (OutDoes.need (OutDoes.next ?_))
  refine State.parityGate_does ?_ ?_ rfl
  · exact Does.refl
  · exact Does.trans Does.refl State.homeRdS_does rfl

theorem execFwdAck_does {a1 a2 o} : OutDoes 0x490080ff8 o (execFwdAck a1 a2 o) := by
  unfold execFwdAck
  refine State.atDie_does (OutDoes.needSome fun a6 => ?_)
  refine OutDoes.next ?_
  extract_lets +onlyGivenNames x7
  have h8 : Does 0x490080ff8 o x7 := by
    unfold x7
    exact Does.trans Does.refl State.dropMsg_does rfl
  clear_value x7
  extract_lets +onlyGivenNames x9
  clear_value x9
  refine Does.ite ?_ ?_
  · exact Does.trans ‹_› State.mergeLine_does rfl
  · exact Does.trans ‹_› State.answer_does rfl

theorem execFwdX_does {a1 a2 o} : OutDoes 0x300 o (execFwdX a1 a2 o) := by
  unfold execFwdX
  exact OutDoes.after Does.refl State.fwdAt_does rfl

theorem execDataU_does {a1 a2 o} : OutDoes 0x900003f8 o (execDataU a1 a2 o) := by
  unfold execDataU
  refine State.atDie_does (OutDoes.needSome fun a6 => ?_)
  refine OutDoes.next ?_
  extract_lets +onlyGivenNames x7
  have h8 : Does 0x900003f8 o x7 := by
    unfold x7
    exact Does.trans Does.refl State.dropMsg_does rfl
  clear_value x7
  refine Does.ite ?_ ?_
  · assumption
  · split
    rename_i x9 x10
    refine (fun h11 : Does 0x900003f8 o x9 => ?_) (Does.named1 ?_ x10)
    rotate_left
    · exact Does.trans ‹_› State.farAlloc_does rfl
    refine Does.ite ?_ ?_
    · assumption
    · refine Does.foldl ?_ fun r12 x13 h14 => ?_
      · assumption
      · extract_lets +onlyGivenNames x15
        clear_value x15
        refine Does.ite ?_ ?_
        · assumption
        · exact Does.trans ‹_› State.farFill_does rfl

theorem execWbAck_does {a1 a2 o} : OutDoes 0x200 o (execWbAck a1 a2 o) := by
  unfold execWbAck
  refine State.atDie_does (OutDoes.needSome fun a6 => ?_)
  exact OutDoes.next (Does.trans Does.refl State.dropMsg_does rfl)

theorem State.ownerBack_does {o a2 a3 a4} : Does 0x490080ff8 o (State.ownerBack o a2 a3 a4) := by
  unfold State.ownerBack
  split
  extract_lets +onlyGivenNames x1 x2
  clear_value x1
  have h3 : Does 0x490080ff8 o x2 := by
    unfold x2
    refine Does.ite ?_ ?_
    · exact Does.trans Does.refl State.farMarkClean_does rfl
    · exact Does.trans Does.refl State.farDrop_does rfl
  clear_value x2
  exact Does.trans ‹_› State.homeWb_does rfl

theorem execWbD_does {a1 a2 o} : OutDoes 0x490080ff8 o (execWbD a1 a2 o) := by
  unfold execWbD
  exact State.atDie_does (OutDoes.need (OutDoes.next (Does.trans Does.refl State.ownerBack_does rfl)))

theorem execErr_does {a1 a2 o} : OutDoes 0x206981b6ff8 o (execErr a1 a2 o) := by
  unfold execErr
  refine State.atDie_does (OutDoes.needSome fun a6 => ?_)
  refine OutDoes.next ?_
  extract_lets +onlyGivenNames x7
  have h8 : Does 0x206981b6ff8 o x7 := by
    unfold x7
    exact Does.trans Does.refl State.dropMsg_does rfl
  clear_value x7
  split
  · assumption
  · exact Does.trans (Does.trans (Does.trans ‹_› State.dropPend_does rfl) State.failAccess_does rfl) State.serveHeld_does rfl

theorem execAtN_does {a1 a2 a3 a4 a5 a6 a7 o} : OutDoes 0x490080ff8 o (execAtN a1 a2 a3 a4 a5 a6 a7 o) := by
  unfold execAtN
  extract_lets +onlyGivenNames x1 x2
  clear_value x1 x2
  refine State.atHome_does (OutDoes.need (OutDoes.next ?_))
  refine State.parityGate_does ?_ ?_ rfl
  · exact Does.refl
  · split
    rename_i x13 x14
    refine (fun h15 : Does 0x490080ff8 o x13 => ?_) (Does.named3 ?_ x14)
    rotate_left
    · exact Does.trans (Does.trans Does.refl State.attrCheck_does rfl) State.nearAtomic_does rfl
    refine Does.ite ?_ ?_
    · exact Does.trans ‹_› State.reply_does rfl
    · refine Does.ite ?_ ?_
      · exact Does.trans ‹_› State.reply_does rfl
      · exact Does.trans ‹_› State.reply_does rfl

theorem execNackRetry_does {a1 a2 o} : OutDoes 0x200 o (execNackRetry a1 a2 o) := by
  unfold execNackRetry
  refine State.atDie_does (OutDoes.needSome fun a6 => ?_)
  exact OutDoes.need (OutDoes.next (Does.trans Does.refl State.modPend_does rfl))

theorem execInvAck_does {a1 a2 o} : OutDoes 0x490080ff8 o (execInvAck a1 a2 o) := by
  unfold execInvAck
  refine State.atDie_does (OutDoes.needSome fun a6 => ?_)
  exact OutDoes.next (Does.trans (Does.trans Does.refl State.dropMsg_does rfl) State.answer_does rfl)

theorem execRdX_does {a1 a2 a3 a4 o} : OutDoes 0x490080ff8 o (execRdX a1 a2 a3 a4 o) := by
  unfold execRdX
  refine State.atHome_does (OutDoes.need (OutDoes.next ?_))
  refine State.parityGate_does ?_ ?_ rfl
  · exact Does.refl
  · exact Does.trans Does.refl State.homeRdX_does rfl

theorem execNack_does {a1 a2 a3 o} : OutDoes 0x200 o (execNack a1 a2 a3 o) := by
  unfold execNack
  refine State.atDie_does (OutDoes.needSome fun a6 => ?_)
  exact OutDoes.next (Does.trans (Does.trans Does.refl State.dropMsg_does rfl) State.modPend_does rfl)

theorem execWbK_does {a1 a2 o} : OutDoes 0x490080ff8 o (execWbK a1 a2 o) := by
  unfold execWbK
  exact State.atDie_does (OutDoes.need (OutDoes.next (Does.trans Does.refl State.ownerBack_does rfl)))

theorem execFwdS_does {a1 a2 o} : OutDoes 0x300 o (execFwdS a1 a2 o) := by
  unfold execFwdS
  exact OutDoes.after Does.refl State.fwdAt_does rfl

theorem execDataX_does {a1 a2 o} : OutDoes 0x297bb9ffff8 o (execDataX a1 a2 o) := by
  unfold execDataX
  exact OutDoes.after Does.refl State.dataAt_does rfl

theorem execInv_does {a1 a2 o} : OutDoes 0x300 o (execInv a1 a2 o) := by
  unfold execInv
  refine State.atDie_does (OutDoes.needSome fun a6 => ?_)
  refine OutDoes.next ?_
  extract_lets +onlyGivenNames x7
  have h8 : Does 0x300 o x7 := by
    unfold x7
    exact Does.trans Does.refl State.dropMsg_does rfl
  clear_value x7
  refine Does.ite ?_ ?_
  · exact Does.trans ‹_› State.holdMsg_does rfl
  · exact Does.trans ‹_› State.serveInv_does rfl

theorem State.leaveStop_does {o a2} : Does 0x900101f8 o (State.leaveStop o a2) := by
  unfold State.leaveStop
  extract_lets +onlyGivenNames x1 x2 x3
  clear_value x1 x2
  have h4 : Does 0x900101f8 o x3 := by
    unfold x3
    exact Does.modMem Does.refl
  clear_value x3
  extract_lets +onlyGivenNames x5
  have h6 : Does 0x900101f8 o x5 := by
    unfold x5
    refine Does.foldl ?_ fun r7 x8 h9 => ?_
    · assumption
    · exact Does.trans ‹_› State.homeClean_does rfl
  clear_value x5
  exact Does.modThr ‹_›

theorem execStopReadTimeout_does {a1 a2 o} : OutDoes 0x206981b6ff8 o (execStopReadTimeout a1 a2 o) := by
  unfold execStopReadTimeout
  refine OutDoes.needSome fun a1 => ?_
  refine OutDoes.need ?_
  extract_lets +onlyGivenNames x2
  have h3 : Does 0x206981b6ff8 o x2 := by
    unfold x2
    exact Does.modMem Does.refl
  clear_value x2
  refine OutDoes.next ?_
  refine Does.ite ?_ ?_
  · exact Does.trans ‹_› State.reply_does rfl
  · refine Does.ite ?_ ?_
    · split
      · refine Does.ite ?_ ?_
        · exact Does.trans (Does.trans ‹_› State.modThread_does rfl) State.raiseSt_does rfl
        · assumption
      · assumption
    · exact Does.modEng ‹_›

theorem execDramRefresh_does {a1 a2 a3 a4 a5 o} : OutDoes 0x80 o (execDramRefresh a1 a2 a3 a4 a5 o) := by
  unfold execDramRefresh
  exact OutDoes.need (OutDoes.next (Does.modMem Does.refl))

theorem State.sectRewrite_does {o a2 a3} : Does 0x20 o (State.sectRewrite o a2 a3).2 := by
  unfold State.sectRewrite
  extract_lets +onlyGivenNames x1 x2 x3 x4
  clear_value x1 x2 x4
  dsimp -zeta -iota only
  split
  · unfold x3
    exact Does.modMem Does.refl
  · unfold x3
    exact Does.modMem Does.refl
  · unfold x3
    exact Does.modMem Does.refl
  · unfold x3
    exact Does.modMem Does.refl

theorem execPatrolScrub_does {a1 a2 : Nat} {a3 : Upset} {o : State} : OutDoes 0x900000f8 o (execPatrolScrub a1 a2 a3 o) := by
  unfold execPatrolScrub
  refine .need (.need ?_)
  extract_lets +onlyGivenNames x1
  have h1 : Does 0x900000f8 o x1 := by
    unfold x1
    exact Does.trans (Does.trans Does.refl State.cnt_does rfl) State.pmc_does rfl
  clear_value x1
  split
  rename_i out s1 e
  have h2 : Does 0x900000f8 o s1 := .named1 (Does.trans h1 State.sectRewrite_does rfl) e
  extract_lets +onlyGivenNames wr
  have hw : ∀ r, Does 0x900000f8 o r → Does 0x900000f8 o (wr r) := fun r h =>
    Does.trans (Does.trans h State.cnt_does rfl) State.pmc_does rfl
  clear_value wr
  refine .next ?_
  split
  · exact hw _ (Does.trans h2 State.dramReport_does rfl)
  · exact hw _ (Does.trans h2 State.dramReport_does rfl)
  · exact hw _ (Does.trans h2 State.dramReport_does rfl)
  · exact h2

theorem execDramThermalSample_does {a1 a2 o} : OutDoes 0x1900101f8 o (execDramThermalSample a1 a2 o) := by
  unfold execDramThermalSample
  refine OutDoes.need ?_
  extract_lets +onlyGivenNames x1 x2 x3
  clear_value x1 x2
  have h4 : Does 0x1900101f8 o x3 := by
    unfold x3
    exact Does.modMem Does.refl
  clear_value x3
  extract_lets +onlyGivenNames x5
  have h6 : Does 0x1900101f8 o x5 := by
    unfold x5
    refine Does.ite ?_ ?_
    · exact Does.trans ‹_› State.event_does rfl
    · assumption
  clear_value x5
  refine OutDoes.next ?_
  refine Does.ite ?_ ?_
  · exact Does.trans ‹_› State.leaveStop_does rfl
  · assumption

theorem State.cutForward_does {o a2 a3 a4} : Does 0x800000 o (State.cutForward o a2 a3 a4) := by
  unfold State.cutForward
  split
  · exact Does.refl
  · extract_lets +onlyGivenNames x1
    clear_value x1
    refine Does.ite ?_ ?_
    · exact Does.refl
    · exact Does.trans Does.refl State.cutSend_does rfl

theorem State.atCut_does {w : Nat} {o s : State} {r p : Nat} {k : Out} (h : OutDoes w o k) :
    OutDoes w o (State.atCut s r p k) := .need h

theorem execCutReplay_does {a1 a2 o} : OutDoes 0x800000 o (execCutReplay a1 a2 o) := by
  unfold execCutReplay
  refine State.atCut_does (OutDoes.needSome fun a6 => ?_)
  exact OutDoes.next (Does.trans Does.refl State.modCutPort_does rfl)

theorem State.bundleBad_does {o a2 a3 a4} : Does 0x90800010 o (State.bundleBad o a2 a3 a4) := by
  unfold State.bundleBad
  extract_lets +onlyGivenNames x1
  clear_value x1
  split
  rename_i x2 _ x3
  refine (fun h4 : Does 0x90800010 o x2 => ?_) (Does.named1st ?_ x3)
  rotate_left
  · exact Does.trans Does.refl State.tally_does rfl
  extract_lets +onlyGivenNames x5 x6 x7
  clear_value x5 x6
  have h8 : Does 0x90800010 o x7 := by
    unfold x7
    exact Does.trans ‹_› State.sign_does rfl
  clear_value x7
  refine Does.ite ?_ ?_
  · extract_lets +onlyGivenNames x9
    have h10 : Does 0x90800010 o x9 := by
      unfold x9
      exact Does.trans ‹_› State.sign_does rfl
    clear_value x9
    extract_lets +onlyGivenNames x11
    clear_value x11
    refine Does.ite ?_ ?_
    · assumption
    · exact Does.trans (Does.trans ‹_› State.setRfld_does rfl) State.cutRetrainW_does rfl
  · assumption

theorem State.attemptFails_does {o a2 a3 a4} : Does 0x1908b6310 o (State.attemptFails o a2 a3 a4) := by
  unfold State.attemptFails
  extract_lets +onlyGivenNames x1 x2
  clear_value x1
  have h3 : Does 0x1908b6310 o x2 := by
    unfold x2
    exact Does.trans (Does.trans Does.refl State.setRfld_does rfl) State.modCutPort_does rfl
  clear_value x2
  refine Does.ite ?_ ?_
  · exact Does.trans ‹_› State.cutDown_does rfl
  · assumption

theorem execCutTrain_does {a1 a2 a3 o} : OutDoes 0x1908b6310 o (execCutTrain a1 a2 a3 o) := by
  unfold execCutTrain
  refine State.atCut_does (OutDoes.need (OutDoes.next ?_))
  extract_lets +onlyGivenNames x6 x7 x8 x9
  clear_value x6 x7 x8
  have h10 : Does 0x1908b6310 o x9 := by
    unfold x9
    exact Does.trans (Does.trans Does.refl State.setRfld_does rfl) State.setRfld_does rfl
  clear_value x9
  extract_lets +onlyGivenNames x11
  have h12 : Does 0x1908b6310 o x11 := by
    unfold x11
    refine Does.foldl ?_ fun r13 x14 h15 => ?_
    · assumption
    · exact Does.trans ‹_› State.bundleBad_does rfl
  clear_value x11
  split
  · exact Does.trans ‹_› State.attemptFails_does rfl
  · refine Does.ite ?_ ?_
    · exact Does.trans ‹_› State.attemptFails_does rfl
    · refine Does.ite ?_ ?_
      · exact Does.trans ‹_› State.cutDown_does rfl
      · exact Does.trans ‹_› State.modCutPort_does rfl

theorem State.cutBad_does {o a2 a3 a4} : Does 0x90800010 o (State.cutBad o a2 a3 a4) := by
  unfold State.cutBad
  extract_lets +onlyGivenNames x1 x2
  clear_value x1
  have h3 : Does 0x90800010 o x2 := by
    unfold x2
    exact Does.trans Does.refl State.setRfld_does rfl
  clear_value x2
  extract_lets +onlyGivenNames x4 x5
  clear_value x4
  have h6 : Does 0x90800010 o x5 := by
    unfold x5
    exact Does.trans ‹_› State.modCutPort_does rfl
  clear_value x5
  extract_lets +onlyGivenNames x7
  have h8 : Does 0x90800010 o x7 := by
    unfold x7
    refine Does.foldl ?_ fun r9 x10 h11 => ?_
    · assumption
    · exact Does.trans ‹_› State.bundleBad_does rfl
  clear_value x7
  refine Does.ite ?_ ?_
  · exact Does.trans ‹_› State.cutRetrainW_does rfl
  · assumption

theorem State.cutControl_does {o a2 a3 a4} : Does 0x800000 o (State.cutControl o a2 a3 a4) := by
  unfold State.cutControl
  exact Does.trans (Does.trans Does.refl State.modCutPort_does rfl) State.cutTx_does rfl

theorem execCutFrame_does {a1 a2 a3 o} : OutDoes 0x90800010 o (execCutFrame a1 a2 a3 o) := by
  unfold execCutFrame
  refine State.atCut_does (OutDoes.need (OutDoes.next ?_))
  extract_lets +onlyGivenNames x6
  clear_value x6
  refine Does.ite ?_ ?_
  · exact Does.trans Does.refl State.cutBad_does rfl
  · extract_lets +onlyGivenNames x7
    clear_value x7
    refine Does.ite ?_ ?_
    · exact Does.refl
    · exact Does.trans (Does.trans Does.refl State.modCutPort_does rfl) State.cutControl_does rfl

theorem execCutDown_does {a1 a2 a3 o} : OutDoes 0x1908b6310 o (execCutDown a1 a2 a3 o) := by
  unfold execCutDown
  exact State.atCut_does (OutDoes.need (OutDoes.need (OutDoes.next (Does.trans Does.refl State.cutDown_does rfl))))

theorem execCutFreezeTimeout_does {a1 a2 a3 o} : OutDoes 0x1908b6310 o (execCutFreezeTimeout a1 a2 a3 o) := by
  unfold execCutFreezeTimeout
  exact State.atCut_does (OutDoes.need (OutDoes.next (Does.trans Does.refl State.attemptFails_does rfl)))

theorem State.cutMalformed_does {o a2 a3} : Does 0x20000800010 o (State.cutMalformed o a2 a3) := by
  unfold State.cutMalformed
  extract_lets +onlyGivenNames x1
  have h2 : Does 0x20000800010 o x1 := by
    unfold x1
    refine Does.ite ?_ ?_
    · exact Does.trans Does.refl State.cnt_does rfl
    · exact Does.refl
  clear_value x1
  refine Does.ite ?_ ?_
  · split
    rename_i x3 x4
    refine (fun h5 : Does 0x20000800010 o x3 => ?_) (Does.named1 ?_ x4)
    rotate_left
    · exact Does.trans ‹_› State.class6_does rfl
    exact Does.trans ‹_› State.cutForward_does rfl
  · assumption

theorem execCutPacketForward_does {a1 a2 a3 o} : OutDoes 0x20000800010 o (execCutPacketForward a1 a2 a3 o) := by
  unfold execCutPacketForward
  refine OutDoes.need (OutDoes.need (OutDoes.next ?_))
  refine Does.ite ?_ ?_
  · exact Does.trans Does.refl State.cutMalformed_does rfl
  · refine Does.ite ?_ ?_
    · exact Does.trans Does.refl State.cutForward_does rfl
    · exact Does.trans Does.refl State.cutForward_does rfl

theorem execCutTrainDone_does {a1 a2 o} : OutDoes 0x800010 o (execCutTrainDone a1 a2 o) := by
  unfold execCutTrainDone
  refine State.atCut_does ?_
  extract_lets +onlyGivenNames x6
  clear_value x6
  refine OutDoes.need (OutDoes.needSome fun a7 => ?_)
  refine OutDoes.needSome fun a8 => ?_
  extract_lets +onlyGivenNames x9 x10
  clear_value x9 x10
  exact OutDoes.next (Does.trans (Does.trans (Does.setReg Does.refl) State.modCutPort_does rfl) State.cutTx_does rfl)

theorem execCutPortReset_does {a1 a2 o} : OutDoes 0x800010 o (execCutPortReset a1 a2 o) := by
  unfold execCutPortReset
  refine State.atCut_does ?_
  extract_lets +onlyGivenNames x6
  have h7 : Does 0x800010 o x6 := by
    unfold x6
    exact Does.trans Does.refl State.modCutPort_does rfl
  clear_value x6
  refine OutDoes.next ?_
  refine Does.ite ?_ ?_
  · assumption
  · exact Does.trans ‹_› State.cutStart_does rfl

theorem State.mbNotify_does {o a2 a3 a4} : Does 0x100c0000 o (State.mbNotify o a2 a3 a4) := by
  unfold State.mbNotify
  split
  · refine Does.ite ?_ ?_
    · exact Does.modCxl Does.refl
    · refine Does.ite ?_ ?_
      · exact Does.modCxl Does.refl
      · exact Does.refl
  · extract_lets +onlyGivenNames x1
    clear_value x1
    refine Does.ite ?_ ?_
    · exact Does.trans Does.refl State.addCtr_does rfl
    · exact Does.refl

theorem State.mbAnswer_does {o a2 a3 a4 a5} : Does 0x300c0000 o (State.mbAnswer o a2 a3 a4 a5) := by
  unfold State.mbAnswer
  extract_lets +onlyGivenNames x1 x2 x3
  clear_value x1 x2
  have h4 : Does 0x300c0000 o x3 := by
    unfold x3
    exact Does.trans Does.refl State.modPage_does rfl
  clear_value x3
  exact Does.trans ‹_› State.mbNotify_does rfl

theorem State.bgStart_does {o a2 a3 a4} : Does 0x700c0000 o (State.bgStart o a2 a3 a4) := by
  unfold State.bgStart
  extract_lets +onlyGivenNames x1 x2 x3
  clear_value x1 x2
  have h4 : Does 0x700c0000 o x3 := by
    unfold x3
    exact Does.modMbx Does.refl
  clear_value x3
  exact Does.trans ‹_› State.mbAnswer_does rfl

theorem State.modBg_does {o a2 a3} : Does 0x40000000 o (State.modBg o a2 a3) := by
  unfold State.modBg
  exact Does.modMbx Does.refl

theorem State.bgEnd_does {o a2 a3 a4} : Does 0x500c0000 o (State.bgEnd o a2 a3 a4) := by
  unfold State.bgEnd
  split
  · exact Does.refl
  · refine Does.ite ?_ ?_
    · exact Does.refl
    · extract_lets +onlyGivenNames x1
      have h2 : Does 0x500c0000 o x1 := by
        unfold x1
        exact Does.modMbx Does.refl
      clear_value x1
      exact Does.trans ‹_› State.mbNotify_does rfl

theorem State.erhUp_does {o a2 a3 a4 a5} : Does 0x1000010 o (State.erhUp o a2 a3 a4 a5) := by
  unfold State.erhUp
  extract_lets +onlyGivenNames x1 x2
  clear_value x1 x2
  exact Does.trans (Does.trans (Does.setReg Does.refl) State.modErhPort_does rfl) State.erhTx_does rfl

theorem State.atErh_does {w : Nat} {o s : State} {p : Nat} {k : Out} (h : OutDoes w o k) :
    OutDoes w o (State.atErh s p k) := .need h

theorem State.erhAnswer_does {o a2 a3 a4 a5} : Does 0x1000010 o (State.erhAnswer o a2 a3 a4 a5) := by
  unfold State.erhAnswer
  exact Does.trans Does.refl State.erhInject_does rfl

theorem State.erhDiscard_does {o a2 a3} : Does 0x1000010 o (State.erhDiscard o a2 a3) := by
  unfold State.erhDiscard
  extract_lets +onlyGivenNames x1
  have h2 : Does 0x1000010 o x1 := by
    unfold x1
    exact Does.trans Does.refl State.gcnt_does rfl
  clear_value x1
  refine Does.ite ?_ ?_
  · exact Does.trans ‹_› State.erhAnswer_does rfl
  · assumption

theorem execLinkMgmt_does {a1 a2 o} : OutDoes 0x1000010 o (execLinkMgmt a1 a2 o) := by
  unfold execLinkMgmt
  refine State.atErh_does (OutDoes.need (OutDoes.next ?_))
  refine Does.ite ?_ ?_
  · exact Does.trans Does.refl State.erhDiscard_does rfl
  · exact Does.refl

theorem State.erhAttemptFails_does {o a2 a3} : Does 0x2079b1f6ff8 o (State.erhAttemptFails o a2 a3) := by
  unfold State.erhAttemptFails
  extract_lets +onlyGivenNames x1 x2
  clear_value x1
  have h3 : Does 0x2079b1f6ff8 o x2 := by
    unfold x2
    exact Does.trans Does.refl State.setRfld_does rfl
  clear_value x2
  refine Does.ite ?_ ?_
  · exact Does.trans ‹_› State.erhPortOff_does rfl
  · assumption

theorem execErhTrain_does {a1 a2 o} : OutDoes 0x2079b1f6ff8 o (execErhTrain a1 a2 o) := by
  unfold execErhTrain
  refine State.atErh_does (OutDoes.need (OutDoes.next ?_))
  extract_lets +onlyGivenNames x6
  have h7 : Does 0x2079b1f6ff8 o x6 := by
    unfold x6
    refine Does.ite ?_ ?_
    · exact Does.trans Does.refl State.erhStart_does rfl
    · exact Does.refl
  clear_value x6
  extract_lets +onlyGivenNames x8
  have h9 : Does 0x2079b1f6ff8 o x8 := by
    unfold x8
    exact Does.trans ‹_› State.setRfld_does rfl
  clear_value x8
  extract_lets +onlyGivenNames x10
  have h11 : Does 0x2079b1f6ff8 o x10 := by
    unfold x10
    exact Does.trans ‹_› State.modErhPort_does rfl
  clear_value x10
  extract_lets +onlyGivenNames x12 x13
  clear_value x12 x13
  split
  · refine Does.ite ?_ ?_
    · exact Does.trans (Does.drawn (Does.trans ‹_› State.event_does rfl)) State.erhAttemptFails_does rfl
    · refine Does.ite ?_ ?_
      · exact Does.trans ‹_› State.erhUp_does rfl
      · exact Does.trans ‹_› State.erhAttemptFails_does rfl
  · exact Does.trans ‹_› State.erhAttemptFails_does rfl

theorem State.erhForward_does {o a2 a3} : Does 0x1000010 o (State.erhForward o a2 a3) := by
  unfold State.erhForward
  extract_lets +onlyGivenNames x1 x2
  clear_value x1
  refine Does.ite ?_ ?_
  · unfold x2
    exact Does.trans (Does.trans Does.refl State.gcnt_does rfl) State.erhAnswer_does rfl
  · split
    · exact Does.trans Does.refl State.erhAnswer_does rfl
    · refine Does.ite ?_ ?_
      · unfold x2
        exact Does.trans (Does.trans Does.refl State.gcnt_does rfl) State.erhAnswer_does rfl
      · exact Does.trans Does.refl State.erhSend_does rfl

theorem execErhPacketRoute_does {a1 a2 o} : OutDoes 0x1000010 o (execErhPacketRoute a1 a2 o) := by
  unfold execErhPacketRoute
  refine State.atErh_does (OutDoes.need (OutDoes.next ?_))
  refine Does.ite ?_ ?_
  · exact Does.trans Does.refl State.erhDiscard_does rfl
  · refine Does.ite ?_ ?_
    · refine Does.ite ?_ ?_
      · exact Does.trans Does.refl State.erhInject_does rfl
      · exact Does.refl
    · refine Does.ite ?_ ?_
      · exact Does.refl
      · exact Does.trans Does.refl State.erhForward_does rfl

theorem State.erhCrcBad_does {o a2} : Does 0x2079b1f6ff8 o (State.erhCrcBad o a2) := by
  unfold State.erhCrcBad
  extract_lets +onlyGivenNames x1 x2
  clear_value x1
  have h3 : Does 0x2079b1f6ff8 o x2 := by
    unfold x2
    exact Does.trans (Does.trans Does.refl State.setRfld_does rfl) State.gcnt_does rfl
  clear_value x2
  extract_lets +onlyGivenNames x4 x5
  clear_value x4
  have h6 : Does 0x2079b1f6ff8 o x5 := by
    unfold x5
    exact Does.trans ‹_› State.modErhPort_does rfl
  clear_value x5
  extract_lets +onlyGivenNames x7
  clear_value x7
  split
  rename_i x8 _ x9
  refine (fun h10 : Does 0x2079b1f6ff8 o x8 => ?_) (Does.named1st ?_ x9)
  rotate_left
  · exact Does.trans ‹_› State.tally_does rfl
  extract_lets +onlyGivenNames x11 x12 x13
  clear_value x11 x12
  have h14 : Does 0x2079b1f6ff8 o x13 := by
    unfold x13
    exact Does.trans ‹_› State.sign_does rfl
  clear_value x13
  refine Does.ite ?_ ?_
  · exact Does.trans (Does.trans ‹_› State.sign_does rfl) State.erhPortOff_does rfl
  · refine Does.ite ?_ ?_
    · exact Does.trans ‹_› State.erhStart_does rfl
    · assumption

theorem execErhFrame_does {a1 a2 o} : OutDoes 0x2079b1f6ff8 o (execErhFrame a1 a2 o) := by
  unfold execErhFrame
  refine State.atErh_does (OutDoes.need (OutDoes.next ?_))
  extract_lets +onlyGivenNames x6
  have h7 : Does 0x2079b1f6ff8 o x6 := by
    unfold x6
    exact Does.trans Does.refl State.gcnt_does rfl
  clear_value x6
  refine Does.ite ?_ ?_
  · exact Does.trans ‹_› State.erhCrcBad_does rfl
  · refine Does.ite ?_ ?_
    · assumption
    · exact Does.trans (Does.trans (Does.trans ‹_› State.gcnt_does rfl) State.modErhPort_does rfl) State.erhTx_does rfl

theorem State.erhAnswered_does {w : Nat} {o s : State} {q : ErhPkt} {v : BitVec 8} {n : Nat} {f : ErhOpen → State → State}
    (h : Does w o s) (hf : ∀ a r, Does w o r → Does w o (f a r)) (hm : 0x1000010 &&& w = 0x1000010) :
    OutDoes w o (State.erhAnswered s q v n f) := by
  unfold State.erhAnswered
  refine OutDoes.need (.next (Does.ite ?_ ?_))
  · exact Does.trans h State.gcnt_does (Does.sub rfl hm)
  · split
    · exact h
    · refine hf _ _ (Does.trans (q := 0x1000000) h (Does.modErh Does.refl) (Does.sub rfl hm))

theorem State.wakeMem_does {o a2 a3} : Does 0x10000 o (State.wakeMem o a2 a3) := by
  unfold State.wakeMem
  exact Does.trans Does.refl State.modThread_does rfl

theorem execGetData_does {a1 o} : OutDoes 0x1010010 o (execGetData a1 o) := by
  unfold execGetData
  refine State.erhAnswered_does ?_ (fun y1 y2 y3 => ?_) rfl
  · exact Does.refl
  · extract_lets +onlyGivenNames x6
    have h7 : Does 0x1010010 o x6 := by
      unfold x6
      exact Does.trans ‹_› State.gotPut_does rfl
    clear_value x6
    split
    · assumption
    · exact Does.trans ‹_› State.wakeMem_does rfl

theorem execErhErr_does {a1 o} : OutDoes 0x206991b6ff8 o (execErhErr a1 o) := by
  unfold execErhErr
  refine OutDoes.need (OutDoes.next ?_)
  refine Does.ite ?_ ?_
  · exact Does.trans Does.refl State.gcnt_does rfl
  · split
    · exact Does.refl
    · exact Does.trans Does.refl State.openFail_does rfl

theorem State.putWrite_does {a1 a2 o} : Does 0x490080ff8 o (State.putWrite a1 a2 o).2.2 := by
  induction a2 generalizing a1 o
  · unfold State.putWrite
    dsimp -zeta -iota only
    exact Does.refl
  · rename_i ih
    unfold State.putWrite
    split
    · dsimp -zeta -iota only
      exact Does.refl
    · split
      rename_i x1 x2
      refine (fun h3 : Does 0x490080ff8 o x1 => ?_) (Does.named2 ?_ x2)
      rotate_left
      · exact Does.trans Does.refl State.homeWrite_does rfl
      refine Does.ite' (fun r => Prod.snd (Prod.snd (r))) ?_ ?_
      · dsimp -zeta -iota only
        assumption
      · exact Does.trans ‹_› (ih ..) rfl

theorem execPutAck_does {a1 o} : OutDoes 0x1010010 o (execPutAck a1 o) := by
  unfold execPutAck
  refine State.erhAnswered_does ?_ (fun y1 y2 y3 => ?_) rfl
  · exact Does.refl
  · refine Does.ite ?_ ?_
    · assumption
    · exact Does.trans ‹_› State.modThread_does rfl

theorem State.erhServe_does {w : Nat} {o s : State} {p : Nat} {q : ErhPkt} {v : BitVec 8} {f : Nat → State → State}
    (h : Does w o s) (hf : ∀ b, Does w o (f b s)) (hm : 0x1000010 &&& w = 0x1000010) : OutDoes w o (State.erhServe s p q v f) := by
  unfold State.erhServe
  refine State.atErh_does (.need (.next ?_))
  refine Does.ite ?_ (Does.ite ?_ ?_)
  · exact Does.trans h State.erhDiscard_does (Does.sub rfl hm)
  · exact Does.trans h State.erhAnswer_does (Does.sub rfl hm)
  · split
    · exact Does.trans (Does.trans h State.gcnt_does (Does.sub rfl hm)) State.erhAnswer_does (Does.sub rfl hm)
    · exact hf _

theorem execAtomic_does {a1 a2 a3 o} : OutDoes 0x4911c0ff8 o (execAtomic a1 a2 a3 o) := by
  unfold execAtomic
  refine State.erhServe_does ?_ (fun y1 => ?_) rfl
  · exact Does.refl
  · extract_lets +onlyGivenNames x6 x7 x8
    clear_value x6 x7
    split
    · exact Does.trans Does.refl State.erhDiscard_does rfl
    · refine Does.ite ?_ ?_
      · exact Does.trans Does.refl State.erhDiscard_does rfl
      · refine Does.ite ?_ ?_
        · split
          · refine Does.ite ?_ ?_
            · split
              · rename_i x9 x10
                refine (fun h11 : Does 0x4911c0ff8 o x9 => ?_) (Does.named1 ?_ x10)
                rotate_left
                · exact Does.trans Does.refl State.winAdd_does rfl
                unfold x8
                exact Does.trans ‹_› State.erhAnswer_does rfl
              · rename_i x12 x13
                refine (fun h14 : Does 0x4911c0ff8 o x12 => ?_) (Does.named1 ?_ x13)
                rotate_left
                · exact Does.trans Does.refl State.winAdd_does rfl
                exact Does.trans ‹_› State.erhAnswer_does rfl
            · exact Does.trans Does.refl State.erhAnswer_does rfl
          · exact Does.trans Does.refl State.erhAnswer_does rfl
        · split
          · exact Does.trans Does.refl State.erhAnswer_does rfl
          · split
            · rename_i x15 x16
              refine (fun h17 : Does 0x4911c0ff8 o x15 => ?_) (Does.named3 ?_ x16)
              rotate_left
              · exact Does.trans Does.refl State.nearAtomic_does rfl
              assumption
            · rename_i x18 x19
              refine (fun h20 : Does 0x4911c0ff8 o x18 => ?_) (Does.named3 ?_ x19)
              rotate_left
              · exact Does.trans Does.refl State.nearAtomic_does rfl
              refine Does.ite ?_ ?_
              · unfold x8
                exact Does.trans ‹_› State.erhAnswer_does rfl
              · exact Does.trans ‹_› State.erhAnswer_does rfl

theorem execFwMgmt_does {a1 a2 o} : OutDoes 0x1000010 o (execFwMgmt a1 a2 o) := by
  unfold execFwMgmt
  refine State.atErh_does (OutDoes.need (OutDoes.next ?_))
  refine Does.ite ?_ ?_
  · exact Does.trans Does.refl State.erhDiscard_does rfl
  · exact Does.refl

theorem execErhOldBusyClear_does {o} : OutDoes 0x10 o (execErhOldBusyClear o) := by
  unfold execErhOldBusyClear
  extract_lets +onlyGivenNames x1
  clear_value x1
  exact OutDoes.need (OutDoes.need (OutDoes.next (Does.trans Does.refl State.setRbit_does rfl)))

theorem execErhPortReset_does {a1 o} : OutDoes 0x1000010 o (execErhPortReset a1 o) := by
  unfold execErhPortReset
  refine State.atErh_does ?_
  extract_lets +onlyGivenNames x6
  have h7 : Does 0x1000010 o x6 := by
    unfold x6
    exact Does.trans Does.refl State.modErhPort_does rfl
  clear_value x6
  refine OutDoes.next ?_
  refine Does.ite ?_ ?_
  · assumption
  · exact Does.trans ‹_› State.erhStart_does rfl

theorem execPut_does {a1 a2 o} : OutDoes 0x491080ff8 o (execPut a1 a2 o) := by
  unfold execPut
  refine State.erhServe_does ?_ (fun y1 => ?_) rfl
  · exact Does.refl
  · refine Does.ite ?_ ?_
    · exact Does.trans Does.refl State.erhAnswer_does rfl
    · split
      · rename_i x6 x7
        refine (fun h8 : Does 0x491080ff8 o x6 => ?_) (Does.named2 ?_ x7)
        rotate_left
        · exact Does.trans Does.refl State.putWrite_does rfl
        assumption
      · rename_i x9 x10
        refine (fun h11 : Does 0x491080ff8 o x9 => ?_) (Does.named2 ?_ x10)
        rotate_left
        · exact Does.trans Does.refl State.putWrite_does rfl
        refine Does.ite ?_ ?_
        · exact Does.trans ‹_› State.erhAnswer_does rfl
        · exact Does.trans ‹_› State.erhAnswer_does rfl

theorem execGet_does {a1 a2 a3 o} : OutDoes 0x499080bf8 o (execGet a1 a2 a3 o) := by
  unfold execGet
  refine State.erhServe_does ?_ (fun y1 => ?_) rfl
  · exact Does.refl
  · extract_lets +onlyGivenNames x6 x7
    clear_value x6 x7
    refine Does.ite ?_ ?_
    · exact Does.trans Does.refl State.erhAnswer_does rfl
    · split
      rename_i x8 x9
      refine (fun h10 : Does 0x499080bf8 o x8 => ?_) (Does.named1 ?_ x9)
      rotate_left
      · refine readPieces_does ?_ fun y11 y12 y13 y14 => ?_
        · exact Does.refl
        · exact Does.trans ‹_› State.gaReadSec_does rfl
      refine Does.ite ?_ ?_
      · assumption
      · refine Does.ite ?_ ?_
        · exact Does.trans ‹_› State.erhAnswer_does rfl
        · exact Does.trans ‹_› State.erhAnswer_does rfl

theorem execErhPortDown_does {a1 a2 o} : OutDoes 0x2079b1f6ff8 o (execErhPortDown a1 a2 o) := by
  unfold execErhPortDown
  exact State.atErh_does (OutDoes.need (OutDoes.need (OutDoes.next (Does.trans Does.refl State.erhPortOff_does rfl))))

theorem execErhRequestTimeout_does {a1 o} : OutDoes 0x206991b6ff8 o (execErhRequestTimeout a1 o) := by
  unfold execErhRequestTimeout
  refine OutDoes.needSome fun a1 => ?_
  exact OutDoes.need (OutDoes.next (Does.trans (Does.trans Does.refl State.gcnt_does rfl) State.openFail_does rfl))

theorem execErhFreezeTimeout_does {a1 a2 o} : OutDoes 0x2079b1f6ff8 o (execErhFreezeTimeout a1 a2 o) := by
  unfold execErhFreezeTimeout
  refine State.atErh_does (OutDoes.need (OutDoes.next ?_))
  extract_lets +onlyGivenNames x6
  have h7 : Does 0x2079b1f6ff8 o x6 := by
    unfold x6
    refine Does.ite ?_ ?_
    · exact Does.trans Does.refl State.setRfld_does rfl
    · exact Does.refl
  clear_value x6
  exact Does.trans ‹_› State.erhAttemptFails_does rfl

theorem execAtomicResp_does {a1 o} : OutDoes 0x1090110 o (execAtomicResp a1 o) := by
  unfold execAtomicResp
  refine State.erhAnswered_does ?_ (fun y1 y2 y3 => ?_) rfl
  · exact Does.refl
  · split
    · refine Does.ite ?_ ?_
      · extract_lets +onlyGivenNames x6
        have h7 : Does 0x1090110 o x6 := by
          unfold x6
          exact Does.trans (Does.trans ‹_› State.modThread_does rfl) State.retire_does rfl
        clear_value x6
        refine Does.ite ?_ ?_
        · exact Does.trans ‹_› State.acqAll_does rfl
        · assumption
      · assumption
    · assumption

theorem execTsync_does {a1 o} : OutDoes 0x5000010 o (execTsync a1 o) := by
  unfold execTsync
  refine OutDoes.need (OutDoes.next ?_)
  extract_lets +onlyGivenNames x1 x2 x3
  clear_value x1 x2
  have h4 : Does 0x5000010 o x3 := by
    unfold x3
    exact Does.modErh Does.refl
  clear_value x3
  refine Does.ite ?_ ?_
  · exact Does.trans ‹_› State.erhSend_does rfl
  · assumption

theorem State.collWrite_does {o a2 a3} : Does 0x498080ff8 o (State.collWrite o a2 a3).2.2 := by
  unfold State.collWrite
  refine Does.ite' (fun r => Prod.snd (Prod.snd (r))) ?_ ?_
  · refine writePieces_does ?_ fun y1 y2 y3 y4 => ?_
    · exact Does.refl
    · exact Does.trans ‹_› State.paWrite_does rfl
  · dsimp -zeta -iota only
    exact Does.refl

theorem State.collPush_does {o a2 a3 a4} : Does 0x49b0c0ff8 o (State.collPush o a2 a3 a4) := by
  unfold State.collPush
  extract_lets +onlyGivenNames x1 x2 x3
  clear_value x1 x2 x3
  split
  rename_i x4 x5
  refine (fun h6 : Does 0x49b0c0ff8 o x4 => ?_) (Does.named1 ?_ x5)
  rotate_left
  · refine Does.ite' (fun r => Prod.snd (r)) ?_ ?_
    · dsimp -zeta -iota only
      exact Does.refl
    · dsimp -zeta -iota only
      refine Does.foldl ?_ fun r7 x8 h9 => ?_
      · exact Does.refl
      · exact Does.trans ‹_› State.erhInject_does rfl
  extract_lets +onlyGivenNames x10
  have h11 : Does 0x49b0c0ff8 o x10 := by
    unfold x10
    exact Does.modErh ‹_›
  clear_value x10
  refine Does.ite ?_ ?_
  · split
    · rename_i x12 x13
      refine (fun h14 : Does 0x49b0c0ff8 o x12 => ?_) (Does.named2 ?_ x13)
      rotate_left
      · exact Does.trans ‹_› State.collWrite_does rfl
      assumption
    · rename_i x15 x16
      refine (fun h17 : Does 0x49b0c0ff8 o x15 => ?_) (Does.named2 ?_ x16)
      rotate_left
      · exact Does.trans ‹_› State.collWrite_does rfl
      extract_lets +onlyGivenNames x18
      have h19 : Does 0x49b0c0ff8 o x18 := by
        unfold x18
        exact Does.trans ‹_› State.collDone_does rfl
      clear_value x18
      refine Does.foldl ?_ fun r20 x21 h22 => ?_
      · assumption
      · refine Does.foldl ?_ fun r23 x24 h25 => ?_
        · assumption
        · exact Does.trans ‹_› State.erhInject_does rfl
  · assumption

theorem State.collTake_does {o a2 a3 a4 a5} : Does 0x49b0c0ff8 o (State.collTake o a2 a3 a4 a5) := by
  unfold State.collTake
  extract_lets +onlyGivenNames x1
  clear_value x1
  refine Does.ite ?_ ?_
  · exact Does.trans Does.refl State.collFail_does rfl
  · refine Does.ite ?_ ?_
    · exact Does.trans Does.refl State.collFail_does rfl
    · refine Does.ite ?_ ?_
      · exact Does.trans Does.refl State.collPush_does rfl
      · extract_lets +onlyGivenNames x2 x3
        clear_value x2 x3
        exact Does.trans Does.refl State.collPush_does rfl

theorem State.collBegin_does {o a2 a3 a4 a5} : Does 0x49b0c0ff8 o (State.collBegin o a2 a3 a4 a5) := by
  unfold State.collBegin
  extract_lets +onlyGivenNames x1 x2 x3
  clear_value x1 x2
  have h4 : Does 0x49b0c0ff8 o x3 := by
    unfold x3
    exact Does.modErh Does.refl
  clear_value x3
  refine Does.foldl ?_ fun r5 x6 h7 => ?_
  · exact Does.trans ‹_› State.collPush_does rfl
  · split
    · exact Does.trans ‹_› State.collTake_does rfl
    · assumption

theorem State.onColl_does {w : Nat} {o s : State} {q : ErhPkt} {v : BitVec 8} {f : Group → State} (h : Does w o s)
    (hf : ∀ g, Does w o (f g)) (hm : 0x10 &&& w = 0x10) : OutDoes w o (State.onColl s q v f) := by
  unfold State.onColl
  refine OutDoes.need (.next (Does.ite ?_ ?_))
  · exact Does.trans h State.gcnt_does (Does.sub rfl hm)
  · split
    · exact Does.ite (hf _) h
    · exact h

theorem execCollDown_does {a1 o} : OutDoes 0x49b0c0ff8 o (execCollDown a1 o) := by
  unfold execCollDown
  refine State.onColl_does ?_ (fun y1 => ?_) rfl
  · exact Does.refl
  · split
    · refine Does.ite ?_ ?_
      · exact Does.refl
      · exact Does.trans Does.refl State.collPush_does rfl
    · exact Does.refl

theorem execTsyncHoldover_does {o} : OutDoes 0x4000000 o (execTsyncHoldover o) := by
  unfold execTsyncHoldover
  exact OutDoes.need (OutDoes.need (OutDoes.next (Does.modErh Does.refl)))

theorem execTsyncResp_does {a1 a2 a3 a4 a5 o} : OutDoes 0x4000000 o (execTsyncResp a1 a2 a3 a4 a5 o) := by
  unfold execTsyncResp
  refine OutDoes.need ?_
  extract_lets +onlyGivenNames x1
  clear_value x1
  exact OutDoes.next (Does.modErh Does.refl)

theorem State.collFetch_does {o a2 a3 a4 a5} : Does 0x498080bf8 o (State.collFetch o a2 a3 a4 a5).2 := by
  unfold State.collFetch
  refine readPieces_does ?_ fun y1 y2 y3 y4 => ?_
  · exact Does.refl
  · exact Does.trans ‹_› State.gaReadSec_does rfl

theorem execCollUp_does {a1 o} : OutDoes 0x49b0c0ff8 o (execCollUp a1 o) := by
  unfold execCollUp
  refine State.onColl_does ?_ (fun y1 => ?_) rfl
  · exact Does.refl
  · refine Does.ite ?_ ?_
    · exact Does.refl
    · split
      · exact Does.trans Does.refl State.collTake_does rfl
      · exact Does.modErh Does.refl

theorem execCollFail_does {a1 o} : OutDoes 0x30c0010 o (execCollFail a1 o) := by
  unfold execCollFail
  refine State.onColl_does ?_ (fun y1 => ?_) rfl
  · exact Does.refl
  · exact Does.trans Does.refl State.collFail_does rfl

theorem State.collRead_does {o a2 a3 a4} : Does 0x49b0c0ff8 o (State.collRead o a2 a3 a4) := by
  unfold State.collRead
  split
  rename_i x1 x2
  refine (fun h3 : Does 0x49b0c0ff8 o x1 => ?_) (Does.named1 ?_ x2)
  rotate_left
  · exact Does.trans Does.refl State.collFetch_does rfl
  refine Does.ite ?_ ?_
  · assumption
  · refine Does.ite ?_ ?_
    · exact Does.trans ‹_› State.collFail_does rfl
    · refine Does.ite ?_ ?_
      · split
        rename_i x4 x5
        refine (fun h6 : Does 0x49b0c0ff8 o x4 => ?_) (Does.named1 ?_ x5)
        rotate_left
        · exact Does.trans ‹_› State.collFetch_does rfl
        refine Does.ite ?_ ?_
        · assumption
        · refine Does.ite ?_ ?_
          · exact Does.trans ‹_› State.collFail_does rfl
          · exact Does.trans ‹_› State.collBegin_does rfl
      · exact Does.trans ‹_› State.collBegin_does rfl

theorem execTimeCorrection_does {a1 a2 o} : OutDoes 0x2 o (execTimeCorrection a1 a2 o) := by
  unfold execTimeCorrection
  refine OutDoes.need ?_
  refine OutDoes.ite ?_ ?_
  · exact OutDoes.need (OutDoes.next (Does.modClk Does.refl))
  · exact OutDoes.need (OutDoes.next (Does.modClk Does.refl))

theorem execPpsIn_does {a1 o} : OutDoes 0x4000000 o (execPpsIn a1 o) := by
  unfold execPpsIn
  refine OutDoes.next ?_
  refine Does.ite ?_ ?_
  · exact Does.refl
  · extract_lets +onlyGivenNames x1
    clear_value x1
    refine Does.ite ?_ ?_
    · exact Does.modErh Does.refl
    · exact Does.modErh Does.refl

theorem execCollArrive_does {a1 a2 o} : OutDoes 0x49b0c0ff8 o (execCollArrive a1 a2 o) := by
  unfold execCollArrive
  refine OutDoes.need (OutDoes.needSome fun a1 => ?_)
  refine OutDoes.needSome fun a2 => ?_
  refine OutDoes.need ?_
  split
  · exact OutDoes.need (OutDoes.next (Does.trans Does.refl State.collPush_does rfl))
  · exact OutDoes.next (Does.trans Does.refl State.collRead_does rfl)

theorem State.atPort_does {w : Nat} {o s : State} {p : Nat} {k : Out} (h : OutDoes w o k) :
    OutDoes w o (State.atPort s p k) := .need h

theorem State.onPort_does {w : Nat} {o s : State} {p : Nat} {k : Out} (h : OutDoes w o k) :
    OutDoes w o (State.onPort s p k) := .need (.need h)

theorem execBirsp_does {a1 a2 a3 o} : OutDoes 0x490080ff8 o (execBirsp a1 a2 a3 o) := by
  unfold execBirsp
  refine State.onPort_does (OutDoes.needSome fun a6 => ?_)
  exact OutDoes.need (OutDoes.next (Does.trans (Does.trans Does.refl State.dropMsg_does rfl) State.answer_does rfl))

theorem State.hostGone_does {o a2 a3 a4} : Does 0x490080ff8 o (State.hostGone o a2 a3 a4) := by
  unfold State.hostGone
  extract_lets +onlyGivenNames x1 x2
  clear_value x1
  refine Does.ite ?_ ?_
  · refine Does.trans ?_ State.dirRemove_does rfl
    unfold x2
    refine Does.foldl ?_ fun r3 x4 h5 => ?_
    · exact Does.refl
    · split
      rename_i x6 x7
      refine (fun h8 : Does 0x490080ff8 o x6 => ?_) (Does.named1 ?_ x7)
      rotate_left
      · exact Does.trans ‹_› State.homeSector_does rfl
      exact Does.trans ‹_› State.homeMerge_does rfl
  · refine Does.ite ?_ ?_
    · extract_lets +onlyGivenNames x9
      have h10 : Does 0x490080ff8 o x9 := by
        unfold x9
        split
        · exact Does.trans Does.refl State.dropMsg_does rfl
        · exact Does.refl
      clear_value x9
      refine Does.trans ?_ State.answer_does rfl
      refine Does.ite ?_ ?_
      · assumption
      · unfold x2
        refine Does.foldl ?_ fun r11 x12 h13 => ?_
        · assumption
        · split
          rename_i x14 x15
          refine (fun h16 : Does 0x490080ff8 o x14 => ?_) (Does.named1 ?_ x15)
          rotate_left
          · exact Does.trans ‹_› State.homeSector_does rfl
          exact Does.trans ‹_› State.homeMerge_does rfl
    · refine Does.ite ?_ ?_
      · exact Does.trans Does.refl State.putDir_does rfl
      · exact Does.refl

theorem State.portLost_does {o a2} : Does 0x206981f6ff8 o (State.portLost o a2) := by
  unfold State.portLost
  extract_lets +onlyGivenNames x1
  have h2 : Does 0x206981f6ff8 o x1 := by
    unfold x1
    refine Does.foldl ?_ fun r3 x4 h5 => ?_
    · exact Does.refl
    · split
      · exact Does.trans ‹_› State.hostGone_does rfl
      · assumption
  clear_value x1
  extract_lets +onlyGivenNames x6
  have h7 : Does 0x206981f6ff8 o x6 := by
    unfold x6
    exact Does.trans ‹_› State.modPort_does rfl
  clear_value x6
  extract_lets +onlyGivenNames x8
  have h9 : Does 0x206981f6ff8 o x8 := by
    unfold x8
    exact Does.drawn ‹_›
  clear_value x8
  extract_lets +onlyGivenNames x10 x11 x12
  clear_value x10 x11
  have h13 : Does 0x206981f6ff8 o x12 := by
    unfold x12
    exact Does.modBasin ‹_›
  clear_value x12
  extract_lets +onlyGivenNames x14
  have h15 : Does 0x206981f6ff8 o x14 := by
    unfold x14
    refine Does.foldl ?_ fun r16 x17 h18 => ?_
    · assumption
    · exact Does.trans ‹_› State.failAccess_does rfl
  clear_value x14
  extract_lets +onlyGivenNames x19
  have h20 : Does 0x206981f6ff8 o x19 := by
    unfold x19
    exact Does.modEng ‹_›
  clear_value x19
  extract_lets +onlyGivenNames x21
  have h22 : Does 0x206981f6ff8 o x21 := by
    unfold x21
    exact Does.modLk ‹_›
  clear_value x21
  exact Does.trans ‹_› State.cxlEvent_does rfl

theorem State.primary_does {w : Nat} {o : State} {r : Nat × List Byte × (CxlSt → CxlSt)} (c : w.testBit 28 = true)
    (h : (r.2.2 o.cxl).ports = o.cxl.ports) : OutDoes w o (State.primary o r) :=
  State.onPort_does (.next (Does.modCxl Does.refl (.inr (by dsimp only; exact h.symm)) (.inl c)))

theorem execGetLog_does {a1 a2 a3 o} : OutDoes 0x10000000 o (execGetLog a1 a2 a3 o) := by
  unfold execGetLog
  refine State.primary_does rfl rfl

theorem execPortLost_does {a1 o} : OutDoes 0x206981f6ff8 o (execPortLost a1 o) := by
  unfold execPortLost
  exact State.onPort_does (OutDoes.next (Does.trans Does.refl State.portLost_does rfl))

theorem execGetEventInterruptPolicy_does {o} : OutDoes 0x10000000 o (execGetEventInterruptPolicy o) := by
  unfold execGetEventInterruptPolicy
  refine State.primary_does rfl rfl

theorem State.decIgnored_does {o a2 a3 a4} : Does 0x100000010 o (State.decIgnored o a2 a3 a4) := by
  unfold State.decIgnored
  extract_lets +onlyGivenNames x1
  clear_value x1
  exact Does.trans Does.refl State.ignored_does rfl

theorem execHdmDecoderCommit_does {a1 a2 a3 a4 a5 a6 o} : OutDoes 0x108000010 o (execHdmDecoderCommit a1 a2 a3 a4 a5 a6 o) := by
  unfold execHdmDecoderCommit
  refine State.onPort_does (OutDoes.need (OutDoes.need (OutDoes.next ?_)))
  refine Does.ite ?_ ?_
  · exact Does.trans Does.refl State.decIgnored_does rfl
  · extract_lets +onlyGivenNames x6
    clear_value x6
    exact Does.trans Does.refl State.modPort_does rfl

theorem State.hostRsp_does {o a2 a3 a4 a5} : Does 0x8000000 o (State.hostRsp o a2 a3 a4 a5) := by
  unfold State.hostRsp
  exact Does.trans Does.refl State.modPort_does rfl

theorem State.hostNote_does {o a2 a3} : Does 0x10000000 o (State.hostNote o a2 a3) := by
  unfold State.hostNote
  exact Does.trans Does.refl State.cxlEvent_does rfl

theorem State.hostShared_does {o a2 a3 a4} : Does 0x900003f8 o (State.hostShared o a2 a3 a4).2 := by
  unfold State.hostShared
  split
  · split
    rename_i x1 x2
    refine (fun h3 : Does 0x900003f8 o x1 => ?_) (Does.named1 ?_ x2)
    rotate_left
    · exact Does.trans Does.refl State.dirRoom_does rfl
    dsimp -zeta -iota only
    refine Does.ite ?_ ?_
    · exact Does.trans ‹_› State.putDir_does rfl
    · assumption
  · split
    · dsimp -zeta -iota only
      exact Does.refl
    · refine Does.ite' (fun r => Prod.snd (r)) ?_ ?_
      · dsimp -zeta -iota only
        exact Does.refl
      · refine Does.ite' (fun r => Prod.snd (r)) ?_ ?_
        · extract_lets +onlyGivenNames x4
          have h5 : Does 0x900003f8 o x4 := by
            unfold x4
            exact Does.trans (Does.trans Does.refl State.farWriteBack_does rfl) State.setOwned_does rfl
          clear_value x4
          dsimp -zeta -iota only
          exact Does.trans ‹_› State.putDir_does rfl
        · dsimp -zeta -iota only
          exact Does.trans Does.refl State.biSnoop_does rfl
    · dsimp -zeta -iota only
      exact Does.trans Does.refl State.putDir_does rfl

theorem State.hostAny_does {o a2 a3 a4} : Does 0x900007f8 o (State.hostAny o a2 a3 a4).2 := by
  unfold State.hostAny
  extract_lets +onlyGivenNames x1
  clear_value x1
  refine Does.ite' (fun r => Prod.snd (r)) ?_ ?_
  · dsimp -zeta -iota only
    exact Does.refl
  · extract_lets +onlyGivenNames x2
    have h3 : Does 0x900007f8 o x2 := by
      unfold x2
      split
      · refine Does.ite ?_ ?_
        · exact Does.trans Does.refl State.putDir_does rfl
        · exact Does.refl
      · exact Does.refl
    clear_value x2
    split
    rename_i x4 x5
    refine (fun h6 : Does 0x900007f8 o x4 => ?_) (Does.named1 ?_ x5)
    rotate_left
    · unfold State.recall
      split
      · dsimp -zeta -iota only
        assumption
      · split
        · dsimp -zeta -iota only
          assumption
        · refine Does.ite' (fun r => Prod.snd (r)) ?_ ?_
          · extract_lets +onlyGivenNames x7
            have h8 : Does 0x900007f8 o x7 := by
              unfold x7
              exact Does.trans (Does.trans ‹_› State.farWriteBack_does rfl) State.farDrop_does rfl
            clear_value x7
            extract_lets +onlyGivenNames x9
            have h10 : Does 0x900007f8 o x9 := by
              unfold x9
              refine Does.ite ?_ ?_
              · exact Does.trans ‹_› State.predMove_does rfl
              · assumption
            clear_value x9
            dsimp -zeta -iota only
            exact Does.trans ‹_› State.dirRemove_does rfl
          · dsimp -zeta -iota only
            exact Does.trans ‹_› State.biSnoop_does rfl
        · extract_lets +onlyGivenNames x11
          have h12 : Does 0x900007f8 o x11 := by
            unfold x11
            refine Does.foldl ?_ fun r13 x14 h15 => ?_
            · assumption
            · exact Does.trans (Does.trans ‹_› State.farDrop_does rfl) State.dirRemove_does rfl
          clear_value x11
          refine Does.ite' (fun r => Prod.snd (r)) ?_ ?_
          · dsimp -zeta -iota only
            exact Does.trans ‹_› State.biSnoop_does rfl
          · refine Does.ite' (fun r => Prod.snd (r)) ?_ ?_
            · dsimp -zeta -iota only
              exact Does.trans ‹_› State.biSnoop_does rfl
            · dsimp -zeta -iota only
              assumption
    refine Does.ite' (fun r => Prod.snd (r)) ?_ ?_
    · dsimp -zeta -iota only
      assumption
    · split
      · dsimp -zeta -iota only
        exact Does.trans ‹_› State.grantX_does rfl
      · split
        rename_i x16 x17
        refine (fun h18 : Does 0x900007f8 o x16 => ?_) (Does.named1 ?_ x17)
        rotate_left
        · exact Does.trans ‹_› State.dirRoom_does rfl
        dsimp -zeta -iota only
        refine Does.ite ?_ ?_
        · exact Does.trans ‹_› State.grantX_does rfl
        · assumption

theorem State.hostData_does {o a2 a3 a4} : Does 0x4980809f8 o (State.hostData o a2 a3 a4) := by
  unfold State.hostData
  extract_lets +onlyGivenNames x1 x2
  clear_value x1 x2
  split
  rename_i x3 x4
  refine (fun h5 : Does 0x4980809f8 o x3 => ?_) (Does.named2 ?_ x4)
  rotate_left
  · exact Does.trans (Does.trans Does.refl State.drainLine_does rfl) State.homeLine_does rfl
  extract_lets +onlyGivenNames x6
  clear_value x6
  exact Does.trans ‹_› State.hostRsp_does rfl

theorem execHostMemRd_does {a1 a2 a3 a4 a5 o} : OutDoes 0x498080ff8 o (execHostMemRd a1 a2 a3 a4 a5 o) := by
  unfold execHostMemRd
  refine State.onPort_does (OutDoes.next ?_)
  split
  · exact Does.trans (Does.trans Does.refl State.hostNote_does rfl) State.hostRsp_does rfl
  · extract_lets +onlyGivenNames x6
    clear_value x6
    split
    · exact Does.trans (Does.trans Does.refl State.hostNote_does rfl) State.hostRsp_does rfl
    · exact Does.trans Does.refl State.hostRsp_does rfl
    · split
      rename_i x7 x8
      refine (fun h9 : Does 0x498080ff8 o x7 => ?_) (Does.named1 ?_ x8)
      rotate_left
      · split
        · rename_i _ _
          refine (fun h10 : Does 0x498080ff8 o x7 => ?_) (Does.named1 ?_ x8)
          rotate_left
          · split
            · exact Does.trans Does.refl State.snoopCur_does rfl
            · exact Does.trans Does.refl State.hostShared_does rfl
            · exact Does.trans Does.refl State.hostAny_does rfl
          exact Does.trans Does.refl State.snoopCur_does rfl
        · rename_i _ _
          refine (fun h11 : Does 0x498080ff8 o x7 => ?_) (Does.named1 ?_ x8)
          rotate_left
          · split
            · exact Does.trans Does.refl State.snoopCur_does rfl
            · exact Does.trans Does.refl State.hostShared_does rfl
            · exact Does.trans Does.refl State.hostAny_does rfl
          exact Does.trans Does.refl State.hostShared_does rfl
        · rename_i _ _
          refine (fun h12 : Does 0x498080ff8 o x7 => ?_) (Does.named1 ?_ x8)
          rotate_left
          · split
            · exact Does.trans Does.refl State.snoopCur_does rfl
            · exact Does.trans Does.refl State.hostShared_does rfl
            · exact Does.trans Does.refl State.hostAny_does rfl
          exact Does.trans Does.refl State.hostAny_does rfl
      refine Does.ite ?_ ?_
      · assumption
      · exact Does.trans ‹_› State.hostData_does rfl

theorem execBisnpTimeout_does {a1 a2 o} : OutDoes 0x206981f6ff8 o (execBisnpTimeout a1 a2 o) := by
  unfold execBisnpTimeout
  refine State.onPort_does (OutDoes.needSome fun a6 => ?_)
  exact OutDoes.next (Does.trans Does.refl State.portLost_does rfl)

theorem execGetEventRecords_does {a1 o} : OutDoes 0x10000000 o (execGetEventRecords a1 o) := by
  unfold execGetEventRecords
  extract_lets +onlyGivenNames x1 x2
  clear_value x1 x2
  refine State.primary_does rfl rfl

theorem execHostMemWr.go_does {a1 a2 o a4 a5 a6 a7} : Does 0x498080ff8 o (execHostMemWr.go a1 a2 o a4 a5 a6 a7) := by
  unfold execHostMemWr.go
  refine Does.ite ?_ ?_
  · exact Does.trans (Does.trans Does.refl State.hostNote_does rfl) State.hostRsp_does rfl
  · extract_lets +onlyGivenNames x1
    have h2 : Does 0x498080ff8 o x1 := by
      unfold x1
      split
      · refine Does.ite ?_ ?_
        · exact Does.trans Does.refl State.putDir_does rfl
        · exact Does.refl
      · exact Does.refl
    clear_value x1
    split
    rename_i x3 x4
    refine (fun h5 : Does 0x498080ff8 o x3 => ?_) (Does.named1 ?_ x4)
    rotate_left
    · refine foldl_keeps (fun r => Does 0x498080ff8 o (Prod.snd (r))) ?_ fun r6 x7 h8 => ?_
      · dsimp -zeta -iota only
        assumption
      · extract_lets +onlyGivenNames x9
        clear_value x9
        refine Does.ite' (fun r => Prod.snd (r)) ?_ ?_
        · assumption
        · split
          rename_i x10 x11
          refine (fun h12 : Does 0x498080ff8 o x10 => ?_) (Does.named2 ?_ x11)
          rotate_left
          · exact Does.trans ‹_› State.homeWrite_does rfl
          dsimp -zeta -iota only
          assumption
    refine Does.ite ?_ ?_
    · assumption
    · exact Does.trans ‹_› State.hostRsp_does rfl

theorem execHostMemWr_does {a1 a2 a3 a4 a5 o} : OutDoes 0x498080ff8 o (execHostMemWr a1 a2 a3 a4 a5 o) := by
  unfold execHostMemWr
  refine State.onPort_does (OutDoes.need (OutDoes.next ?_))
  split
  · exact Does.trans (Does.trans Does.refl State.hostNote_does rfl) State.hostRsp_does rfl
  · extract_lets +onlyGivenNames x6 x7
    clear_value x6 x7
    split
    · refine Does.ite ?_ ?_
      · extract_lets +onlyGivenNames x8
        have h9 : Does 0x498080ff8 o x8 := by
          unfold x8
          exact Does.trans Does.refl State.mergeLine_does rfl
        clear_value x8
        refine Does.trans ?_ State.hostRsp_does rfl
        refine Does.ite ?_ ?_
        · assumption
        · exact Does.trans ‹_› State.dirRemove_does rfl
      · refine Does.ite ?_ ?_
        · exact Does.trans (Does.trans Does.refl State.mergeLine_does rfl) State.hostRsp_does rfl
        · exact Does.trans Does.refl execHostMemWr.go_does rfl
    · exact Does.trans Does.refl execHostMemWr.go_does rfl

theorem execPerst_does {a1 o} : OutDoes 0x206981f6ff8 o (execPerst a1 o) := by
  unfold execPerst
  refine State.atPort_does ?_
  extract_lets +onlyGivenNames x6
  have h7 : Does 0x206981f6ff8 o x6 := by
    unfold x6
    refine Does.ite ?_ ?_
    · exact Does.trans Does.refl State.portLost_does rfl
    · exact Does.refl
  clear_value x6
  exact OutDoes.next (Does.trans ‹_› State.modPort_does rfl)

theorem State.hostWake_does {o a2 a3 a4} : Does 0x297bb9ffff8 o (State.hostWake o a2 a3 a4) := by
  unfold State.hostWake
  extract_lets +onlyGivenNames x1 x2
  clear_value x1
  have h3 : Does 0x297bb9ffff8 o x2 := by
    unfold x2
    exact Does.modBasin Does.refl
  clear_value x2
  refine Does.foldl ?_ fun r4 x5 h6 => ?_
  · assumption
  · refine Does.ite ?_ ?_
    · exact Does.trans ‹_› State.performAccess_does rfl
    · exact Does.trans ‹_› State.failAccess_does rfl

theorem execCxlCacheResponse_does {a1 a2 a3 a4 a5 o} : OutDoes 0x297bb9ffff8 o (execCxlCacheResponse a1 a2 a3 a4 a5 o) := by
  unfold execCxlCacheResponse
  refine State.onPort_does (OutDoes.need ?_)
  extract_lets +onlyGivenNames x6 x7 x8
  clear_value x6 x7
  have h9 : Does 0x297bb9ffff8 o x8 := by
    unfold x8
    exact Does.trans Does.refl State.modPort_does rfl
  clear_value x8
  exact OutDoes.next (Does.trans ‹_› State.hostWake_does rfl)

theorem execGetSupportedLogs_does {o} : OutDoes 0x10000000 o (execGetSupportedLogs o) := by
  unfold execGetSupportedLogs
  refine State.primary_does rfl rfl

theorem execHdmDecoderUncommit_does {a1 a2 o} : OutDoes 0x1980003f8 o (execHdmDecoderUncommit a1 a2 o) := by
  unfold execHdmDecoderUncommit
  refine State.onPort_does (OutDoes.needSome fun a6 => ?_)
  refine OutDoes.next ?_
  refine Does.ite ?_ ?_
  · exact Does.trans Does.refl State.decIgnored_does rfl
  · extract_lets +onlyGivenNames x7 x8
    clear_value x7 x8
    refine Does.ite ?_ ?_
    · exact Does.trans Does.refl State.modPort_does rfl
    · extract_lets +onlyGivenNames x9
      have h10 : Does 0x1980003f8 o x9 := by
        unfold x9
        exact Does.trans Does.refl State.modPort_does rfl
      clear_value x9
      refine Does.foldl ?_ fun r11 x12 h13 => ?_
      · assumption
      · refine Does.ite ?_ ?_
        · assumption
        · unfold State.recall
          split
          · dsimp -zeta -iota only
            assumption
          · split
            · dsimp -zeta -iota only
              assumption
            · refine Does.ite' (fun r => Prod.snd (r)) ?_ ?_
              · extract_lets +onlyGivenNames x14
                have h15 : Does 0x1980003f8 o x14 := by
                  unfold x14
                  exact Does.trans (Does.trans ‹_› State.farWriteBack_does rfl) State.farDrop_does rfl
                clear_value x14
                extract_lets +onlyGivenNames x16
                have h17 : Does 0x1980003f8 o x16 := by
                  unfold x16
                  refine Does.ite ?_ ?_
                  · exact Does.trans ‹_› State.predMove_does rfl
                  · assumption
                clear_value x16
                dsimp -zeta -iota only
                exact Does.trans ‹_› State.dirRemove_does rfl
              · dsimp -zeta -iota only
                exact Does.trans ‹_› State.biSnoop_does rfl
            · extract_lets +onlyGivenNames x18
              have h19 : Does 0x1980003f8 o x18 := by
                unfold x18
                refine Does.foldl ?_ fun r20 x21 h22 => ?_
                · assumption
                · exact Does.trans (Does.trans ‹_› State.farDrop_does rfl) State.dirRemove_does rfl
              clear_value x18
              refine Does.ite' (fun r => Prod.snd (r)) ?_ ?_
              · dsimp -zeta -iota only
                exact Does.trans ‹_› State.biSnoop_does rfl
              · refine Does.ite' (fun r => Prod.snd (r)) ?_ ?_
                · dsimp -zeta -iota only
                  exact Does.trans ‹_› State.biSnoop_does rfl
                · dsimp -zeta -iota only
                  assumption

theorem execCounterFetchadd_does {a1 a2 a3 a4 a5 a6 o} : OutDoes 0x181c0000 o (execCounterFetchadd a1 a2 a3 a4 a5 a6 o) := by
  unfold execCounterFetchadd
  refine OutDoes.need ?_
  extract_lets +onlyGivenNames x1
  split
  · refine State.onPort_does (OutDoes.next ?_)
    refine Does.ite ?_ ?_
    · exact Does.trans (Does.trans (Does.trans Does.refl State.winRefused_does rfl) State.hostNote_does rfl) State.hostRsp_does rfl
    · split
      · rename_i x7 x8
        refine (fun h9 : Does 0x181c0000 o x7 => ?_) (Does.named1 ?_ x8)
        rotate_left
        · unfold x1
          refine Does.ite' (fun r => Prod.snd (r)) ?_ ?_
          · exact Does.trans Does.refl State.winAdd_does rfl
          · dsimp -zeta -iota only
            exact Does.trans Does.refl State.winRefused_does rfl
        exact Does.trans ‹_› State.hostRsp_does rfl
      · rename_i x10 x11
        refine (fun h12 : Does 0x181c0000 o x10 => ?_) (Does.named1 ?_ x11)
        rotate_left
        · unfold x1
          refine Does.ite' (fun r => Prod.snd (r)) ?_ ?_
          · exact Does.trans Does.refl State.winAdd_does rfl
          · dsimp -zeta -iota only
            exact Does.trans Does.refl State.winRefused_does rfl
        exact Does.trans ‹_› State.hostRsp_does rfl
  · refine OutDoes.next ?_
    refine Does.ite ?_ ?_
    · unfold x1
      refine Does.ite' (fun r => Prod.snd (r)) ?_ ?_
      · exact Does.trans Does.refl State.winAdd_does rfl
      · dsimp -zeta -iota only
        exact Does.trans Does.refl State.winRefused_does rfl
    · exact Does.trans Does.refl State.winRefused_does rfl
  · refine OutDoes.next ?_
    refine Does.ite ?_ ?_
    · unfold x1
      refine Does.ite' (fun r => Prod.snd (r)) ?_ ?_
      · exact Does.trans Does.refl State.winAdd_does rfl
      · dsimp -zeta -iota only
        exact Does.trans Does.refl State.winRefused_does rfl
    · exact Does.trans Does.refl State.winRefused_does rfl

theorem execSetTimestamp_does {a1 o} : OutDoes 0x10000000 o (execSetTimestamp a1 o) := by
  unfold execSetTimestamp
  refine State.primary_does rfl rfl

theorem execIdentifyCxl_does {o} : OutDoes 0x10000000 o (execIdentifyCxl o) := by
  unfold execIdentifyCxl
  refine State.primary_does rfl rfl

theorem execConfigRequest_does {a1 a2 o} : OutDoes 0x8000000 o (execConfigRequest a1 a2 o) := by
  unfold execConfigRequest
  refine State.atPort_does (OutDoes.need (OutDoes.next ?_))
  refine Does.ite ?_ ?_
  · exact Does.trans Does.refl State.hostRsp_does rfl
  · extract_lets +onlyGivenNames x6
    clear_value x6
    exact Does.trans Does.refl State.hostRsp_does rfl

theorem execAtsInvalidation_does {a1 a2 a3 a4 o} : OutDoes 0x8000000 o (execAtsInvalidation a1 a2 a3 a4 o) := by
  unfold execAtsInvalidation
  refine State.onPort_does ?_
  extract_lets +onlyGivenNames x6 x7
  clear_value x6 x7
  refine OutDoes.next ?_
  refine Does.ite ?_ ?_
  · exact Does.refl
  · exact Does.trans Does.refl State.modPort_does rfl

theorem execHostRequestTimeout_does {a1 o} : OutDoes 0x206981f6ff8 o (execHostRequestTimeout a1 o) := by
  unfold execHostRequestTimeout
  exact State.onPort_does (OutDoes.need (OutDoes.next (Does.trans Does.refl State.portLost_does rfl)))

theorem execIdeKm_does {a1 a2 a3 o} : OutDoes 0x8000000 o (execIdeKm a1 a2 a3 o) := by
  unfold execIdeKm
  refine State.onPort_does (OutDoes.need (OutDoes.need ?_))
  extract_lets +onlyGivenNames x6 x7
  clear_value x6
  split
  · unfold x7
    exact OutDoes.next (Does.trans Does.refl State.modPort_does rfl)
  · refine OutDoes.need ?_
    unfold x7
    exact OutDoes.next (Does.trans Does.refl State.modPort_does rfl)
  · refine OutDoes.need ?_
    unfold x7
    exact OutDoes.next (Does.trans Does.refl State.modPort_does rfl)
  · exact OutDoes.next (Does.trans Does.refl State.modPort_does rfl)

theorem execTdisp_does {a1 a2 a3 o} : OutDoes 0x100000 o (execTdisp a1 a2 a3 o) := by
  unfold execTdisp
  refine State.onPort_does (OutDoes.needSome fun a6 => ?_)
  extract_lets +onlyGivenNames x7
  split
  · refine OutDoes.need ?_
    unfold x7
    exact OutDoes.next (Does.trans Does.refl State.modBerth_does rfl)
  · refine OutDoes.need ?_
    unfold x7
    exact OutDoes.next (Does.trans Does.refl State.modBerth_does rfl)
  · unfold x7
    exact OutDoes.next (Does.trans Does.refl State.modBerth_does rfl)

theorem execHostCacheSnoop_does {a1 a2 a3 o} : OutDoes 0x8000000 o (execHostCacheSnoop a1 a2 a3 o) := by
  unfold execHostCacheSnoop
  refine State.onPort_does (OutDoes.needSome fun a6 => ?_)
  refine OutDoes.next ?_
  refine Does.ite ?_ ?_
  · exact Does.trans Does.refl State.modPort_does rfl
  · refine Does.ite ?_ ?_
    · exact Does.trans Does.refl State.modPort_does rfl
    · exact Does.trans Does.refl State.modPort_does rfl

theorem execSetEventInterruptPolicy_does {a1 o} : OutDoes 0x10000000 o (execSetEventInterruptPolicy a1 o) := by
  unfold execSetEventInterruptPolicy
  refine OutDoes.ite ?_ ?_
  · refine State.primary_does rfl rfl
  · refine State.primary_does rfl rfl

theorem execIdeIntegrityFailure_does {a1 a2 o} : OutDoes 0x206981f6ff8 o (execIdeIntegrityFailure a1 a2 o) := by
  unfold execIdeIntegrityFailure
  refine State.onPort_does (OutDoes.need ?_)
  extract_lets +onlyGivenNames x6
  have h7 : Does 0x206981f6ff8 o x6 := by
    unfold x6
    exact Does.trans Does.refl State.modPort_does rfl
  clear_value x6
  exact OutDoes.next (Does.trans (Does.trans ‹_› State.cxlEvent_does rfl) State.portLost_does rfl)

theorem execClearEventRecords_does {a1 a2 o} : OutDoes 0x10000000 o (execClearEventRecords a1 a2 o) := by
  unfold execClearEventRecords
  extract_lets +onlyGivenNames x1 x2
  clear_value x1 x2
  refine OutDoes.ite ?_ ?_
  · extract_lets +onlyGivenNames x3
    clear_value x3
    refine State.primary_does rfl rfl
  · refine State.primary_does rfl rfl

theorem execAtsCompletion_does {a1 a2 a3 a4 a5 o} : OutDoes 0x297bb9ffff8 o (execAtsCompletion a1 a2 a3 a4 a5 o) := by
  unfold execAtsCompletion
  refine State.onPort_does ?_
  extract_lets +onlyGivenNames x6 x7
  clear_value x6 x7
  refine OutDoes.need ?_
  extract_lets +onlyGivenNames x8
  have h9 : Does 0x297bb9ffff8 o x8 := by
    unfold x8
    exact Does.trans Does.refl State.modPort_does rfl
  clear_value x8
  refine OutDoes.next ?_
  split
  · extract_lets +onlyGivenNames x10
    clear_value x10
    exact Does.trans (Does.trans ‹_› State.modPort_does rfl) State.hostWake_does rfl
  · exact Does.trans (Does.modEng ‹_›) State.hostWake_does rfl

theorem execCxlLinkTrain_does {a1 a2 a3 a4 o} : OutDoes 0x18000000 o (execCxlLinkTrain a1 a2 a3 a4 o) := by
  unfold execCxlLinkTrain
  refine State.atPort_does (OutDoes.need (OutDoes.need ?_))
  extract_lets +onlyGivenNames x6
  have h7 : Does 0x18000000 o x6 := by
    unfold x6
    exact Does.trans Does.refl State.modPort_does rfl
  clear_value x6
  refine OutDoes.next ?_
  refine Does.ite ?_ ?_
  · exact Does.trans ‹_› State.cxlEvent_does rfl
  · assumption

end Sys2Proof.Machine
end

