-- ==== Sys2Proof/Laws/DoesModule.lean ====
section
/-! SUPPORT. What each operation can do, once per operation (boot, power, trust, maps, bring-up and row repair). Read `Does w o t` in Laws/Does.lean. -/

set_option Elab.async false

namespace Sys2Proof.Machine

theorem State.measured_does {o} : Does 0x8000000000 o (State.measured o) := by
  unfold State.measured
  exact Does.modSec Does.refl

theorem State.debugEnd_does {o} : Does 0x8000000000 o (State.debugEnd o) := by
  unfold State.debugEnd
  refine Does.ite ?_ ?_
  · exact Does.trans (Does.modSec Does.refl) State.measured_does rfl
  · exact Does.refl

theorem State.repairStop_does {o a2} : Does 0x500c0008 o (State.repairStop o a2) := by
  unfold State.repairStop
  extract_lets +onlyGivenNames x1
  have h2 : Does 0x500c0008 o x1 := by
    unfold x1
    split
    · split
      · exact Does.trans Does.refl State.bgEnd_does rfl
      · exact Does.refl
    · exact Does.refl
  clear_value x1
  exact Does.modPanel ‹_›

theorem State.switchStop_does {o a2} : Does 0x100700c0000 o (State.switchStop o a2) := by
  unfold State.switchStop
  refine Does.ite ?_ ?_
  · extract_lets +onlyGivenNames x1
    have h2 : Does 0x100700c0000 o x1 := by
      unfold x1
      exact Does.modMbx Does.refl
    clear_value x1
    exact Does.trans (Does.modSec ‹_›) State.bgEnd_does rfl
  · exact Does.refl

theorem State.standbyOff_does {o : State} : Does 0x1dffffffffe o o.standbyOff := by
  refine ⟨fun p hp => ?_, fun _ => rfl, Fuses.Blown.rfl' _, fun _ h => h⟩
  cases p <;> first | exact absurd hp (by decide) | rfl

theorem Fuses.apply_blown (f : Fuses) (img : List Byte) : f.Blown (f.apply img) := by
  have k {n : Nat} (a b : BitVec n) : a ||| (a ||| b) = a ||| b := by rw [← BitVec.or_assoc, BitVec.or_self]
  refine ⟨rfl, rfl, rfl, rfl, k _ _, k _ _, ?_, k _ _, k _ _, k _ _, id⟩
  show f.svn ≤ if _ then _ else _
  split
  · exact Nat.le_max_left _ _
  · exact le_refl _

theorem State.directives_does {o : State} {a : List Byte} : Does 0x2000000000 o (o.directives a) := by
  unfold State.directives
  exact Does.ite Does.refl (Does.modSec Does.refl (hb := Fuses.apply_blown _ _))

theorem State.deviceReset_does {o : State} : Does 0x19ffffffffe o o.deviceReset := by
  refine ⟨fun p hp => ?_, id, Fuses.Blown.rfl' _, fun _ h => h⟩
  cases p <;> first | exact absurd hp (by decide) | rfl

theorem State.raiseAlarm_does {o a2} : Does 0x1d0700f6008 o (State.raiseAlarm o a2) := by
  unfold State.raiseAlarm
  refine Does.ite ?_ ?_
  · exact Does.refl
  · extract_lets +onlyGivenNames x1
    have h2 : Does 0x1d0700f6008 o x1 := by
      unfold x1
      exact Does.modSec Does.refl
    clear_value x1
    extract_lets +onlyGivenNames x3
    have h4 : Does 0x1d0700f6008 o x3 := by
      unfold x3
      exact Does.modPwr ‹_›
    clear_value x3
    extract_lets +onlyGivenNames x5
    have h6 : Does 0x1d0700f6008 o x5 := by
      unfold x5
      exact Does.modLk ‹_›
    clear_value x5
    extract_lets +onlyGivenNames x7
    have h8 : Does 0x1d0700f6008 o x7 := by
      unfold x7
      refine Does.foldl ?_ fun r9 x10 h11 => ?_
      · assumption
      · refine Does.ite ?_ ?_
        · exact Does.trans ‹_› State.failCmd_does rfl
        · assumption
    clear_value x7
    extract_lets +onlyGivenNames x12
    have h13 : Does 0x1d0700f6008 o x12 := by
      unfold x12
      exact Does.trans (Does.trans (Does.trans (Does.trans ‹_› State.debugEnd_does rfl) State.switchStop_does rfl) State.repairStop_does
          rfl) State.measured_does rfl
    clear_value x12
    exact Does.trans ‹_› State.cxlEvent_does rfl

theorem State.bringUpStart_does {o} : Does 0x19ffffffffe o (State.bringUpStart o) := by
  unfold State.bringUpStart
  exact Does.modPwr (Does.trans Does.refl State.deviceReset_does rfl)

theorem State.thermStep_does {o a2} : Does 0x1000000000 o (State.thermStep o a2) := by
  unfold State.thermStep
  extract_lets +onlyGivenNames x1 x2
  clear_value x1 x2
  exact Does.modPwr Does.refl

theorem State.rails_does {o a2} : Does 0x1000000000 o (State.rails o a2) := by
  unfold State.rails
  exact Does.modPwr Does.refl

theorem State.stopBegin_does {o} : Does 0x1000082010 o (State.stopBegin o) := by
  unfold State.stopBegin
  extract_lets +onlyGivenNames x1
  have h2 : Does 0x1000082010 o x1 := by
    unfold x1
    exact Does.modLk Does.refl
  clear_value x1
  extract_lets +onlyGivenNames x3
  have h4 : Does 0x1000082010 o x3 := by
    unfold x3
    exact Does.modEng ‹_›
  clear_value x3
  extract_lets +onlyGivenNames x5
  have h6 : Does 0x1000082010 o x5 := by
    unfold x5
    exact Does.modPwr ‹_›
  clear_value x5
  refine Does.foldl ?_ fun r7 x8 h9 => ?_
  · assumption
  · exact Does.trans ‹_› State.effSet_does rfl

theorem State.powerFall_does {o} : Does 0x1000082010 o (State.powerFall o) := by
  unfold State.powerFall
  extract_lets +onlyGivenNames x1
  have h2 : Does 0x1000082010 o x1 := by
    unfold x1
    exact Does.modPwr Does.refl
  clear_value x1
  refine Does.ite ?_ ?_
  · exact Does.trans (Does.trans ‹_› State.stopBegin_does rfl) State.rails_does rfl
  · assumption

theorem execPwrGoodInFall_does {o} : OutDoes 0x1000082010 o (execPwrGoodInFall o) := by
  unfold execPwrGoodInFall
  exact OutDoes.need (OutDoes.need (OutDoes.next (Does.trans (Does.modPwr Does.refl) State.powerFall_does rfl)))

theorem State.clocksOff_does {o} : Does 0x110700d6f88 o (State.clocksOff o) := by
  unfold State.clocksOff
  extract_lets +onlyGivenNames x1 x2
  have h3 : Does 0x110700d6f88 o x2 := by
    unfold x2
    exact Does.modBasin Does.refl
  clear_value x2
  extract_lets +onlyGivenNames x4
  have h5 : Does 0x110700d6f88 o x4 := by
    unfold x4
    exact Does.modMem ‹_›
  clear_value x4
  extract_lets +onlyGivenNames x6
  have h7 : Does 0x110700d6f88 o x6 := by
    unfold x6
    exact Does.modEng ‹_›
  clear_value x6
  extract_lets +onlyGivenNames x8
  have h9 : Does 0x110700d6f88 o x8 := by
    unfold x8
    exact Does.modThr ‹_›
  clear_value x8
  extract_lets +onlyGivenNames x10
  have h11 : Does 0x110700d6f88 o x10 := by
    unfold x10
    exact Does.trans (Does.trans ‹_› State.repairStop_does rfl) State.switchStop_does rfl
  clear_value x10
  extract_lets +onlyGivenNames x12
  have h13 : Does 0x110700d6f88 o x12 := by
    unfold x12
    exact Does.modLk ‹_›
  clear_value x12
  exact Does.modPwr ‹_›

theorem State.trip_does {o a2 a3} : Does 0x110700d6f88 o (State.trip o a2 a3) := by
  unfold State.trip
  extract_lets +onlyGivenNames x1
  have h2 : Does 0x110700d6f88 o x1 := by
    unfold x1
    exact Does.modPwr Does.refl
  clear_value x1
  extract_lets +onlyGivenNames x3
  have h4 : Does 0x110700d6f88 o x3 := by
    unfold x3
    refine Does.ite ?_ ?_
    · exact Does.trans ‹_› State.clocksOff_does rfl
    · assumption
  clear_value x3
  exact Does.trans ‹_› State.cxlEvent_does rfl

theorem State.holdLower_does {o a2} : Does 0x1000000000 o (State.holdLower o a2) := by
  unfold State.holdLower
  exact Does.modPwr Does.refl

theorem execDroopRecover_does {a1 a2 a3 o} : OutDoes 0x1100000010 o (execDroopRecover a1 a2 a3 o) := by
  unfold execDroopRecover
  extract_lets +onlyGivenNames x1
  clear_value x1
  refine OutDoes.needSome fun a2 => ?_
  refine OutDoes.need ?_
  extract_lets +onlyGivenNames x3 x4
  clear_value x3
  have h5 : Does 0x1100000010 o x4 := by
    unfold x4
    exact Does.modPwr Does.refl
  clear_value x4
  extract_lets +onlyGivenNames x6
  have h7 : Does 0x1100000010 o x6 := by
    unfold x6
    exact Does.trans ‹_› State.effSet_does rfl
  clear_value x6
  refine OutDoes.next ?_
  refine Does.ite ?_ ?_
  · exact Does.trans (Does.trans ‹_› State.event_does rfl) State.holdLower_does rfl
  · assumption

theorem State.rampStart_does {o a2} : Does 0x1000000010 o (State.rampStart o a2) := by
  unfold State.rampStart
  refine Does.ite ?_ ?_
  · exact Does.refl
  · exact Does.trans (Does.modPwr Does.refl) State.effSet_does rfl

theorem State.force_does {o a2 a3 a4} : Does 0x1000000010 o (State.force o a2 a3 a4) := by
  unfold State.force
  extract_lets +onlyGivenNames x1 x2
  clear_value x1
  have h3 : Does 0x1000000010 o x2 := by
    unfold x2
    exact Does.trans Does.refl State.setRbit_does rfl
  clear_value x2
  refine Does.ite ?_ ?_
  · exact Does.trans (Does.modPwr ‹_›) State.effSet_does rfl
  · refine Does.ite ?_ ?_
    · exact Does.trans ‹_› State.rampStart_does rfl
    · assumption

theorem State.forceAll_does {o a2 a3} : Does 0x1000000010 o (State.forceAll o a2 a3) := by
  unfold State.forceAll
  refine Does.foldl ?_ fun r1 x2 h3 => ?_
  · exact Does.refl
  · exact Does.trans ‹_› State.force_does rfl

theorem execVrAlertNRelease_does {o} : OutDoes 0x1000000010 o (execVrAlertNRelease o) := by
  unfold execVrAlertNRelease
  exact OutDoes.need (OutDoes.need (OutDoes.next (Does.trans (Does.modPwr Does.refl) State.forceAll_does rfl)))

theorem State.stopFlush_does {o} : Does 0x498080bf8 o (State.stopFlush o) := by
  unfold State.stopFlush
  extract_lets +onlyGivenNames x1
  have h2 : Does 0x498080bf8 o x1 := by
    unfold x1
    refine Does.foldl ?_ fun r3 x4 h5 => ?_
    · exact Does.refl
    · refine Does.foldl ?_ fun r6 x7 h8 => ?_
      · assumption
      · exact Does.trans ‹_› State.l1Flush_does rfl
  clear_value x1
  extract_lets +onlyGivenNames x9
  have h10 : Does 0x498080bf8 o x9 := by
    unfold x9
    refine Does.foldl ?_ fun r11 x12 h13 => ?_
    · assumption
    · exact Does.trans ‹_› State.farFlush_does rfl
  clear_value x9
  refine Does.foldl ?_ fun r14 x15 h16 => ?_
  · assumption
  · exact Does.trans (Does.trans ‹_› State.drainSlices_does rfl) State.flushHome_does rfl

theorem execPwrGoodInRise_does {o} : OutDoes 0x19ffffffffe o (execPwrGoodInRise o) := by
  unfold execPwrGoodInRise
  refine OutDoes.need (OutDoes.need ?_)
  extract_lets +onlyGivenNames x1
  have h2 : Does 0x19ffffffffe o x1 := by
    unfold x1
    exact Does.modPwr Does.refl
  clear_value x1
  refine OutDoes.next ?_
  refine Does.ite ?_ ?_
  · exact Does.modPwr ‹_›
  · refine Does.ite ?_ ?_
    · assumption
    · exact Does.trans ‹_› State.bringUpStart_does rfl

theorem execI3cDynamicAddress_does {a1 a2 o} : OutDoes 0x1000000000 o (execI3cDynamicAddress a1 a2 o) := by
  unfold execI3cDynamicAddress
  exact OutDoes.need (OutDoes.need (OutDoes.need (OutDoes.next (Does.modPwr Does.refl))))

theorem State.capCommit_does {o a2 a3} : Does 0x1000000010 o (State.capCommit o a2 a3) := by
  unfold State.capCommit
  extract_lets +onlyGivenNames x1 x2 x3 x4 x5 x6 x7 x8
  clear_value x1 x2 x3 x4 x5 x6 x7
  have h9 : Does 0x1000000010 o x8 := by
    unfold x8
    exact Does.setReg Does.refl
  clear_value x8
  extract_lets +onlyGivenNames x10
  have h11 : Does 0x1000000010 o x10 := by
    unfold x10
    exact Does.modPwr ‹_›
  clear_value x10
  extract_lets +onlyGivenNames x12
  have h13 : Does 0x1000000010 o x12 := by
    unfold x12
    exact Does.trans ‹_› State.setRbit_does rfl
  clear_value x12
  exact Does.trans ‹_› State.effSet_does rfl

theorem State.dieHeat_does {o a2 a3} : Does 0x1000000010 o (State.dieHeat o a2 a3) := by
  unfold State.dieHeat
  extract_lets +onlyGivenNames x1
  have h2 : Does 0x1000000010 o x1 := by
    unfold x1
    exact Does.trans Does.refl State.setRfld_does rfl
  clear_value x1
  extract_lets +onlyGivenNames x3
  have h4 : Does 0x1000000010 o x3 := by
    unfold x3
    exact Does.modPwr ‹_›
  clear_value x3
  refine Does.ite ?_ ?_
  · exact Does.trans ‹_› State.force_does rfl
  · refine Does.ite ?_ ?_
    · exact Does.trans ‹_› State.force_does rfl
    · assumption

theorem execVrAlertN_does {o} : OutDoes 0x1110000010 o (execVrAlertN o) := by
  unfold execVrAlertN
  refine OutDoes.need (OutDoes.need ?_)
  extract_lets +onlyGivenNames x1 x2
  clear_value x1
  have h3 : Does 0x1110000010 o x2 := by
    unfold x2
    exact Does.modPwr Does.refl
  clear_value x2
  extract_lets +onlyGivenNames x4
  have h5 : Does 0x1110000010 o x4 := by
    unfold x4
    exact Does.trans (Does.trans ‹_› State.forceAll_does rfl) State.cxlEvent_does rfl
  clear_value x4
  refine OutDoes.next ?_
  refine Does.ite ?_ ?_
  · exact Does.trans (Does.trans ‹_› State.holdLower_does rfl) State.event_does rfl
  · assumption

theorem execCapControlStep_does {a1 a2 o} : OutDoes 0x1100000010 o (execCapControlStep a1 a2 o) := by
  unfold execCapControlStep
  refine OutDoes.need (OutDoes.need ?_)
  extract_lets +onlyGivenNames x1 x2 x3 x4 x5 x6
  clear_value x1 x2 x3 x4 x5
  have h7 : Does 0x1100000010 o x6 := by
    unfold x6
    exact Does.modPwr Does.refl
  clear_value x6
  extract_lets +onlyGivenNames x8
  have h9 : Does 0x1100000010 o x8 := by
    unfold x8
    refine Does.ite ?_ ?_
    · assumption
    · exact Does.trans (Does.trans ‹_› State.gcnt_does rfl) State.event_does rfl
  clear_value x8
  extract_lets +onlyGivenNames x10
  have h11 : Does 0x1100000010 o x10 := by
    unfold x10
    refine Does.foldl ?_ fun r12 x13 h14 => ?_
    · assumption
    · exact Does.trans ‹_› State.thermStep_does rfl
  clear_value x10
  refine OutDoes.next ?_
  refine Does.foldl ?_ fun r15 x16 h17 => ?_
  · assumption
  · exact Does.trans ‹_› State.capCommit_does rfl

theorem State.credit_does {o a2 a3} : Does 0x80000 o (State.credit o a2 a3) := by
  unfold State.credit
  exact Does.trans Does.refl State.modCmd_does rfl

theorem State.opCredit_does {o a2} : Does 0x100000 o (State.opCredit o a2) := by
  unfold State.opCredit
  exact Does.modBth Does.refl

theorem execStandbyPowerGood_does {a1 o} : OutDoes 0x19ffffffffe o (execStandbyPowerGood a1 o) := by
  unfold execStandbyPowerGood
  exact OutDoes.need (OutDoes.next (Does.trans (Does.modPwr Does.refl) State.bringUpStart_does rfl))

theorem execDroopDetect_does {a1 a2 o} : OutDoes 0x1000000010 o (execDroopDetect a1 a2 o) := by
  unfold execDroopDetect
  extract_lets +onlyGivenNames x1
  clear_value x1
  refine OutDoes.need (OutDoes.need (OutDoes.need ?_))
  extract_lets +onlyGivenNames x2 x3
  clear_value x2
  have h4 : Does 0x1000000010 o x3 := by
    unfold x3
    exact Does.modPwr Does.refl
  clear_value x3
  exact OutDoes.next (Does.trans ‹_› State.effSet_does rfl)

theorem execModuleStopDone_does {o} : OutDoes 0x39ffffffffe o (execModuleStopDone o) := by
  unfold execModuleStopDone
  refine OutDoes.need ?_
  extract_lets +onlyGivenNames x1
  have h2 : Does 0x39ffffffffe o x1 := by
    unfold x1
    exact Does.trans Does.refl State.stopFlush_does rfl
  clear_value x1
  extract_lets +onlyGivenNames x3
  have h4 : Does 0x39ffffffffe o x3 := by
    unfold x3
    refine Does.foldl ?_ fun r5 x6 h7 => ?_
    · assumption
    · exact Does.trans ‹_› State.erhForceW_does rfl
  clear_value x3
  extract_lets +onlyGivenNames x8
  have h9 : Does 0x39ffffffffe o x8 := by
    unfold x8
    exact Does.trans (Does.trans ‹_› State.clocksOff_does rfl) State.cxlEvent_does rfl
  clear_value x8
  refine OutDoes.next ?_
  refine Does.ite ?_ ?_
  · exact Does.trans ‹_› State.bringUpStart_does rfl
  · assumption

theorem execFlowOk_does {o} : OutDoes 0x1010000010 o (execFlowOk o) := by
  unfold execFlowOk
  refine OutDoes.need (OutDoes.need ?_)
  extract_lets +onlyGivenNames x1
  have h2 : Does 0x1010000010 o x1 := by
    unfold x1
    exact Does.modPwr Does.refl
  clear_value x1
  exact OutDoes.next (Does.trans (Does.trans (Does.trans ‹_› State.forceAll_does rfl) State.rails_does rfl) State.cxlEvent_does rfl)

theorem execThermTripRelease_does {o} : OutDoes 0x19ffffffffe o (execThermTripRelease o) := by
  unfold execThermTripRelease
  refine OutDoes.need (OutDoes.needSome fun a1 => ?_)
  refine OutDoes.need ?_
  extract_lets +onlyGivenNames x2
  have h3 : Does 0x19ffffffffe o x2 := by
    unfold x2
    exact Does.modPwr Does.refl
  clear_value x2
  refine OutDoes.next ?_
  refine Does.ite ?_ ?_
  · exact Does.trans ‹_› State.bringUpStart_does rfl
  · assumption

theorem execTempSample_does {a1 a2 o} : OutDoes 0x1d0700f6f98 o (execTempSample a1 a2 o) := by
  unfold execTempSample
  refine OutDoes.need (OutDoes.need ?_)
  extract_lets +onlyGivenNames x1 x2
  clear_value x1
  have h3 : Does 0x1d0700f6f98 o x2 := by
    unfold x2
    exact Does.modPwr Does.refl
  clear_value x2
  extract_lets +onlyGivenNames x4
  have h5 : Does 0x1d0700f6f98 o x4 := by
    unfold x4
    exact Does.modPwr ‹_›
  clear_value x4
  extract_lets +onlyGivenNames x6
  have h7 : Does 0x1d0700f6f98 o x6 := by
    unfold x6
    refine Does.ite ?_ ?_
    · refine Does.ite ?_ ?_
      · exact Does.trans ‹_› State.dieHeat_does rfl
      · assumption
    · refine Does.ite ?_ ?_
      · exact Does.trans ‹_› State.cxlEvent_does rfl
      · assumption
  clear_value x6
  extract_lets +onlyGivenNames x8
  have h9 : Does 0x1d0700f6f98 o x8 := by
    unfold x8
    refine Does.ite ?_ ?_
    · exact Does.trans ‹_› State.trip_does rfl
    · assumption
  clear_value x8
  refine OutDoes.next ?_
  refine Does.ite ?_ ?_
  · exact Does.trans ‹_› State.raiseAlarm_does rfl
  · assumption

theorem execRemoteEnergyGather_does {a1 o} : OutDoes 0x180000 o (execRemoteEnergyGather a1 o) := by
  unfold execRemoteEnergyGather
  refine OutDoes.need ?_
  extract_lets +onlyGivenNames x1 x2 x3 x4 x5
  clear_value x1 x2 x3 x4
  have h6 : Does 0x180000 o x5 := by
    unfold x5
    refine Does.foldl ?_ fun r7 x8 h9 => ?_
    · exact Does.refl
    · exact Does.trans (Does.trans ‹_› State.credit_does rfl) State.modCmd_does rfl
  clear_value x5
  exact OutDoes.next (Does.trans ‹_› State.opCredit_does rfl)

theorem execControllerAbsent_does {a1 o} : OutDoes 0x10 o (execControllerAbsent a1 o) := by
  unfold execControllerAbsent
  refine OutDoes.need (OutDoes.need ?_)
  extract_lets +onlyGivenNames x1 x2
  clear_value x1
  have h3 : Does 0x10 o x2 := by
    unfold x2
    exact Does.trans Does.refl State.setRfld_does rfl
  clear_value x2
  extract_lets +onlyGivenNames x4
  have h5 : Does 0x10 o x4 := by
    unfold x4
    exact Does.trans ‹_› State.setRfld_does rfl
  clear_value x4
  exact OutDoes.next (Does.trans ‹_› State.effSet_does rfl)

theorem execStandbyPowerLost_does {o} : OutDoes 0x1dffffffffe o (execStandbyPowerLost o) := by
  unfold execStandbyPowerLost
  exact OutDoes.need (OutDoes.next (Does.trans Does.refl State.standbyOff_does rfl))

theorem execFlowStop_does {o} : OutDoes 0x1000082010 o (execFlowStop o) := by
  unfold execFlowStop
  refine OutDoes.need (OutDoes.needSome fun a1 => ?_)
  exact OutDoes.need (OutDoes.next (Does.trans Does.refl State.stopBegin_does rfl))

theorem execFlowOkRelease_does {o} : OutDoes 0x1000000010 o (execFlowOkRelease o) := by
  unfold execFlowOkRelease
  refine OutDoes.need (OutDoes.need ?_)
  extract_lets +onlyGivenNames x1
  have h2 : Does 0x1000000010 o x1 := by
    unfold x1
    exact Does.modPwr Does.refl
  clear_value x1
  refine OutDoes.next ?_
  refine Does.ite ?_ ?_
  · assumption
  · exact Does.trans (Does.trans ‹_› State.forceAll_does rfl) State.rails_does rfl

theorem execEnergyInterval_does {a1 a2 o} : OutDoes 0x20000180000 o (execEnergyInterval a1 a2 o) := by
  unfold execEnergyInterval
  refine OutDoes.need (OutDoes.need ?_)
  extract_lets +onlyGivenNames x1 x2 x3 x4 x5 x6 x7
  clear_value x1 x2 x3 x4 x5 x6
  have h8 : Does 0x20000180000 o x7 := by
    unfold x7
    refine Does.foldl ?_ fun r9 x10 h11 => ?_
    · exact Does.drawn Does.refl
    · exact Does.trans ‹_› State.credit_does rfl
  clear_value x7
  exact OutDoes.next (Does.trans ‹_› State.opCredit_does rfl)

theorem execInputUndervoltage_does {o} : OutDoes 0x1000082010 o (execInputUndervoltage o) := by
  unfold execInputUndervoltage
  exact OutDoes.need (OutDoes.need (OutDoes.next (Does.trans Does.refl State.powerFall_does rfl)))

theorem State.spdmReq_does {o a2 a3} : OutDoes 0x8000000000 o (State.spdmReq o a2 a3) := by
  unfold State.spdmReq
  refine OutDoes.need (OutDoes.need ?_)
  split
  exact OutDoes.next (Does.modSec Does.refl)

theorem execKeyExchange_does {a1 a2 o} : OutDoes 0x8000000000 o (execKeyExchange a1 a2 o) := by
  unfold execKeyExchange
  exact OutDoes.after Does.refl State.spdmReq_does rfl

theorem execFwSwitchEnd_does {o} : OutDoes 0x1a0700c0000 o (execFwSwitchEnd o) := by
  unfold execFwSwitchEnd
  refine OutDoes.need ?_
  extract_lets +onlyGivenNames x1 x2
  clear_value x1
  have h3 : Does 0x1a0700c0000 o x2 := by
    unfold x2
    exact Does.modSec Does.refl
  clear_value x2
  extract_lets +onlyGivenNames x4
  have h5 : Does 0x1a0700c0000 o x4 := by
    unfold x4
    exact Does.modMbx (Does.trans (Does.trans ‹_› State.measured_does rfl) State.directives_does rfl)
  clear_value x4
  exact OutDoes.next (Does.trans ‹_› State.bgEnd_does rfl)

theorem execChallenge_does {a1 a2 a3 o} : OutDoes 0x8000000000 o (execChallenge a1 a2 a3 o) := by
  unfold execChallenge
  exact OutDoes.after Does.refl State.spdmReq_does rfl

theorem execTamperTrip_does {a1 o} : OutDoes 0x1d0700f6008 o (execTamperTrip a1 o) := by
  unfold execTamperTrip
  exact OutDoes.need (OutDoes.need (OutDoes.next (Does.trans Does.refl State.raiseAlarm_does rfl)))

theorem execFinish_does {a1 a2 a3 o} : OutDoes 0x8000000000 o (execFinish a1 a2 a3 o) := by
  unfold execFinish
  exact OutDoes.after Does.refl State.spdmReq_does rfl

theorem execEndSession_does {a1 a2 o} : OutDoes 0x8000000000 o (execEndSession a1 a2 o) := by
  unfold execEndSession
  exact OutDoes.after Does.refl State.spdmReq_does rfl

theorem execGetDigests_does {a1 o} : OutDoes 0x8000000000 o (execGetDigests a1 o) := by
  unfold execGetDigests
  exact OutDoes.after Does.refl State.spdmReq_does rfl

theorem execGetCertificate_does {a1 a2 a3 a4 o} : OutDoes 0x8000000000 o (execGetCertificate a1 a2 a3 a4 o) := by
  unfold execGetCertificate
  exact OutDoes.after Does.refl State.spdmReq_does rfl

theorem execPldmFirmwareUpdate_does {a1 o} : OutDoes 0x19ffffffffe o (execPldmFirmwareUpdate a1 o) := by
  unfold execPldmFirmwareUpdate
  refine OutDoes.need ?_
  extract_lets +onlyGivenNames x1
  refine OutDoes.next ?_
  refine Does.ite ?_ ?_
  · exact Does.trans (Does.modSec Does.refl) State.bringUpStart_does rfl
  · refine Does.ite ?_ ?_
    · extract_lets +onlyGivenNames x2
      have h3 : Does 0x19ffffffffe o x2 := by
        unfold x2
        exact Does.modSec Does.refl
      clear_value x2
      exact Does.modMbx ‹_›
    · exact Does.refl

theorem execGetCapabilities_does {a1 o} : OutDoes 0x8000000000 o (execGetCapabilities a1 o) := by
  unfold execGetCapabilities
  exact OutDoes.after Does.refl State.spdmReq_does rfl

theorem execKeyUpdate_does {a1 a2 a3 o} : OutDoes 0x8000000000 o (execKeyUpdate a1 a2 a3 o) := by
  unfold execKeyUpdate
  exact OutDoes.after Does.refl State.spdmReq_does rfl

theorem execDebugUnlockExpire_does {o} : OutDoes 0x8000000000 o (execDebugUnlockExpire o) := by
  unfold execDebugUnlockExpire
  refine OutDoes.needSome fun a1 => ?_
  exact OutDoes.need (OutDoes.next (Does.trans Does.refl State.debugEnd_does rfl))

theorem execAlarmErase_does {o} : OutDoes 0xc000000000 o (execAlarmErase o) := by
  unfold execAlarmErase
  exact OutDoes.need (OutDoes.next (Does.modSec Does.refl))

theorem execFuseReread_does {a1 o} : OutDoes 0x1d0700f6008 o (execFuseReread a1 o) := by
  unfold execFuseReread
  refine OutDoes.need (OutDoes.next ?_)
  refine Does.ite ?_ ?_
  · exact Does.trans Does.refl State.raiseAlarm_does rfl
  · exact Does.refl

theorem execGetMeasurements_does {a1 a2 a3 a4 o} : OutDoes 0x8000000000 o (execGetMeasurements a1 a2 a3 a4 o) := by
  unfold execGetMeasurements
  extract_lets +onlyGivenNames x1 x2
  clear_value x1 x2
  exact OutDoes.after Does.refl State.spdmReq_does rfl

theorem execGetVersion_does {a1 o} : OutDoes 0x8000000000 o (execGetVersion a1 o) := by
  unfold execGetVersion
  exact OutDoes.after Does.refl State.spdmReq_does rfl

theorem execNegotiateAlgorithms_does {a1 a2 a3 a4 a5 o} : OutDoes 0x8000000000 o (execNegotiateAlgorithms a1 a2 a3 a4 a5 o) := by
  unfold execNegotiateAlgorithms
  exact OutDoes.after Does.refl State.spdmReq_does rfl

theorem execAlarmKill_does {o : State} {a : Bool} : OutDoes 0x1f0700f6008 o (execAlarmKill a o) := by
  unfold execAlarmKill
  refine .need ?_
  extract_lets s1
  have h1 : Does 0x1f0700f6008 o s1 := Does.modSec Does.refl
    (hb := { Fuses.Blown.rfl' o.sec.fuses with kill := fun e => by simp [e] })
  exact .next (Does.ite h1 (Does.trans h1 State.raiseAlarm_does rfl))

theorem State.blockClear_does {o a2} : Does 0x120 o (State.blockClear o a2) := by
  unfold State.blockClear
  extract_lets +onlyGivenNames x1 x2
  clear_value x1
  have h3 : Does 0x120 o x2 := by
    unfold x2
    exact Does.modBasin Does.refl
  clear_value x2
  exact Does.modMem ‹_›

theorem State.mapBuild_does {o a2 a3} : OptDoes 0x498180ff8 o (fun r => r) (State.mapBuild o a2 a3) := by
  unfold State.mapBuild
  extract_lets +onlyGivenNames x1 x2 x3 x4
  clear_value x1 x2 x3
  have h5 : Does 0x498180ff8 o x4 := by
    unfold x4
    exact Does.modBth Does.refl
  clear_value x4
  extract_lets +onlyGivenNames x6
  clear_value x6
  split
  · exact OptDoes.none
  · extract_lets +onlyGivenNames x7 x8
    clear_value x7
    have h9 : Does 0x498180ff8 o x8 := by
      unfold x8
      exact Does.modBth ‹_›
    clear_value x8
    extract_lets +onlyGivenNames x10
    have h11 : Does 0x498180ff8 o x10 := by
      unfold x10
      refine Does.foldl ?_ fun r12 x13 h14 => ?_
      · assumption
      · exact Does.trans ‹_› State.blockClear_does rfl
    clear_value x10
    extract_lets +onlyGivenNames x15
    have h16 : Does 0x498180ff8 o x15 := by
      unfold x15
      refine Does.foldl ?_ fun r17 x18 h19 => ?_
      · assumption
      · refine Does.foldl ?_ fun r20 x21 h22 => ?_
        · assumption
        · exact Does.trans ‹_› State.paWrite_does rfl
    clear_value x15
    exact OptDoes.some (Does.trans (Does.trans ‹_› State.setRfld_does rfl) State.tlbDrop_does rfl)

theorem State.mapInit_does {o a2} : Does 0x498180ff8 o (State.mapInit o a2) := by
  unfold State.mapInit
  extract_lets +onlyGivenNames x1
  have h2 : Does 0x498180ff8 o x1 := by
    unfold x1
    refine Does.getD ?_ ?_
    · exact OptDoes.after Does.refl State.mapBuild_does rfl
    · exact Does.refl
  clear_value x1
  refine Does.getD ?_ ?_
  · exact OptDoes.after ‹_› State.mapBuild_does rfl
  · assumption

theorem State.copyPage_does {o a2 a3} : Does 0x60 o (State.copyPage o a2 a3) := by
  unfold State.copyPage
  extract_lets +onlyGivenNames x1
  have h2 : Does 0x60 o x1 := by
    unfold x1
    refine Does.foldl ?_ fun r3 x4 h5 => ?_
    · exact Does.refl
    · exact Does.trans ‹_› State.sectRewrite_does rfl
  clear_value x1
  extract_lets +onlyGivenNames x6 x7
  clear_value x6
  have h8 : Does 0x60 o x7 := by
    unfold x7
    exact Does.modMem ‹_›
  clear_value x7
  exact Does.trans ‹_› State.setPot_does rfl

theorem State.dropPage_does {o a2} : Does 0xb00 o (State.dropPage o a2) := by
  unfold State.dropPage
  extract_lets +onlyGivenNames x1
  clear_value x1
  exact Does.modBasin Does.refl

theorem State.flushPage_does {o a2} : Does 0x98000bf8 o (State.flushPage o a2) := by
  unfold State.flushPage
  extract_lets +onlyGivenNames x1 x2 x3
  clear_value x1 x2
  have h4 : Does 0x98000bf8 o x3 := by
    unfold x3
    refine Does.foldl ?_ fun r5 x6 h7 => ?_
    · exact Does.refl
    · refine Does.foldl ?_ fun r8 x9 h10 => ?_
      · assumption
      · exact Does.trans ‹_› State.l1Flush_does rfl
  clear_value x3
  extract_lets +onlyGivenNames x11
  have h12 : Does 0x98000bf8 o x11 := by
    unfold x11
    refine Does.foldl ?_ fun r13 x14 h15 => ?_
    · assumption
    · exact Does.trans ‹_› State.farFlush_does rfl
  clear_value x11
  extract_lets +onlyGivenNames x16
  have h17 : Does 0x98000bf8 o x16 := by
    unfold x16
    refine Does.foldl ?_ fun r18 x19 h20 => ?_
    · assumption
    · exact Does.trans ‹_› State.homeClean_does rfl
  clear_value x16
  exact Does.trans ‹_› State.dropPage_does rfl

theorem State.mapSync_does {o a2} : Does 0x498180ff8 o (State.mapSync o a2) := by
  unfold State.mapSync
  refine Does.ite ?_ ?_
  · extract_lets +onlyGivenNames x1
    have h2 : Does 0x498180ff8 o x1 := by
      unfold x1
      exact Does.modBth Does.refl
    clear_value x1
    extract_lets +onlyGivenNames x3
    have h4 : Does 0x498180ff8 o x3 := by
      unfold x3
      exact Does.trans ‹_› State.modBerth_does rfl
    clear_value x3
    refine Does.getD ?_ ?_
    · exact OptDoes.after ‹_› State.mapBuild_does rfl
    · assumption
  · exact Does.refl

theorem State.mapCommit_does {o a2} : OptDoes 0x498180ff8 o (fun r => r) (State.mapCommit o a2) := by
  unfold State.mapCommit
  extract_lets +onlyGivenNames x1
  clear_value x1
  refine OptDoes.ite ?_ ?_
  · refine OptDoes.mapTo (pr' := fun r => r) ?_ fun a2 h3 => ?_
    · exact OptDoes.after Does.refl State.mapBuild_does rfl
    · extract_lets +onlyGivenNames x4
      have h5 : Does 0x498180ff8 o x4 := by
        unfold x4
        exact Does.trans (Does.trans ‹_› State.setRbit_does rfl) State.bmapCommitW_does rfl
      clear_value x4
      exact Does.trans (Does.modBth ‹_›) State.mapSync_does rfl
  · exact OptDoes.none

theorem State.withdrawPage_does {o a2} : Does 0x498380ff8 o (State.withdrawPage o a2) := by
  unfold State.withdrawPage
  extract_lets +onlyGivenNames x1 x2 x3
  clear_value x1 x2 x3
  refine Does.ite ?_ ?_
  · exact Does.trans Does.refl State.setPot_does rfl
  · refine Does.ite ?_ ?_
    · exact Does.trans Does.refl State.setPot_does rfl
    · split
      · exact Does.trans Does.refl State.setPot_does rfl
      · extract_lets +onlyGivenNames x4 x5
        clear_value x4
        have h6 : Does 0x498380ff8 o x5 := by
          unfold x5
          exact Does.trans (Does.trans Does.refl State.flushPage_does rfl) State.copyPage_does rfl
        clear_value x5
        extract_lets +onlyGivenNames x7
        have h8 : Does 0x498380ff8 o x7 := by
          unfold x7
          exact Does.modBth ‹_›
        clear_value x7
        extract_lets +onlyGivenNames x9
        have h10 : Does 0x498380ff8 o x9 := by
          unfold x9
          refine Does.foldl ?_ fun r11 x12 h13 => ?_
          · assumption
          · refine Does.getD ?_ ?_
            · exact OptDoes.after ‹_› State.mapCommit_does rfl
            · assumption
        clear_value x9
        exact Does.trans (Does.trans ‹_› State.zeroPage_does rfl) State.setPot_does rfl

theorem State.releasePages_does {o a2} : Does 0x90000bf8 o (State.releasePages o a2).2 := by
  unfold State.releasePages
  extract_lets +onlyGivenNames x1
  clear_value x1
  refine Does.ite' (fun r => Prod.snd (r)) ?_ ?_
  · dsimp -zeta -iota only
    refine Does.foldl ?_ fun r2 x3 h4 => ?_
    · exact Does.refl
    · extract_lets +onlyGivenNames x5
      clear_value x5
      exact Does.trans (Does.trans (Does.trans ‹_› State.dropPage_does rfl) State.zeroPage_does rfl) State.setPot_does rfl
  · dsimp -zeta -iota only
    refine Does.foldl ?_ fun r6 x7 h8 => ?_
    · exact Does.refl
    · unfold State.recall
      split
      · dsimp -zeta -iota only
        assumption
      · split
        · dsimp -zeta -iota only
          assumption
        · refine Does.ite' (fun r => Prod.snd (r)) ?_ ?_
          · extract_lets +onlyGivenNames x9
            have h10 : Does 0x90000bf8 o x9 := by
              unfold x9
              exact Does.trans (Does.trans ‹_› State.farWriteBack_does rfl) State.farDrop_does rfl
            clear_value x9
            extract_lets +onlyGivenNames x11
            have h12 : Does 0x90000bf8 o x11 := by
              unfold x11
              refine Does.ite ?_ ?_
              · exact Does.trans ‹_› State.predMove_does rfl
              · assumption
            clear_value x11
            dsimp -zeta -iota only
            exact Does.trans ‹_› State.dirRemove_does rfl
          · dsimp -zeta -iota only
            exact Does.trans ‹_› State.biSnoop_does rfl
        · extract_lets +onlyGivenNames x13
          have h14 : Does 0x90000bf8 o x13 := by
            unfold x13
            refine Does.foldl ?_ fun r15 x16 h17 => ?_
            · assumption
            · exact Does.trans (Does.trans ‹_› State.farDrop_does rfl) State.dirRemove_does rfl
          clear_value x13
          refine Does.ite' (fun r => Prod.snd (r)) ?_ ?_
          · dsimp -zeta -iota only
            exact Does.trans ‹_› State.biSnoop_does rfl
          · refine Does.ite' (fun r => Prod.snd (r)) ?_ ?_
            · dsimp -zeta -iota only
              exact Does.trans ‹_› State.biSnoop_does rfl
            · dsimp -zeta -iota only
              assumption

theorem State.setPots_does {o a2 a3 a4} : Does 0x40 o (State.setPots o a2 a3 a4) := by
  unfold State.setPots
  refine Does.foldl ?_ fun r1 x2 h3 => ?_
  · exact Does.refl
  · exact Does.trans ‹_› State.setPot_does rfl

theorem State.takeOn_does {o a2 a3 a4} : OptDoes 0x40 o (fun r => Prod.snd r) (State.takeOn o a2 a3 a4) := by
  unfold State.takeOn
  refine OptDoes.ofMap fun a1 => ?_
  dsimp -zeta -iota only
  exact Does.trans Does.refl State.setPots_does rfl

theorem State.takeDie_does {a1 a2 a3 a4 o} : OptDoes 0x40 o (fun r => Prod.snd r) (State.takeDie a1 a2 a3 a4 o) := by
  induction a4 generalizing a1 a2 a3 o
  · unfold State.takeDie
    refine OptDoes.some ?_
    dsimp -zeta -iota only
    exact Does.refl
  · rename_i ih
    unfold State.takeDie
    split
    · exact OptDoes.none
    · rename_i x1 x2
      refine (fun h3 : Does 0x40 o x1 => ?_) (Does.opt1 ?_ x2)
      rotate_left
      · exact OptDoes.after Does.refl State.takeOn_does rfl
      refine OptDoes.mapTo (pr' := fun r => Prod.snd (r)) ?_ fun a4 h5 => ?_
      · exact OptDoes.after (q := 0x40) ‹_› ih rfl
      · dsimp -zeta -iota only
        assumption

theorem State.takeRound_does {a1 a2 a3 a4 a5 o} : OptDoes 0x40 o (fun r => Prod.snd (Prod.snd r)) (State.takeRound a1 a2 a3 a4 a5 o) := by
  induction a4 generalizing a1 a2 a3 a5 o
  · unfold State.takeRound
    refine OptDoes.some ?_
    dsimp -zeta -iota only
    exact Does.refl
  · rename_i ih
    unfold State.takeRound
    split
    · exact OptDoes.none
    · split
      · exact OptDoes.none
      · rename_i x1 x2
        refine (fun h3 : Does 0x40 o x1 => ?_) (Does.opt1 ?_ x2)
        rotate_left
        · exact OptDoes.after Does.refl State.takeOn_does rfl
        refine OptDoes.mapTo (pr' := fun r => Prod.snd (Prod.snd (r))) ?_ fun a4 h5 => ?_
        · exact OptDoes.after (q := 0x40) ‹_› ih rfl
        · dsimp -zeta -iota only
          assumption

theorem State.withdrawAsk_does {o a2} : Does 0x498180ff8 o (State.withdrawAsk o a2) := by
  unfold State.withdrawAsk
  extract_lets +onlyGivenNames x1
  have h2 : Does 0x498180ff8 o x1 := by
    unfold x1
    refine Does.foldl ?_ fun r3 x4 h5 => ?_
    · exact Does.refl
    · exact Does.trans ‹_› State.mapSync_does rfl
  clear_value x1
  refine Does.ite ?_ ?_
  · refine Does.foldl ?_ fun r6 x7 h8 => ?_
    · assumption
    · unfold State.recall
      split
      · dsimp -zeta -iota only
        assumption
      · split
        · dsimp -zeta -iota only
          assumption
        · refine Does.ite' (fun r => Prod.snd (r)) ?_ ?_
          · extract_lets +onlyGivenNames x9
            have h10 : Does 0x498180ff8 o x9 := by
              unfold x9
              exact Does.trans (Does.trans ‹_› State.farWriteBack_does rfl) State.farDrop_does rfl
            clear_value x9
            extract_lets +onlyGivenNames x11
            have h12 : Does 0x498180ff8 o x11 := by
              unfold x11
              refine Does.ite ?_ ?_
              · exact Does.trans ‹_› State.predMove_does rfl
              · assumption
            clear_value x11
            dsimp -zeta -iota only
            exact Does.trans ‹_› State.dirRemove_does rfl
          · dsimp -zeta -iota only
            exact Does.trans ‹_› State.biSnoop_does rfl
        · extract_lets +onlyGivenNames x13
          have h14 : Does 0x498180ff8 o x13 := by
            unfold x13
            refine Does.foldl ?_ fun r15 x16 h17 => ?_
            · assumption
            · exact Does.trans (Does.trans ‹_› State.farDrop_does rfl) State.dirRemove_does rfl
          clear_value x13
          refine Does.ite' (fun r => Prod.snd (r)) ?_ ?_
          · dsimp -zeta -iota only
            exact Does.trans ‹_› State.biSnoop_does rfl
          · refine Does.ite' (fun r => Prod.snd (r)) ?_ ?_
            · dsimp -zeta -iota only
              exact Does.trans ‹_› State.biSnoop_does rfl
            · dsimp -zeta -iota only
              assumption
  · assumption

theorem State.poisonPage_does {o a2} : Does 0x70 o (State.poisonPage o a2) := by
  unfold State.poisonPage
  extract_lets +onlyGivenNames x1 x2
  clear_value x1
  have h3 : Does 0x70 o x2 := by
    unfold x2
    refine Does.foldl ?_ fun r4 x5 h6 => ?_
    · exact Does.refl
    · exact Does.trans ‹_› State.dramPut_does rfl
  clear_value x2
  refine Does.ite ?_ ?_
  · exact Does.trans ‹_› State.setPot_does rfl
  · assumption

theorem execManagementRestart_does {o} : OutDoes 0x19ffffffffe o (execManagementRestart o) := by
  unfold execManagementRestart
  refine OutDoes.need ?_
  extract_lets +onlyGivenNames x1
  have h2 : Does 0x19ffffffffe o x1 := by
    unfold x1
    exact Does.modPwr Does.refl
  clear_value x1
  refine OutDoes.next ?_
  refine Does.ite ?_ ?_
  · extract_lets +onlyGivenNames x3 x4
    clear_value x3
    have h5 : Does 0x19ffffffffe o x4 := by
      unfold x4
      exact Does.modPwr ‹_›
    clear_value x4
    extract_lets +onlyGivenNames x6 x7
    clear_value x6
    have h8 : Does 0x19ffffffffe o x7 := by
      unfold x7
      exact Does.trans ‹_› State.sign_does rfl
    clear_value x7
    refine Does.ite ?_ ?_
    · exact Does.trans (Does.trans (Does.modSec ‹_›) State.measured_does rfl) State.cxlEvent_does rfl
    · assumption
  · refine Does.ite ?_ ?_
    · assumption
    · extract_lets +onlyGivenNames x9 x10
      clear_value x9
      have h11 : Does 0x19ffffffffe o x10 := by
        unfold x10
        exact Does.trans ‹_› State.sign_does rfl
      clear_value x10
      extract_lets +onlyGivenNames x12
      clear_value x12
      refine Does.ite ?_ ?_
      · exact Does.modPwr ‹_›
      · exact Does.modPwr (Does.trans ‹_› State.bringUpStart_does rfl)

theorem State.repairDone_does {o a2 a3} : Does 0x500c0008 o (State.repairDone o a2 a3) := by
  unfold State.repairDone
  extract_lets +onlyGivenNames x1 x2
  clear_value x1
  have h3 : Does 0x500c0008 o x2 := by
    unfold x2
    exact Does.modPanel Does.refl
  clear_value x2
  extract_lets +onlyGivenNames x4
  have h5 : Does 0x500c0008 o x4 := by
    unfold x4
    split
    · exact Does.trans ‹_› State.bgEnd_does rfl
    · assumption
  clear_value x4
  exact Does.trans ‹_› State.repairNext_does rfl

theorem State.putRowMap_does {o a2} : Does 0x10 o (State.putRowMap o a2) := by
  unfold State.putRowMap
  exact Does.setReg Does.refl

theorem execRepairPhaseADone_does {a1 o} : OutDoes 0x500c001c o (execRepairPhaseADone a1 o) := by
  unfold execRepairPhaseADone
  refine OutDoes.needSome fun a1 => ?_
  refine OutDoes.next ?_
  refine Does.ite ?_ ?_
  · exact Does.modPanel Does.refl
  · extract_lets +onlyGivenNames x2
    have h3 : Does 0x500c001c o x2 := by
      unfold x2
      exact Does.modPanel Does.refl
    clear_value x2
    exact Does.trans (Does.trans ‹_› State.putRowMap_does rfl) State.repairDone_does rfl

theorem State.copyStack_does {o a2 a3} : Does 0x70 o (State.copyStack o a2 a3) := by
  unfold State.copyStack
  refine Does.foldl ?_ fun r1 x2 h3 => ?_
  · exact Does.refl
  · refine Does.ite ?_ ?_
    · exact Does.trans ‹_› State.zeroPage_does rfl
    · refine Does.ite ?_ ?_
      · exact Does.trans ‹_› State.poisonPage_does rfl
      · refine Does.foldl ?_ fun r4 x5 h6 => ?_
        · assumption
        · exact Does.trans ‹_› State.sectRewrite_does rfl

theorem State.putRoute_does {o a2 a3 a4} : Does 0x10 o (State.putRoute o a2 a3 a4) := by
  unfold State.putRoute
  extract_lets +onlyGivenNames x1 x2
  clear_value x1 x2
  exact Does.trans Does.refl State.setRfld_does rfl

theorem State.routeInit_does {o} : Does 0x10 o (State.routeInit o) := by
  unfold State.routeInit
  refine Does.foldl ?_ fun r1 x2 h3 => ?_
  · exact Does.refl
  · refine Does.foldl ?_ fun r4 x5 h6 => ?_
    · assumption
    · exact Does.trans ‹_› State.putRoute_does rfl

theorem State.mapUnits_does {o a2 a3 a4} : Does 0x10 o (State.mapUnits o a2 a3 a4) := by
  unfold State.mapUnits
  extract_lets +onlyGivenNames x1 x2
  clear_value x1
  have h3 : Does 0x10 o x2 := by
    unfold x2
    exact Does.setReg Does.refl
  clear_value x2
  extract_lets +onlyGivenNames x4 x5 x6 x7 x8
  clear_value x4 x5 x6 x7
  have h9 : Does 0x10 o x8 := by
    unfold x8
    exact Does.setReg (Does.setReg (Does.setReg ‹_›))
  clear_value x8
  exact Does.trans (Does.trans ‹_› State.setRfld_does rfl) State.setRfld_does rfl

theorem State.freezeDie_does {o a2} : Does 0xb6000 o (State.freezeDie o a2) := by
  unfold State.freezeDie
  extract_lets +onlyGivenNames x1
  have h2 : Does 0xb6000 o x1 := by
    unfold x1
    refine Does.foldl ?_ fun r3 x4 h5 => ?_
    · exact Does.refl
    · exact Does.trans ‹_› State.replayCmd_does rfl
  clear_value x1
  extract_lets +onlyGivenNames x6
  have h7 : Does 0xb6000 o x6 := by
    unfold x6
    exact Does.modEng ‹_›
  clear_value x6
  exact Does.modThr ‹_›

theorem execRepairPassEnd_does {a1 o} : OutDoes 0x40000008 o (execRepairPassEnd a1 o) := by
  unfold execRepairPassEnd
  refine OutDoes.needSome fun a1 => ?_
  extract_lets +onlyGivenNames x2 x3 x4
  clear_value x2 x3
  have h5 : Does 0x40000008 o x4 := by
    unfold x4
    exact Does.modPanel Does.refl
  clear_value x4
  refine OutDoes.next ?_
  split
  · exact Does.trans ‹_› State.modBg_does rfl
  · assumption

theorem execIdentityDerived_does {a1 o} : OutDoes 0x90300c0000 o (execIdentityDerived a1 o) := by
  unfold execIdentityDerived
  refine OutDoes.need ?_
  extract_lets +onlyGivenNames x1 x2
  clear_value x1
  have h3 : Does 0x90300c0000 o x2 := by
    unfold x2
    exact Does.modSec Does.refl
  clear_value x2
  extract_lets +onlyGivenNames x4
  have h5 : Does 0x90300c0000 o x4 := by
    unfold x4
    refine Does.ite ?_ ?_
    · assumption
    · exact Does.trans ‹_› State.cxlEvent_does rfl
  clear_value x4
  extract_lets +onlyGivenNames x6
  have h7 : Does 0x90300c0000 o x6 := by
    unfold x6
    exact Does.modLk (Does.modPwr ‹_›)
  clear_value x6
  refine OutDoes.next ?_
  refine Does.ite ?_ ?_
  · exact Does.trans (Does.modMbx ‹_›) State.mbAnswer_does rfl
  · assumption

theorem State.routeSwap_does {o a2} : Does 0x10 o (State.routeSwap o a2) := by
  unfold State.routeSwap
  refine Does.foldl ?_ fun r1 x2 h3 => ?_
  · exact Does.refl
  · extract_lets +onlyGivenNames x4 x5 x6 x7
    clear_value x4 x5 x6
    have h8 : Does 0x10 o x7 := by
      unfold x7
      refine Does.foldl ?_ fun r9 x10 h11 => ?_
      · assumption
      · exact Does.setReg ‹_›
    clear_value x7
    extract_lets +onlyGivenNames x12
    have h13 : Does 0x10 o x12 := by
      unfold x12
      exact Does.trans ‹_› State.putRoute_does rfl
    clear_value x12
    exact Does.trans (Does.trans ‹_› State.setRbit_does rfl) State.setRbit_does rfl

theorem execKiltorWatchdog_does {a1 o} : OutDoes 0x1000000000 o (execKiltorWatchdog a1 o) := by
  unfold execKiltorWatchdog
  exact OutDoes.need (OutDoes.need (OutDoes.next (Does.modPwr Does.refl)))

theorem State.bringUpRom_does {o a2} : Does 0x1f0700f6008 o (State.bringUpRom o a2) := by
  unfold State.bringUpRom
  extract_lets +onlyGivenNames x1
  refine Does.ite ?_ ?_
  · unfold x1
    exact Does.modPwr Does.refl
  · refine Does.ite ?_ ?_
    · exact Does.trans Does.refl State.raiseAlarm_does rfl
    · extract_lets +onlyGivenNames x2
      have h3 : Does 0x1f0700f6008 o x2 := by
        unfold x2
        exact Does.modSec Does.refl
      clear_value x2
      extract_lets +onlyGivenNames x4
      refine Does.ite ?_ ?_
      · unfold x1
        exact Does.modPwr ‹_›
      · extract_lets +onlyGivenNames x5
        have h6 : Does 0x1f0700f6008 o x5 := by
          unfold x5
          refine Does.ite ?_ ?_
          · assumption
          · exact Does.trans (Does.modSec ‹_›) State.cxlEvent_does rfl
        clear_value x5
        extract_lets +onlyGivenNames x7
        have h8 : Does 0x1f0700f6008 o x7 := by
          unfold x7
          exact Does.trans ‹_› State.directives_does rfl
        clear_value x7
        unfold x1
        exact Does.modPwr ‹_›

theorem State.bringUpMap_does {o a2} : Does 0x9499980ffc o (State.bringUpMap o a2) := by
  unfold State.bringUpMap
  extract_lets +onlyGivenNames x1 x2 x3
  clear_value x1 x2
  have h4 : Does 0x9499980ffc o x3 := by
    unfold x3
    exact Does.modPanel Does.refl
  clear_value x3
  extract_lets +onlyGivenNames x5
  have h6 : Does 0x9499980ffc o x5 := by
    unfold x5
    refine Does.foldl ?_ fun r7 x8 h9 => ?_
    · assumption
    · exact Does.trans ‹_› State.putRowMap_does rfl
  clear_value x5
  extract_lets +onlyGivenNames x10
  have h11 : Does 0x9499980ffc o x10 := by
    unfold x10
    refine Does.foldl ?_ fun r12 x13 h14 => ?_
    · assumption
    · exact Does.trans ‹_› State.mapUnits_does rfl
  clear_value x10
  extract_lets +onlyGivenNames x15
  have h16 : Does 0x9499980ffc o x15 := by
    unfold x15
    exact Does.trans ‹_› State.routeInit_does rfl
  clear_value x15
  extract_lets +onlyGivenNames x17
  have h18 : Does 0x9499980ffc o x17 := by
    unfold x17
    refine Does.foldl ?_ fun r19 x20 h21 => ?_
    · assumption
    · refine Does.foldl ?_ fun r22 x23 h24 => ?_
      · assumption
      · refine Does.ite ?_ ?_
        · exact Does.trans ‹_› State.cutStart_does rfl
        · assumption
  clear_value x17
  extract_lets +onlyGivenNames x25
  have h26 : Does 0x9499980ffc o x25 := by
    unfold x25
    refine Does.foldl ?_ fun r27 x28 h29 => ?_
    · assumption
    · refine Does.ite ?_ ?_
      · assumption
      · exact Does.trans ‹_› State.erhStart_does rfl
  clear_value x25
  extract_lets +onlyGivenNames x30
  have h31 : Does 0x9499980ffc o x30 := by
    unfold x30
    exact Does.modMem ‹_›
  clear_value x30
  extract_lets +onlyGivenNames x32
  have h33 : Does 0x9499980ffc o x32 := by
    unfold x32
    exact Does.modSec ‹_›
  clear_value x32
  extract_lets +onlyGivenNames x34 x35
  clear_value x34
  have h36 : Does 0x9499980ffc o x35 := by
    unfold x35
    exact Does.modBth ‹_›
  clear_value x35
  extract_lets +onlyGivenNames x37
  have h38 : Does 0x9499980ffc o x37 := by
    unfold x37
    refine Does.foldl ?_ fun r39 x40 h41 => ?_
    · assumption
    · extract_lets +onlyGivenNames x42
      have h43 : Does 0x9499980ffc o x42 := by
        unfold x42
        exact Does.modPwr ‹_›
      clear_value x42
      extract_lets +onlyGivenNames x44
      have h45 : Does 0x9499980ffc o x44 := by
        unfold x44
        refine Does.ite ?_ ?_
        · exact Does.trans ‹_› State.force_does rfl
        · assumption
      clear_value x44
      exact Does.trans ‹_› State.dieHeat_does rfl
  clear_value x37
  exact Does.modPwr (Does.trans (Does.trans ‹_› State.rails_does rfl) State.mapInit_does rfl)

theorem execFullBringUp_does {a1 o} : OutDoes 0x1f4f99f6ffc o (execFullBringUp a1 o) := by
  unfold execFullBringUp
  refine OutDoes.need ?_
  extract_lets +onlyGivenNames x1
  have h2 : Does 0x1f4f99f6ffc o x1 := by
    unfold x1
    refine Does.ite ?_ ?_
    · exact Does.trans Does.refl State.bringUpRom_does rfl
    · exact Does.refl
  clear_value x1
  refine OutDoes.next ?_
  refine Does.ite ?_ ?_
  · exact Does.trans ‹_› State.bringUpMap_does rfl
  · assumption

theorem State.moveRouter_does {o : State} {a b c : Nat} : Does 0x800010 o (o.moveRouter a b c) := by
  refine ⟨fun p hp => ?_, id, Fuses.Blown.rfl' _, fun _ h => h⟩
  cases p <;> first | exact absurd hp (by decide) | rfl

theorem execRepairSwitch_does {a1 o} : OutDoes 0xcd88f6bfc o (execRepairSwitch a1 o) := by
  unfold execRepairSwitch
  refine OutDoes.needSome fun a1 => ?_
  extract_lets +onlyGivenNames x2 x3
  clear_value x2
  have h4 : Does 0xcd88f6bfc o x3 := by
    unfold x3
    exact Does.trans Does.refl State.freezeDie_does rfl
  clear_value x3
  extract_lets +onlyGivenNames x5
  have h6 : Does 0xcd88f6bfc o x5 := by
    unfold x5
    refine Does.foldl ?_ fun r7 x8 h9 => ?_
    · assumption
    · exact Does.trans ‹_› State.l1Flush_does rfl
  clear_value x5
  extract_lets +onlyGivenNames x10
  have h11 : Does 0xcd88f6bfc o x10 := by
    unfold x10
    refine Does.ite ?_ ?_
    · exact Does.trans (Does.trans (Does.trans ‹_› State.cleanFar_does rfl) State.drainSlices_does rfl) State.flushHome_does rfl
    · assumption
  clear_value x10
  extract_lets +onlyGivenNames x12 x13
  clear_value x12
  have h14 : Does 0xcd88f6bfc o x13 := by
    unfold x13
    exact Does.trans ‹_› State.copyStack_does rfl
  clear_value x13
  extract_lets +onlyGivenNames x15
  have h16 : Does 0xcd88f6bfc o x15 := by
    unfold x15
    exact Does.trans ‹_› State.moveRouter_does rfl
  clear_value x15
  extract_lets +onlyGivenNames x17
  have h18 : Does 0xcd88f6bfc o x17 := by
    unfold x17
    exact Does.modPanel ‹_›
  clear_value x17
  extract_lets +onlyGivenNames x19
  have h20 : Does 0xcd88f6bfc o x19 := by
    unfold x19
    exact Does.modRel ‹_›
  clear_value x19
  extract_lets +onlyGivenNames x21
  have h22 : Does 0xcd88f6bfc o x21 := by
    unfold x21
    exact Does.trans (Does.trans (Does.trans ‹_› State.putRowMap_does rfl) State.mapUnits_does rfl) State.routeSwap_does rfl
  clear_value x21
  extract_lets +onlyGivenNames x23
  have h24 : Does 0xcd88f6bfc o x23 := by
    unfold x23
    exact Does.modBasin ‹_›
  clear_value x23
  extract_lets +onlyGivenNames x25
  have h26 : Does 0xcd88f6bfc o x25 := by
    unfold x25
    exact Does.trans ‹_› State.effSet_does rfl
  clear_value x25
  exact OutDoes.next (Does.trans ‹_› State.repairDone_does rfl)

theorem State.rowFree_does {o a2} : Does 0x80 o (State.rowFree o a2) := by
  unfold State.rowFree
  exact Does.modMem Does.refl

theorem State.ladeFailed_does {o a2} : Does 0x102b6000 o (State.ladeFailed o a2) := by
  unfold State.ladeFailed
  extract_lets +onlyGivenNames x1
  clear_value x1
  refine Does.ite ?_ ?_
  · exact Does.modBth Does.refl
  · extract_lets +onlyGivenNames x2
    have h3 : Does 0x102b6000 o x2 := by
      unfold x2
      exact Does.trans (Does.modBth Does.refl) State.cxlEvent_does rfl
    clear_value x2
    refine Does.foldl ?_ fun r4 x5 h6 => ?_
    · assumption
    · exact Does.trans ‹_› State.failCmd_does rfl

theorem State.laden_does {o a2} : Does 0x200000 o (State.laden o a2) := by
  unfold State.laden
  exact Does.modBth Does.refl

theorem State.ladePage_does {o a2 a3} : Does 0x70 o (State.ladePage o a2 a3) := by
  unfold State.ladePage
  extract_lets +onlyGivenNames x1
  have h2 : Does 0x70 o x1 := by
    unfold x1
    exact Does.trans Does.refl State.setPot_does rfl
  clear_value x1
  refine Does.foldl ?_ fun r3 x4 h5 => ?_
  · assumption
  · exact Does.modMem (Does.trans ‹_› State.dramPut_does rfl)

theorem Does.cargoSet {o s : State} {f : BerthSt → List Nat} (h : Does 0x498380ff8 o s) :
    Does 0x498380ff8 o (s.modBth fun b => { b with cargoPages := f b }) := Does.modBth h

theorem State.ladeMoved_does {o : State} {a2 a3 a4 : Nat} {a5 : List Nat} {a6 : List Byte} :
    Does 0x498380ff8 o (State.ladeMoved o a2 a3 a4 a5 a6) := by
  unfold State.ladeMoved
  refine Does.trans (Does.trans (Does.trans (Does.foldl ?_ fun r5 x6 h7 => ?_) State.zeroPage_does rfl) State.setPot_does rfl)
    State.laden_does rfl
  · exact Does.cargoSet (Does.trans Does.refl State.ladePage_does rfl)
  · exact Does.getD (OptDoes.after h7 State.mapCommit_does rfl) h7

theorem State.ladeWith_does {o a2 a3 a4 a5 a6} : Does 0x4983b6ff8 o (State.ladeWith o a2 a3 a4 a5 a6) := by
  unfold State.ladeWith
  refine Does.ite ?_ ?_
  · exact Does.trans Does.refl State.ladeFailed_does rfl
  · refine Does.ite ?_ ?_
    · exact Does.trans (Does.trans Does.refl State.ladePage_does rfl) State.laden_does rfl
    · split
      · exact Does.trans Does.refl State.ladeFailed_does rfl
      · exact Does.trans Does.refl State.ladeMoved_does rfl

theorem execCargoRelade_does {a1 a2 o} : OutDoes 0x4983b6ff8 o (execCargoRelade a1 a2 o) := by
  unfold execCargoRelade
  refine OutDoes.needSome fun a1 => ?_
  extract_lets +onlyGivenNames x2 x3 x4
  clear_value x2 x3 x4
  refine OutDoes.need (OutDoes.next ?_)
  refine Does.ite ?_ ?_
  · exact Does.refl
  · refine Does.ite ?_ ?_
    · refine Does.foldl ?_ fun r5 x6 h7 => ?_
      · exact Does.refl
      · exact Does.trans ‹_› State.mapSync_does rfl
    · split
      · exact Does.trans (Does.trans Does.refl State.dropPage_does rfl) State.ladeFailed_does rfl
      · exact Does.trans (Does.trans Does.refl State.dropPage_does rfl) State.ladeWith_does rfl

theorem State.rowRewrite_does {o a2 a3} : Does 0x20 o (State.rowRewrite o a2 a3).2 := by
  unfold State.rowRewrite
  refine foldl_keeps (fun r => Does 0x20 o (Prod.snd (r))) ?_ fun r1 x2 h3 => ?_
  · dsimp -zeta -iota only
    exact Does.refl
  · split
    rename_i x4 x5
    refine (fun h6 : Does 0x20 o x4 => ?_) (Does.named1 ?_ x5)
    rotate_left
    · exact Does.trans ‹_› State.sectRewrite_does rfl
    dsimp -zeta -iota only
    assumption

theorem State.rowRepairs_does {o s : State} {f : MemSt → List RowRepair} {b : Nat × Nat × Nat × Nat × Nat} (h : Does 0xa0 o s) :
    Does 0xa0 o (State.rowFree (s.modMem fun m => { m with repairs := f m }) b) :=
  Does.trans (Does.modMem h) State.rowFree_does rfl

theorem State.rowSpared_does {o : State} {a2 a3 a4 a5 a6 a7 : Nat} {a8 : Upset} :
    Does 0xa0 o (State.rowSpared o a2 a3 a4 a5 a6 a7 a8) :=
  State.rowRepairs_does (Does.trans Does.refl State.rowRewrite_does rfl)

theorem execTraceDrain_does {a1 o} : OutDoes 0x698180ff8 o (execTraceDrain a1 o) := by
  unfold execTraceDrain
  refine OutDoes.needSome fun a1 => ?_
  exact OutDoes.need (OutDoes.next (Does.trans Does.refl State.traceDrain_does rfl))

theorem State.rowSpareless_does {o a2 a3 a4 a5 a6 a7} : Does 0x498380ff8 o (State.rowSpareless o a2 a3 a4 a5 a6 a7) := by
  unfold State.rowSpareless
  extract_lets +onlyGivenNames x1
  clear_value x1
  refine Does.ite ?_ ?_
  · exact Does.trans (Does.trans (Does.trans (Does.trans Does.refl State.rowRewrite_does rfl) State.withdrawPage_does rfl)
        State.withdrawPage_does rfl) State.rowFree_does rfl
  · exact Does.trans (Does.trans Does.refl State.withdrawAsk_does rfl) State.withdrawAsk_does rfl

theorem execRowRetireDone_does {a1 a2 a3 a4 a5 a6 o} : OutDoes 0x498380ff8 o (execRowRetireDone a1 a2 a3 a4 a5 a6 o) := by
  unfold execRowRetireDone
  refine OutDoes.need (OutDoes.next ?_)
  split
  · exact Does.trans Does.refl State.rowSpared_does rfl
  · exact Does.trans Does.refl State.rowSpareless_does rfl

end Sys2Proof.Machine
end

