-- ==== Sys2Proof/Laws/DoesMailbox.lean ====
section
/-! SUPPORT. What each operation can do, once per operation (the mailboxes). Read `Does w o t` in Laws/Does.lean. -/

set_option Elab.async false

namespace Sys2Proof.Machine

theorem State.mbAccept_does {o a2} : Does 0x300c0000 o (State.mbAccept o a2) := by
  unfold State.mbAccept
  extract_lets +onlyGivenNames x1 x2 x3 x4
  clear_value x1 x2 x3
  have h5 : Does 0x300c0000 o x4 := by
    unfold x4
    exact Does.trans Does.refl State.modPage_does rfl
  clear_value x4
  extract_lets +onlyGivenNames x6
  clear_value x6
  refine Does.ite ?_ ?_
  · assumption
  · exact Does.trans ‹_› State.mbAnswer_does rfl

theorem execMailboxOwnerSet_does {a1 o} : OutDoes 0x301c0000 o (execMailboxOwnerSet a1 o) := by
  unfold execMailboxOwnerSet
  refine OutDoes.need (OutDoes.need ?_)
  extract_lets +onlyGivenNames x1 x2
  clear_value x1 x2
  refine OutDoes.next ?_
  refine Does.ite ?_ ?_
  · exact Does.trans Does.refl State.winRefused_does rfl
  · refine Does.ite ?_ ?_
    · exact Does.trans Does.refl State.mbWrite_does rfl
    · extract_lets +onlyGivenNames x3
      have h4 : Does 0x301c0000 o x3 := by
        unfold x3
        exact Does.trans Does.refl State.modPage_does rfl
      clear_value x3
      refine Does.ite ?_ ?_
      · exact Does.trans ‹_› State.mbAccept_does rfl
      · assumption

theorem State.mbFail_does {o a2 a3} : Does 0x300c0000 o (State.mbFail o a2 a3) := by
  unfold State.mbFail
  exact Does.trans Does.refl State.mbAnswer_does rfl

theorem State.mbOk_does {o a2 a3} : Does 0x300c0000 o (State.mbOk o a2 a3) := by
  unfold State.mbOk
  exact Does.trans Does.refl State.mbAnswer_does rfl

theorem State.onReq_does {w : Nat} {o s : State} {mb : Mbox} {c : Nat} {f : MbReq → State} (h : Does w o s)
    (hf : ∀ r, Does w o (f r)) (hm : 0x300c0000 &&& w = 0x300c0000) : OutDoes w o (State.onReq s mb c f) := by
  unfold State.onReq
  refine OutDoes.need (.need (.needSome fun r => .next (Does.ite (hf r) (Does.ite ?_ (Does.ite ?_ (hf r))))))
  · exact Does.trans h State.mbAnswer_does (Does.sub rfl hm)
  · exact Does.trans h State.mbAnswer_does (Does.sub rfl hm)

theorem State.bgBegin_does {o a2 a3 a4} : Does 0x700c0000 o (State.bgBegin o a2 a3 a4) := by
  unfold State.bgBegin
  refine Does.ite ?_ ?_
  · exact Does.trans Does.refl State.mbAnswer_does rfl
  · exact Does.trans Does.refl State.bgStart_does rfl

theorem execMailboxAcceptTimeout_does {a1 o} : OutDoes 0x1000000000 o (execMailboxAcceptTimeout a1 o) := by
  unfold execMailboxAcceptTimeout
  exact OutDoes.need (OutDoes.need (OutDoes.next (Does.modPwr Does.refl)))

theorem execBgStatus_does {a1 o} : OutDoes 0x300c0000 o (execBgStatus a1 o) := by
  unfold execBgStatus
  refine State.onReq_does ?_ (fun y1 => ?_) rfl
  · exact Does.refl
  · split
    · exact Does.trans Does.refl State.mbOk_does rfl
    · exact Does.trans Does.refl State.mbFail_does rfl

theorem State.holdStarts_does {o a2} : Does 0x80000 o (State.holdStarts o a2) := by
  unfold State.holdStarts
  exact Does.modLk Does.refl

theorem execSpreadSetAll_does {a1 o} : OutDoes 0x700c0000 o (execSpreadSetAll a1 o) := by
  unfold execSpreadSetAll
  refine State.onReq_does ?_ (fun y1 => ?_) rfl
  · exact Does.refl
  · extract_lets +onlyGivenNames x6 x7
    clear_value x6 x7
    refine Does.ite ?_ ?_
    · exact Does.trans Does.refl State.mbFail_does rfl
    · refine Does.ite ?_ ?_
      · exact Does.trans Does.refl State.mbFail_does rfl
      · exact Does.trans (Does.trans Does.refl State.holdStarts_does rfl) State.bgBegin_does rfl

theorem State.finSelect_does {o a2 a3} : Does 0x8000008010 o (State.finSelect o a2 a3) := by
  unfold State.finSelect
  exact Does.trans (Does.trans Does.refl State.setRbit_does rfl) State.finCommit_does rfl

theorem State.freeStarts_does {o a2} : Does 0x80000 o (State.freeStarts o a2) := by
  unfold State.freeStarts
  exact Does.modLk Does.refl

theorem State.assignWindow_does {o a2 a3} : Does 0x100000 o (State.assignWindow o a2 a3) := by
  unfold State.assignWindow
  exact Does.modBth Does.refl

theorem bgWindow_does {a1 o} : OutDoes 0x501c0810 o (bgWindow a1 o) := by
  unfold bgWindow
  refine OutDoes.need ?_
  extract_lets +onlyGivenNames x1 x2 x3 x4
  clear_value x1 x2 x3
  have h5 : Does 0x501c0810 o x4 := by
    unfold x4
    refine Does.foldl ?_ fun r6 x7 h8 => ?_
    · exact Does.refl
    · extract_lets +onlyGivenNames x9 x10
      clear_value x9
      have h11 : Does 0x501c0810 o x10 := by
        unfold x10
        exact Does.setReg (Does.setReg (Does.setReg ‹_›))
      clear_value x10
      refine Does.ite ?_ ?_
      · exact Does.trans (Does.modBasin ‹_›) State.setRbit_does rfl
      · exact Does.trans ‹_› State.winApply_does rfl
  clear_value x4
  exact OutDoes.next (Does.trans (Does.trans (Does.trans ‹_› State.assignWindow_does rfl) State.freeStarts_does rfl) State.bgEnd_does rfl)

theorem bgFin_does {a1 o} : OutDoes 0x500c0000 o (bgFin a1 o) := by
  unfold bgFin
  exact OutDoes.need (OutDoes.next (Does.trans (Does.modLk Does.refl) State.bgEnd_does rfl))

theorem bgSpread_does {a1 o} : OutDoes 0x1500c0010 o (bgSpread a1 o) := by
  unfold bgSpread
  refine OutDoes.need ?_
  extract_lets +onlyGivenNames x1 x2
  clear_value x1
  have h3 : Does 0x1500c0010 o x2 := by
    unfold x2
    refine Does.foldl ?_ fun r4 x5 h6 => ?_
    · exact Does.refl
    · extract_lets +onlyGivenNames x7
      clear_value x7
      refine Does.trans ?_ State.spreadCommitW_does rfl
      refine Does.foldl ?_ fun r8 x9 h10 => ?_
      · assumption
      · exact Does.setReg ‹_›
  clear_value x2
  exact OutDoes.next (Does.trans (Does.trans ‹_› State.freeStarts_does rfl) State.bgEnd_does rfl)

theorem State.setAllDrop_does {o a2} : Does 0x8000088010 o (State.setAllDrop o a2) := by
  unfold State.setAllDrop
  refine Does.ite ?_ ?_
  · refine Does.foldl ?_ fun r1 x2 h3 => ?_
    · exact Does.modLk Does.refl
    · extract_lets +onlyGivenNames x4 x5
      clear_value x4
      have h6 : Does 0x8000088010 o x5 := by
        unfold x5
        exact Does.trans (Does.modEng ‹_›) State.setRbit_does rfl
      clear_value x5
      refine Does.ite ?_ ?_
      · assumption
      · exact Does.trans ‹_› State.finSelect_does rfl
  · exact Does.trans Does.refl State.freeStarts_does rfl

theorem execSetAllTimeout_does {a1 o} : OutDoes 0x80500c8010 o (execSetAllTimeout a1 o) := by
  unfold execSetAllTimeout
  refine OutDoes.needSome fun a1 => ?_
  refine OutDoes.needSome fun a2 => ?_
  exact OutDoes.need (OutDoes.next (Does.trans (Does.trans Does.refl State.setAllDrop_does rfl) State.bgEnd_does rfl))

theorem execFinImageSetAll_does {a1 o} : OutDoes 0x85f80c8bf8 o (execFinImageSetAll a1 o) := by
  unfold execFinImageSetAll
  refine State.onReq_does ?_ (fun y1 => ?_) rfl
  · exact Does.refl
  · refine Does.ite ?_ ?_
    · exact Does.trans Does.refl State.mbFail_does rfl
    · split
      rename_i x6 x7
      refine (fun h8 : Does 0x85f80c8bf8 o x6 => ?_) (Does.named1 ?_ x7)
      rotate_left
      · exact Does.trans Does.refl State.paRead_does rfl
      refine Does.ite ?_ ?_
      · assumption
      · refine Does.ite ?_ ?_
        · exact Does.trans ‹_› State.mbFail_does rfl
        · extract_lets +onlyGivenNames x9 x10
          clear_value x9
          have h11 : Does 0x85f80c8bf8 o x10 := by
            unfold x10
            refine Does.foldl ?_ fun r12 x13 h14 => ?_
            · assumption
            · extract_lets +onlyGivenNames x15
              exact Does.trans (Does.trans ‹_› State.finWrite_does rfl) State.finSelect_does rfl
          clear_value x10
          exact Does.trans (Does.modLk ‹_›) State.bgBegin_does rfl

theorem execDeviceReset_does {a1 o} : OutDoes 0x19ffffffffe o (execDeviceReset a1 o) := by
  unfold execDeviceReset
  refine State.onReq_does ?_ (fun y1 => ?_) rfl
  · exact Does.refl
  · refine Does.ite ?_ ?_
    · exact Does.trans Does.refl State.mbFail_does rfl
    · refine Does.ite ?_ ?_
      · exact Does.trans Does.refl State.mbFail_does rfl
      · exact Does.trans (Does.modMbx Does.refl) State.bringUpStart_does rfl

theorem execWindowSetAll_does {a1 o} : OutDoes 0x700c0000 o (execWindowSetAll a1 o) := by
  unfold execWindowSetAll
  refine State.onReq_does ?_ (fun y1 => ?_) rfl
  · exact Does.refl
  · extract_lets +onlyGivenNames x6 x7 x8 x9 x10
    clear_value x6 x7 x8 x9 x10
    refine Does.ite ?_ ?_
    · exact Does.trans Does.refl State.mbFail_does rfl
    · refine Does.ite ?_ ?_
      · exact Does.trans Does.refl State.mbFail_does rfl
      · refine Does.ite ?_ ?_
        · exact Does.trans Does.refl State.mbFail_does rfl
        · exact Does.trans (Does.trans Does.refl State.holdStarts_does rfl) State.bgBegin_does rfl

theorem execIdentify_does {a1 o} : OutDoes 0x300c0000 o (execIdentify a1 o) := by
  unfold execIdentify
  refine State.onReq_does ?_ (fun y1 => ?_) rfl
  · exact Does.refl
  · exact Does.trans Does.refl State.mbOk_does rfl

theorem State.haltGo_does {o a2} : Does 0x5987c0ff8 o (State.haltGo o a2) := by
  unfold State.haltGo
  extract_lets +onlyGivenNames x1
  have h2 : Does 0x5987c0ff8 o x1 := by
    unfold x1
    refine Does.foldl ?_ fun r3 x4 h5 => ?_
    · exact Does.refl
    · split
      · refine Does.ite ?_ ?_
        · exact Does.trans ‹_› State.endPassage_does rfl
        · refine Does.ite ?_ ?_
          · exact Does.trans (Does.trans ‹_› State.endPassage_does rfl) State.leakCheck_does rfl
          · assumption
      · refine Does.ite ?_ ?_
        · extract_lets +onlyGivenNames x6
          have h7 : Does 0x5987c0ff8 o x6 := by
            unfold x6
            exact Does.modLk ‹_›
          clear_value x6
          exact Does.trans ‹_› State.complete_does rfl
        · assumption
  clear_value x1
  exact Does.trans ‹_› State.pump_does rfl

theorem State.berthQuiet_does {o a2} : Does 0x5987c0ff8 o (State.berthQuiet o a2).2 := by
  unfold State.berthQuiet
  extract_lets +onlyGivenNames x1
  have h2 : Does 0x5987c0ff8 o x1 := by
    unfold x1
    refine Does.foldl ?_ fun r3 x4 h5 => ?_
    · exact Does.refl
    · exact Does.trans ‹_› State.haltGo_does rfl
  clear_value x1
  dsimp -zeta -iota only
  assumption

theorem foldlM_does {γ : Type} {w : Nat} {o : State} {l : List γ} {f : List Nat × State → γ → Option (List Nat × State)}
    {b : List Nat × State} (hb : Does w o b.2) (hf : ∀ r x, Does w o r.2 → OptDoes w o (fun r => Prod.snd r) (f r x)) :
    OptDoes w o (fun r => Prod.snd r) (l.foldlM f b) := by
  induction l generalizing b with
  | nil => exact OptDoes.some hb
  | cons x t ih =>
    intro r hr
    rw [List.foldlM_cons] at hr
    obtain ⟨a, ha, e⟩ := Option.bind_eq_some_iff.1 hr
    exact ih (hf b x hb a ha) r e

theorem State.spillTake_does {o : State} {b n : Nat} {ds : List Nat} :
    OptDoes 0x40 o (fun r => Prod.snd r) (State.spillTake o b n ds) := by
  unfold State.spillTake
  exact foldlM_does Does.refl fun r x h => OptDoes.mapTo (OptDoes.after h State.takeDie_does rfl) fun _ k => k

theorem State.pmcGive_does {o a2 a3} : Does 0x10 o (State.pmcGive o a2 a3) := by
  unfold State.pmcGive
  refine Does.foldl ?_ fun r1 x2 h3 => ?_
  · exact Does.refl
  · exact Does.setReg (Does.setReg ‹_›)

theorem State.handlerStart_does {o a2 a3} : Does 0x110000 o (State.handlerStart o a2 a3) := by
  unfold State.handlerStart
  extract_lets +onlyGivenNames x1 x2 x3
  clear_value x1 x2 x3
  exact Does.trans (Does.modThr Does.refl) State.modBerth_does rfl

theorem State.berthBuild_does {o a2 a3 a4} : Does 0x84b8190ff8 o (State.berthBuild o a2 a3 a4).2 := by
  unfold State.berthBuild
  split
  · dsimp -zeta -iota only
    exact Does.refl
  · rename_i x1 x2
    refine (fun h3 : Does 0x84b8190ff8 o x1 => ?_) (Does.opt1 ?_ x2)
    rotate_left
    · exact OptDoes.after Does.refl State.spillTake_does rfl
    extract_lets +onlyGivenNames x4
    have h5 : Does 0x84b8190ff8 o x4 := by
      unfold x4
      exact Does.modBth ‹_›
    clear_value x4
    split
    · dsimp -zeta -iota only
      exact Does.refl
    · rename_i x6 x7
      refine (fun h8 : Does 0x84b8190ff8 o x6 => ?_) (Does.opt0 ?_ x7)
      rotate_left
      · unfold Option.bind
        split
        · exact OptDoes.none
        · rename_i x9 x10
          refine (fun h11 : Does 0x84b8190ff8 o x9 => ?_) (Does.opt0 ?_ x10)
          rotate_left
          · exact OptDoes.after ‹_› State.mapBuild_does rfl
          exact OptDoes.after ‹_› State.mapBuild_does rfl
      extract_lets +onlyGivenNames x12
      have h13 : Does 0x84b8190ff8 o x12 := by
        unfold x12
        refine Does.foldl ?_ fun r14 x15 h16 => ?_
        · assumption
        · exact Does.trans ‹_› State.pmcGive_does rfl
      clear_value x12
      extract_lets +onlyGivenNames x17
      have h18 : Does 0x84b8190ff8 o x17 := by
        unfold x17
        exact Does.modSec ‹_›
      clear_value x17
      extract_lets +onlyGivenNames x19
      have h20 : Does 0x84b8190ff8 o x19 := by
        unfold x19
        exact Does.modMbx ‹_›
      clear_value x19
      split
      · dsimp -zeta -iota only
        assumption
      · split
        · dsimp -zeta -iota only
          exact Does.refl
        · dsimp -zeta -iota only
          exact Does.trans ‹_› State.handlerStart_does rfl

theorem execAccountRead_does {a1 o} : OutDoes 0x300c0000 o (execAccountRead a1 o) := by
  unfold execAccountRead
  refine State.onReq_does ?_ (fun y1 => ?_) rfl
  · exact Does.refl
  · extract_lets +onlyGivenNames x6
    clear_value x6
    refine Does.ite ?_ ?_
    · extract_lets +onlyGivenNames x7 x8
      clear_value x7 x8
      exact Does.trans Does.refl State.mbOk_does rfl
    · split
      · exact Does.trans Does.refl State.mbFail_does rfl
      · exact Does.trans Does.refl State.mbOk_does rfl

theorem State.ctxFree_does {o a2} : Does 0x1c0000 o (State.ctxFree o a2) := by
  unfold State.ctxFree
  split
  · exact Does.refl
  · extract_lets +onlyGivenNames x1
    have h2 : Does 0x1c0000 o x1 := by
      unfold x1
      exact Does.trans Does.refl State.modBerth_does rfl
    clear_value x1
    exact Does.modLk ‹_›

theorem execMoveListSet_does {a1 o} : OutDoes 0x4b81c0bf8 o (execMoveListSet a1 o) := by
  unfold execMoveListSet
  refine State.onReq_does ?_ (fun y1 => ?_) rfl
  · exact Does.refl
  · extract_lets +onlyGivenNames x6
    clear_value x6
    refine Does.ite ?_ ?_
    · exact Does.trans Does.refl State.mbFail_does rfl
    · split
      rename_i x7 x8
      refine (fun h9 : Does 0x4b81c0bf8 o x7 => ?_) (Does.named1 ?_ x8)
      rotate_left
      · exact Does.trans Does.refl State.vaRead_does rfl
      extract_lets +onlyGivenNames x10
      clear_value x10
      refine Does.ite ?_ ?_
      · assumption
      · refine Does.ite ?_ ?_
        · exact Does.trans ‹_› State.mbFail_does rfl
        · refine Does.ite ?_ ?_
          · exact Does.trans ‹_› State.mbFail_does rfl
          · exact Does.trans (Does.trans ‹_› State.modBerth_does rfl) State.mbOk_does rfl

theorem State.bgsEnd_does {o a2 a3} : Does 0x80500c8010 o (State.bgsEnd o a2 a3) := by
  unfold State.bgsEnd
  refine Does.foldl ?_ fun r1 x2 h3 => ?_
  · exact Does.refl
  · extract_lets +onlyGivenNames x4
    have h5 : Does 0x80500c8010 o x4 := by
      unfold x4
      refine Does.ite ?_ ?_
      · exact Does.trans ‹_› State.setAllDrop_does rfl
      · assumption
    clear_value x4
    exact Does.trans ‹_› State.bgEnd_does rfl

theorem State.haltBegin_does {o a2} : Does 0x4985f6ff8 o (State.haltBegin o a2) := by
  unfold State.haltBegin
  split
  · exact Does.refl
  · extract_lets +onlyGivenNames x1
    have h2 : Does 0x4985f6ff8 o x1 := by
      unfold x1
      exact Does.trans Does.refl State.watchDrop_does rfl
    clear_value x1
    extract_lets +onlyGivenNames x3
    have h4 : Does 0x4985f6ff8 o x3 := by
      unfold x3
      exact Does.trans (Does.trans ‹_› State.modCtx_does rfl) State.publish_does rfl
    clear_value x3
    extract_lets +onlyGivenNames x5 x6 x7 x8
    clear_value x5 x6 x7
    have h9 : Does 0x4985f6ff8 o x8 := by
      unfold x8
      exact Does.modBth ‹_›
    clear_value x8
    extract_lets +onlyGivenNames x10
    have h11 : Does 0x4985f6ff8 o x10 := by
      unfold x10
      exact Does.modLk ‹_›
    clear_value x10
    extract_lets +onlyGivenNames x12
    have h13 : Does 0x4985f6ff8 o x12 := by
      unfold x12
      refine Does.foldl ?_ fun r14 x15 h16 => ?_
      · assumption
      · refine Does.ite ?_ ?_
        · exact Does.trans ‹_› State.modPsg_does rfl
        · assumption
    clear_value x12
    refine Does.foldl ?_ fun r17 x18 h19 => ?_
    · assumption
    · refine Does.ite ?_ ?_
      · exact Does.trans ‹_› State.failCmd_does rfl
      · assumption

theorem State.berthHalt_does {o a2 a3 a4} : Does 0x84f85feff8 o (State.berthHalt o a2 a3 a4) := by
  unfold State.berthHalt
  extract_lets +onlyGivenNames x1 x2
  clear_value x1 x2
  refine Does.ite ?_ ?_
  · exact Does.trans Does.refl State.mbFail_does rfl
  · refine Does.ite ?_ ?_
    · exact Does.trans Does.refl State.mbFail_does rfl
    · refine Does.ite ?_ ?_
      · exact Does.refl
      · refine Does.ite ?_ ?_
        · exact Does.trans Does.refl State.mbFail_does rfl
        · extract_lets +onlyGivenNames x3
          have h4 : Does 0x84f85feff8 o x3 := by
            unfold x3
            exact Does.trans (Does.trans Does.refl State.bgsEnd_does rfl) State.modBerth_does rfl
          clear_value x3
          extract_lets +onlyGivenNames x5
          have h6 : Does 0x84f85feff8 o x5 := by
            unfold x5
            refine Does.foldl ?_ fun r7 x8 h9 => ?_
            · assumption
            · exact Does.trans ‹_› State.haltBegin_does rfl
          clear_value x5
          exact Does.trans ‹_› State.bgBegin_does rfl

theorem State.haltEnd_does {o a2} : Does 0x5985c0ff8 o (State.haltEnd o a2) := by
  unfold State.haltEnd
  exact Does.trans (Does.trans (Does.trans Does.refl State.modCtx_does rfl) State.publish_does rfl) State.ctxRead_does rfl

theorem State.ctxHalt_does {o a2 a3 a4} : Does 0x5b87f6ff8 o (State.ctxHalt o a2 a3 a4) := by
  unfold State.ctxHalt
  extract_lets +onlyGivenNames x1 x2
  clear_value x1 x2
  refine Does.ite ?_ ?_
  · exact Does.trans Does.refl State.mbFail_does rfl
  · extract_lets +onlyGivenNames x3
    have h4 : Does 0x5b87f6ff8 o x3 := by
      unfold x3
      refine Does.ite ?_ ?_
      · exact Does.refl
      · exact Does.trans (Does.trans Does.refl State.haltBegin_does rfl) State.modPage_does rfl
    clear_value x3
    extract_lets +onlyGivenNames x5
    have h6 : Does 0x5b87f6ff8 o x5 := by
      unfold x5
      exact Does.trans ‹_› State.haltGo_does rfl
    clear_value x5
    refine Does.ite ?_ ?_
    · assumption
    · refine Does.trans ?_ State.mbOk_does rfl
      refine Does.ite ?_ ?_
      · exact Does.trans ‹_› State.ctxFree_does rfl
      · exact Does.trans ‹_› State.haltEnd_does rfl

theorem execCtxReset_does {a1 o} : OutDoes 0x5b87f6ff8 o (execCtxReset a1 o) := by
  unfold execCtxReset
  refine State.onReq_does ?_ (fun y1 => ?_) rfl
  · exact Does.refl
  · exact Does.trans Does.refl State.ctxHalt_does rfl

theorem execBerthDestroy_does {a1 o} : OutDoes 0x84f85feff8 o (execBerthDestroy a1 o) := by
  unfold execBerthDestroy
  refine State.onReq_does ?_ (fun y1 => ?_) rfl
  · exact Does.refl
  · exact Does.trans Does.refl State.berthHalt_does rfl

theorem State.holdsZero_does {o a2 a3} : Does 0x1000 o (State.holdsZero o a2 a3) := by
  unfold State.holdsZero
  refine Does.foldl ?_ fun r1 x2 h3 => ?_
  · exact Does.refl
  · split
    · exact Does.trans ‹_› State.holdZero_does rfl
    · assumption

theorem State.berthClear_does {o a2} : Does 0x101000 o (State.berthClear o a2) := by
  unfold State.berthClear
  split
  · exact Does.refl
  · extract_lets +onlyGivenNames x1
    have h2 : Does 0x101000 o x1 := by
      unfold x1
      exact Does.trans Does.refl State.modBerth_does rfl
    clear_value x1
    refine Does.foldl ?_ fun r3 x4 h5 => ?_
    · assumption
    · exact Does.trans ‹_› State.holdsZero_does rfl

theorem State.berthRemove_does {o a2} : Does 0x80231d0010 o (State.berthRemove o a2) := by
  unfold State.berthRemove
  split
  · exact Does.refl
  · extract_lets +onlyGivenNames x1
    have h2 : Does 0x80231d0010 o x1 := by
      unfold x1
      refine Does.foldl ?_ fun r3 x4 h5 => ?_
      · exact Does.refl
      · exact Does.trans ‹_› State.ctxFree_does rfl
    clear_value x1
    extract_lets +onlyGivenNames x6
    have h7 : Does 0x80231d0010 o x6 := by
      unfold x6
      refine Does.foldl ?_ fun r8 x9 h10 => ?_
      · assumption
      · exact Does.trans ‹_› State.pmcGive_does rfl
    clear_value x6
    extract_lets +onlyGivenNames x11
    have h12 : Does 0x80231d0010 o x11 := by
      unfold x11
      exact Does.modThr ‹_›
    clear_value x11
    extract_lets +onlyGivenNames x13
    have h14 : Does 0x80231d0010 o x13 := by
      unfold x13
      exact Does.modSec ‹_›
    clear_value x13
    extract_lets +onlyGivenNames x15
    have h16 : Does 0x80231d0010 o x15 := by
      unfold x15
      exact Does.modMbx ‹_›
    clear_value x15
    extract_lets +onlyGivenNames x17
    have h18 : Does 0x80231d0010 o x17 := by
      unfold x17
      exact Does.modErh ‹_›
    clear_value x17
    extract_lets +onlyGivenNames x19
    have h20 : Does 0x80231d0010 o x19 := by
      unfold x19
      exact Does.modBth ‹_›
    clear_value x19
    exact Does.trans (Does.trans (Does.setReg (Does.setReg ‹_›)) State.tlbDrop_does rfl) State.tlbDrop_does rfl

theorem bgBerthDestroy_does {a1 o} : OutDoes 0x85fb7d1ff8 o (bgBerthDestroy a1 o) := by
  unfold bgBerthDestroy
  extract_lets +onlyGivenNames x1
  clear_value x1
  split
  · rename_i x2 x3
    refine (fun h4 : Does 0x85fb7d1ff8 o x2 => ?_) (Does.named1 ?_ x3)
    rotate_left
    · exact Does.trans Does.refl State.berthQuiet_does rfl
    exact OutDoes.next ‹_›
  · rename_i x5 x6
    refine (fun h7 : Does 0x85fb7d1ff8 o x5 => ?_) (Does.named1 ?_ x6)
    rotate_left
    · exact Does.trans Does.refl State.berthQuiet_does rfl
    split
    · rename_i x8 x9
      refine (fun h10 : Does 0x85fb7d1ff8 o x8 => ?_) (Does.named1 ?_ x9)
      rotate_left
      · exact Does.trans (Does.trans ‹_› State.berthClear_does rfl) State.releasePages_does rfl
      exact OutDoes.next ‹_›
    · rename_i x11 x12
      refine (fun h13 : Does 0x85fb7d1ff8 o x11 => ?_) (Does.named1 ?_ x12)
      rotate_left
      · exact Does.trans (Does.trans ‹_› State.berthClear_does rfl) State.releasePages_does rfl
      exact OutDoes.next (Does.trans (Does.trans ‹_› State.berthRemove_does rfl) State.bgEnd_does rfl)

theorem execBerthCreate_does {a1 o} : OutDoes 0x84b81d0ff8 o (execBerthCreate a1 o) := by
  unfold execBerthCreate
  refine State.onReq_does ?_ (fun y1 => ?_) rfl
  · exact Does.refl
  · extract_lets +onlyGivenNames x6 x7 x8 x9 x10 x11
    clear_value x6 x8 x9 x10
    refine Does.ite ?_ ?_
    · exact Does.trans Does.refl State.mbFail_does rfl
    · refine Does.ite ?_ ?_
      · exact Does.trans Does.refl State.mbFail_does rfl
      · refine Does.ite ?_ ?_
        · exact Does.trans Does.refl State.mbFail_does rfl
        · refine Does.ite ?_ ?_
          · exact Does.trans Does.refl State.mbFail_does rfl
          · refine Does.ite ?_ ?_
            · exact Does.trans Does.refl State.mbFail_does rfl
            · split
              rename_i x12 x13
              refine (fun h14 : Does 0x84b81d0ff8 o x12 => ?_) (Does.named1 ?_ x13)
              rotate_left
              · exact Does.trans Does.refl State.berthBuild_does rfl
              refine Does.ite ?_ ?_
              · exact Does.trans ‹_› State.mbOk_does rfl
              · exact Does.trans ‹_› State.mbFail_does rfl

theorem execBerthQuery_does {a1 o} : OutDoes 0x300c0000 o (execBerthQuery a1 o) := by
  unfold execBerthQuery
  refine State.onReq_does ?_ (fun y1 => ?_) rfl
  · exact Does.refl
  · extract_lets +onlyGivenNames x6
    clear_value x6
    split
    · exact Does.trans Does.refl State.mbOk_does rfl
    · exact Does.trans Does.refl State.mbOk_does rfl

theorem execFaultSetup_does {a1 o} : OutDoes 0x301d0000 o (execFaultSetup a1 o) := by
  unfold execFaultSetup
  refine State.onReq_does ?_ (fun y1 => ?_) rfl
  · exact Does.refl
  · extract_lets +onlyGivenNames x6
    clear_value x6
    split
    · exact Does.trans Does.refl State.mbFail_does rfl
    · extract_lets +onlyGivenNames x7
      clear_value x7
      refine Does.ite ?_ ?_
      · exact Does.trans Does.refl State.mbFail_does rfl
      · refine Does.ite ?_ ?_
        · exact Does.trans Does.refl State.mbFail_does rfl
        · extract_lets +onlyGivenNames x8 x9
          clear_value x8
          have h10 : Does 0x301d0000 o x9 := by
            unfold x9
            exact Does.trans Does.refl State.modBerth_does rfl
          clear_value x9
          extract_lets +onlyGivenNames x11
          have h12 : Does 0x301d0000 o x11 := by
            unfold x11
            split
            · exact Does.trans ‹_› State.modThread_does rfl
            · assumption
          clear_value x11
          exact Does.trans ‹_› State.mbOk_does rfl

theorem execBerthReset_does {a1 o} : OutDoes 0x84f85feff8 o (execBerthReset a1 o) := by
  unfold execBerthReset
  refine State.onReq_does ?_ (fun y1 => ?_) rfl
  · exact Does.refl
  · exact Does.trans Does.refl State.berthHalt_does rfl

theorem execBerthLimits_does {a1 o} : OutDoes 0x301c0000 o (execBerthLimits a1 o) := by
  unfold execBerthLimits
  refine State.onReq_does ?_ (fun y1 => ?_) rfl
  · exact Does.refl
  · extract_lets +onlyGivenNames x6
    clear_value x6
    split
    · exact Does.trans Does.refl State.mbFail_does rfl
    · refine Does.ite ?_ ?_
      · exact Does.trans Does.refl State.mbFail_does rfl
      · exact Does.trans (Does.trans Does.refl State.modBerth_does rfl) State.mbOk_does rfl

theorem execCtxDestroy_does {a1 o} : OutDoes 0x5b87f6ff8 o (execCtxDestroy a1 o) := by
  unfold execCtxDestroy
  refine State.onReq_does ?_ (fun y1 => ?_) rfl
  · exact Does.refl
  · exact Does.trans Does.refl State.ctxHalt_does rfl

theorem bgBerthReset_does {a1 o} : OutDoes 0x5d87c1ff8 o (bgBerthReset a1 o) := by
  unfold bgBerthReset
  extract_lets +onlyGivenNames x1
  clear_value x1
  split
  · rename_i x2 x3
    refine (fun h4 : Does 0x5d87c1ff8 o x2 => ?_) (Does.named1 ?_ x3)
    rotate_left
    · exact Does.trans Does.refl State.berthQuiet_does rfl
    exact OutDoes.next ‹_›
  · rename_i x5 x6
    refine (fun h7 : Does 0x5d87c1ff8 o x5 => ?_) (Does.named1 ?_ x6)
    rotate_left
    · exact Does.trans Does.refl State.berthQuiet_does rfl
    extract_lets +onlyGivenNames x8
    have h9 : Does 0x5d87c1ff8 o x8 := by
      unfold x8
      exact Does.trans (Does.trans ‹_› State.berthClear_does rfl) State.modBerth_does rfl
    clear_value x8
    refine OutDoes.next (Does.trans ?_ State.bgEnd_does rfl)
    refine Does.foldl ?_ fun r10 x11 h12 => ?_
    · assumption
    · exact Does.trans ‹_› State.haltEnd_does rfl

theorem State.ctxMake_does {o a2 a3} : Does 0x5985c0ff8 o (State.ctxMake o a2 a3) := by
  unfold State.ctxMake
  extract_lets +onlyGivenNames x1
  have h2 : Does 0x5985c0ff8 o x1 := by
    unfold x1
    exact Does.modLk Does.refl
  clear_value x1
  extract_lets +onlyGivenNames x3
  have h4 : Does 0x5985c0ff8 o x3 := by
    unfold x3
    exact Does.trans ‹_› State.modBerth_does rfl
  clear_value x3
  exact Does.trans (Does.trans ‹_› State.publish_does rfl) State.ctxRead_does rfl

theorem execCtxCreate_does {a1 o} : OutDoes 0x5b85c0ff8 o (execCtxCreate a1 o) := by
  unfold execCtxCreate
  refine State.onReq_does ?_ (fun y1 => ?_) rfl
  · exact Does.refl
  · extract_lets +onlyGivenNames x6 x7 x8 x9 x10
    clear_value x6 x7 x8 x9 x10
    split
    · exact Does.trans Does.refl State.mbFail_does rfl
    · refine Does.ite ?_ ?_
      · exact Does.trans Does.refl State.mbFail_does rfl
      · refine Does.ite ?_ ?_
        · exact Does.trans Does.refl State.mbFail_does rfl
        · refine Does.ite ?_ ?_
          · exact Does.trans Does.refl State.mbFail_does rfl
          · refine Does.ite ?_ ?_
            · exact Does.trans Does.refl State.mbFail_does rfl
            · split
              · split
                rename_i x11 x12
                refine (fun h13 : Does 0x5b85c0ff8 o x11 => ?_) (Does.named1 ?_ x12)
                rotate_left
                · exact Does.trans Does.refl State.vaRead_does rfl
                refine Does.ite ?_ ?_
                · assumption
                · refine Does.ite ?_ ?_
                  · exact Does.trans ‹_› State.mbFail_does rfl
                  · exact Does.trans (Does.trans ‹_› State.ctxMake_does rfl) State.mbOk_does rfl
              · exact Does.trans Does.refl State.mbFail_does rfl

theorem State.moorTake_does {o a2 a3 a4 a5} : OptDoes 0x100040 o (fun r => r) (State.moorTake o a2 a3 a4 a5) := by
  unfold State.moorTake
  extract_lets +onlyGivenNames x1 x2
  clear_value x1 x2
  refine OptDoes.ite ?_ ?_
  · exact OptDoes.none
  · refine OptDoes.mapTo (pr' := fun r => Prod.snd (Prod.snd (r))) ?_ fun a3 h4 => ?_
    · exact OptDoes.after Does.refl State.takeRound_does rfl
    · extract_lets +onlyGivenNames x5
      clear_value x5
      exact Does.trans ‹_› State.modBerth_does rfl

theorem execMoorPoolCreate_does {a1 o} : OutDoes 0x301c0040 o (execMoorPoolCreate a1 o) := by
  unfold execMoorPoolCreate
  refine State.onReq_does ?_ (fun y1 => ?_) rfl
  · exact Does.refl
  · extract_lets +onlyGivenNames x6 x7 x8
    clear_value x6 x7 x8
    split
    · exact Does.trans Does.refl State.mbFail_does rfl
    · refine Does.ite ?_ ?_
      · exact Does.trans Does.refl State.mbFail_does rfl
      · refine Does.ite ?_ ?_
        · exact Does.trans Does.refl State.mbFail_does rfl
        · refine Does.ite ?_ ?_
          · exact Does.trans Does.refl State.mbFail_does rfl
          · extract_lets +onlyGivenNames x9
            clear_value x9
            split
            · exact Does.trans Does.refl State.mbFail_does rfl
            · rename_i x10 x11
              refine (fun h12 : Does 0x301c0040 o x10 => ?_) (Does.opt0 ?_ x11)
              rotate_left
              · exact OptDoes.after Does.refl State.moorTake_does rfl
              exact Does.trans ‹_› State.mbOk_does rfl

theorem State.mapTurn_does {w : Nat} {o s : State} {mb : Mbox} {b : Nat} {c : State → Status × State} {f : State → State}
    (h : Does w o s) (hc : Does w o (c s).2) (hf : ∀ r, Does w o r → Does w o (f r)) (hm : 0x4b81c0ff8 &&& w = 0x4b81c0ff8) :
    Does w o (State.mapTurn s mb b c f) := by
  unfold State.mapTurn
  extract_lets go
  have hg : ∀ r, Does w o r → Does w o (go r) := by
    intro r hr
    unfold go
    extract_lets s1
    have h1 : Does w o s1 := Does.trans hr State.mapSync_does (Does.sub rfl hm)
    exact Does.ite (hf _ h1) h1
  refine Does.ite (hg _ h) (Does.ite (Does.trans h State.mapSync_does (Does.sub rfl hm)) ?_)
  split
  rename_i st s1 e
  have h1 : Does w o s1 := .named1 hc e
  refine Does.ite (Does.trans h State.mbFail_does (Does.sub rfl hm)) ?_
  split
  · exact Does.trans h State.mbFail_does (Does.sub rfl hm)
  · rename_i s2 e2
    have h2 : Does w o s2 := .opt0 (OptDoes.after h1 State.mapCommit_does (Does.sub rfl hm)) e2
    exact hg _ (Does.trans h2 State.modPage_does (Does.sub rfl hm))

theorem State.onRange_does {w : Nat} {o s : State} {mb : Mbox} {r : MbReq} {k : Nat → Nat → Nat → List (Nat × Nat) → State}
    (h : Does w o s) (hk : ∀ a b c d, Does w o (k a b c d)) (hm : 0x300c0000 &&& w = 0x300c0000) : Does w o (State.onRange s mb r k) := by
  have e (st : Status) : Does w o (s.mbFail mb st) := Does.trans h State.mbFail_does (Does.sub rfl hm)
  unfold State.onRange
  extract_lets
  exact Does.ite (e _) (Does.ite (e _) (Does.ite (e _) (hk _ _ _ _)))

theorem State.pagesMark_does {a1 a2 a3 a4 a5 o} : Does 0x100040 o (State.pagesMark a1 a2 a3 a4 a5 o).2 := by
  unfold State.pagesMark
  extract_lets +onlyGivenNames x1
  have h2 : Does 0x100040 o x1 := by
    unfold x1
    refine Does.foldl ?_ fun r3 x4 h5 => ?_
    · exact Does.refl
    · exact Does.trans ‹_› State.setPot_does rfl
  clear_value x1
  dsimp -zeta -iota only
  exact Does.trans ‹_› State.modBerth_does rfl

theorem execPagesAttr_does {a1 o} : OutDoes 0x4b81c0ff8 o (execPagesAttr a1 o) := by
  unfold execPagesAttr
  refine State.onReq_does ?_ (fun y1 => ?_) rfl
  · exact Does.refl
  · extract_lets +onlyGivenNames x6
    refine Does.ite ?_ ?_
    · refine State.mapTurn_does ?_ ?_ (fun y7 y8 => ?_) rfl
      · exact Does.refl
      · dsimp -zeta -iota only
        exact Does.refl
      · unfold x6
        exact Does.trans ‹_› State.mbOk_does rfl
    · refine State.onRange_does ?_ (fun y12 y13 y14 y15 => ?_) rfl
      · exact Does.refl
      · refine State.mapTurn_does ?_ ?_ (fun y17 y18 => ?_) rfl
        · exact Does.refl
        · exact Does.trans Does.refl State.pagesMark_does rfl
        · unfold x6
          exact Does.trans ‹_› State.mbOk_does rfl

theorem State.regionTurn_does {o a2 a3 a4 a5} : Does 0x4b81c0ff8 o (State.regionTurn o a2 a3 a4 a5) := by
  unfold State.regionTurn
  extract_lets +onlyGivenNames x1
  refine State.mapTurn_does ?_ ?_ (fun y2 y3 => ?_) rfl
  · exact Does.refl
  · extract_lets +onlyGivenNames x7
    clear_value x7
    dsimp -zeta -iota only
    exact Does.trans Does.refl State.modBerth_does rfl
  · unfold x1
    exact Does.trans ‹_› State.mbOk_does rfl

theorem execPeerRegionSet_does {a1 o} : OutDoes 0x4b81c0ff8 o (execPeerRegionSet a1 o) := by
  unfold execPeerRegionSet
  refine State.onReq_does ?_ (fun y1 => ?_) rfl
  · exact Does.refl
  · extract_lets +onlyGivenNames x6 x7
    clear_value x6 x7
    refine Does.ite ?_ ?_
    · exact Does.trans Does.refl State.regionTurn_does rfl
    · refine Does.ite ?_ ?_
      · exact Does.trans Does.refl State.mbFail_does rfl
      · refine Does.ite ?_ ?_
        · exact Does.trans Does.refl State.mbFail_does rfl
        · exact Does.trans Does.refl State.regionTurn_does rfl

theorem execHostRegionSet_does {a1 o} : OutDoes 0x4b81c0ff8 o (execHostRegionSet a1 o) := by
  unfold execHostRegionSet
  refine State.onReq_does ?_ (fun y1 => ?_) rfl
  · exact Does.refl
  · extract_lets +onlyGivenNames x6 x7 x8
    clear_value x6 x7 x8
    refine Does.ite ?_ ?_
    · exact Does.trans Does.refl State.regionTurn_does rfl
    · split
      · exact Does.trans Does.refl State.mbFail_does rfl
      · refine Does.ite ?_ ?_
        · exact Does.trans Does.refl State.mbFail_does rfl
        · refine Does.ite ?_ ?_
          · exact Does.trans Does.refl State.mbFail_does rfl
          · refine Does.ite ?_ ?_
            · exact Does.trans Does.refl State.mbFail_does rfl
            · refine Does.ite ?_ ?_
              · exact Does.trans Does.refl State.mbFail_does rfl
              · exact Does.trans Does.refl State.regionTurn_does rfl

theorem execMoorPoolRebuild_does {a1 o} : OutDoes 0x301c0000 o (execMoorPoolRebuild a1 o) := by
  unfold execMoorPoolRebuild
  refine State.onReq_does ?_ (fun y1 => ?_) rfl
  · exact Does.refl
  · extract_lets +onlyGivenNames x6
    clear_value x6
    split
    · exact Does.trans Does.refl State.mbFail_does rfl
    · refine Does.ite ?_ ?_
      · exact Does.trans Does.refl State.mbFail_does rfl
      · extract_lets +onlyGivenNames x7
        have h8 : Does 0x301c0000 o x7 := by
          unfold x7
          exact Does.trans Does.refl State.modBerth_does rfl
        clear_value x7
        exact Does.trans ‹_› State.mbOk_does rfl

theorem State.pagesTake_does {a1 a2 o} : Does 0x100040 o (State.pagesTake a1 a2 o).2 := by
  unfold State.pagesTake
  extract_lets +onlyGivenNames x1 x2 x3 x4 x5 x6
  clear_value x1 x2 x3 x4 x5
  have h7 : OptDoes 0x100040 o (fun r => Prod.snd (Prod.snd (r))) x6 := by
    unfold x6
    refine OptDoes.ite ?_ ?_
    · exact OptDoes.after Does.refl State.takeRound_does rfl
    · refine OptDoes.mapTo (pr' := fun r => Prod.snd (r)) ?_ fun a8 h9 => ?_
      · exact OptDoes.after Does.refl State.takeDie_does rfl
      · dsimp -zeta -iota only
        assumption
  clear_value x6
  split
  · dsimp -zeta -iota only
    exact Does.refl
  · dsimp -zeta -iota only
    refine Does.trans ?_ State.modBerth_does rfl
    exact h7 _ rfl

theorem execPagesAlloc_does {a1 o} : OutDoes 0x4b81c0ff8 o (execPagesAlloc a1 o) := by
  unfold execPagesAlloc
  refine State.onReq_does ?_ (fun y1 => ?_) rfl
  · exact Does.refl
  · extract_lets +onlyGivenNames x6 x7 x8 x9 x10 x11 x12
    clear_value x6 x7 x8 x9 x10 x11
    refine Does.ite ?_ ?_
    · refine State.mapTurn_does ?_ ?_ (fun y13 y14 => ?_) rfl
      · exact Does.refl
      · dsimp -zeta -iota only
        exact Does.refl
      · unfold x12
        exact Does.trans ‹_› State.mbOk_does rfl
    · split
      · exact Does.trans Does.refl State.mbFail_does rfl
      · refine Does.ite ?_ ?_
        · exact Does.trans Does.refl State.mbFail_does rfl
        · refine Does.ite ?_ ?_
          · exact Does.trans Does.refl State.mbFail_does rfl
          · refine Does.ite ?_ ?_
            · exact Does.trans Does.refl State.mbFail_does rfl
            · refine Does.ite ?_ ?_
              · exact Does.trans Does.refl State.mbFail_does rfl
              · refine Does.ite ?_ ?_
                · exact Does.trans Does.refl State.mbFail_does rfl
                · refine State.mapTurn_does ?_ ?_ (fun y18 y19 => ?_) rfl
                  · exact Does.refl
                  · exact Does.trans Does.refl State.pagesTake_does rfl
                  · unfold x12
                    exact Does.trans ‹_› State.mbOk_does rfl

theorem State.pagesGone_does {a1 o} : Does 0xb00c0bf8 o (State.pagesGone a1 o) := by
  unfold State.pagesGone
  split
  · rename_i x1 x2
    refine (fun h3 : Does 0xb00c0bf8 o x1 => ?_) (Does.named1 ?_ x2)
    rotate_left
    · exact Does.trans Does.refl State.releasePages_does rfl
    exact Does.trans ‹_› State.mbOk_does rfl
  · rename_i x4 x5
    refine (fun h6 : Does 0xb00c0bf8 o x4 => ?_) (Does.named1 ?_ x5)
    rotate_left
    · exact Does.trans Does.refl State.releasePages_does rfl
    assumption

theorem State.pagesCut_does {a1 a2 a3 a4 a5 o} : Does 0x20100000 o (State.pagesCut a1 a2 a3 a4 a5 o).2 := by
  unfold State.pagesCut
  extract_lets +onlyGivenNames x1
  have h2 : Does 0x20100000 o x1 := by
    unfold x1
    exact Does.trans Does.refl State.modBerth_does rfl
  clear_value x1
  dsimp -zeta -iota only
  exact Does.trans ‹_› State.modPage_does rfl

theorem execPagesFree_does {a1 o} : OutDoes 0x4b81c0ff8 o (execPagesFree a1 o) := by
  unfold execPagesFree
  refine State.onReq_does ?_ (fun y1 => ?_) rfl
  · exact Does.refl
  · refine Does.ite ?_ ?_
    · refine State.mapTurn_does ?_ ?_ (fun y6 y7 => ?_) rfl
      · exact Does.refl
      · dsimp -zeta -iota only
        exact Does.refl
      · exact Does.trans ‹_› State.pagesGone_does rfl
    · refine State.onRange_does ?_ (fun y11 y12 y13 y14 => ?_) rfl
      · exact Does.refl
      · refine State.mapTurn_does ?_ ?_ (fun y16 y17 => ?_) rfl
        · exact Does.refl
        · exact Does.trans Does.refl State.pagesCut_does rfl
        · exact Does.trans ‹_› State.pagesGone_does rfl

theorem execPasidSet_does {a1 o} : OutDoes 0x301c0000 o (execPasidSet a1 o) := by
  unfold execPasidSet
  refine State.onReq_does ?_ (fun y1 => ?_) rfl
  · exact Does.refl
  · extract_lets +onlyGivenNames x6
    clear_value x6
    split
    · exact Does.trans Does.refl State.mbFail_does rfl
    · extract_lets +onlyGivenNames x7
      clear_value x7
      exact Does.trans (Does.trans Does.refl State.modBerth_does rfl) State.mbOk_does rfl

theorem execMoorPoolGrow_does {a1 o} : OutDoes 0x301c0040 o (execMoorPoolGrow a1 o) := by
  unfold execMoorPoolGrow
  refine State.onReq_does ?_ (fun y1 => ?_) rfl
  · exact Does.refl
  · extract_lets +onlyGivenNames x6
    clear_value x6
    split
    · exact Does.trans Does.refl State.mbFail_does rfl
    · refine Does.ite ?_ ?_
      · exact Does.trans Does.refl State.mbFail_does rfl
      · refine Does.ite ?_ ?_
        · exact Does.trans Does.refl State.mbFail_does rfl
        · split
          · exact Does.trans Does.refl State.mbFail_does rfl
          · rename_i x7 x8
            refine (fun h9 : Does 0x301c0040 o x7 => ?_) (Does.opt0 ?_ x8)
            rotate_left
            · exact OptDoes.after Does.refl State.moorTake_does rfl
            exact Does.trans ‹_› State.mbOk_does rfl

theorem State.bgStage_does {o a2} : Does 0x40000000 o (State.bgStage o a2) := by
  unfold State.bgStage
  exact Does.trans Does.refl State.modBg_does rfl

theorem execCargoQuery_does {a1 o} : OutDoes 0x300c0000 o (execCargoQuery a1 o) := by
  unfold execCargoQuery
  refine State.onReq_does ?_ (fun y1 => ?_) rfl
  · exact Does.refl
  · extract_lets +onlyGivenNames x6
    clear_value x6
    exact Does.trans Does.refl State.mbOk_does rfl

theorem State.codePages_does {o a2 a3} : Does 0x40 o (State.codePages o a2 a3) := by
  unfold State.codePages
  refine Does.foldl ?_ fun r1 x2 h3 => ?_
  · exact Does.refl
  · exact Does.trans ‹_› State.setPot_does rfl

theorem execConvoyUnregister_does {a1 o} : OutDoes 0x80304c0040 o (execConvoyUnregister a1 o) := by
  unfold execConvoyUnregister
  refine State.onReq_does ?_ (fun y1 => ?_) rfl
  · exact Does.refl
  · split
    · exact Does.trans Does.refl State.mbFail_does rfl
    · refine Does.ite ?_ ?_
      · exact Does.trans Does.refl State.mbFail_does rfl
      · extract_lets +onlyGivenNames x6
        have h7 : Does 0x80304c0040 o x6 := by
          unfold x6
          exact Does.trans Does.refl State.codePages_does rfl
        clear_value x6
        exact Does.trans (Does.trans (Does.modBth ‹_›) State.measured_does rfl) State.mbOk_does rfl

theorem execCargoMap_does {a1 o} : OutDoes 0x4b81c0ff8 o (execCargoMap a1 o) := by
  unfold execCargoMap
  refine State.onReq_does ?_ (fun y1 => ?_) rfl
  · exact Does.refl
  · extract_lets +onlyGivenNames x6 x7
    clear_value x6
    refine Does.ite ?_ ?_
    · unfold x7
      refine State.mapTurn_does ?_ ?_ (fun y8 y9 => ?_) rfl
      · exact Does.refl
      · dsimp -zeta -iota only
        exact Does.trans Does.refl State.modBerth_does rfl
      · exact Does.trans ‹_› State.mbOk_does rfl
    · split
      · exact Does.trans Does.refl State.mbFail_does rfl
      · refine Does.ite ?_ ?_
        · exact Does.trans Does.refl State.mbFail_does rfl
        · refine Does.ite ?_ ?_
          · exact Does.trans Does.refl State.mbFail_does rfl
          · unfold x7
            refine State.mapTurn_does ?_ ?_ (fun y13 y14 => ?_) rfl
            · exact Does.refl
            · dsimp -zeta -iota only
              exact Does.trans Does.refl State.modBerth_does rfl
            · exact Does.trans ‹_› State.mbOk_does rfl

theorem State.bgMapped_does {o a2 a3 a4} : Does 0x4d81c0ff8 o (State.bgMapped o a2 a3 a4) := by
  unfold State.bgMapped
  extract_lets +onlyGivenNames x1
  have h2 : Does 0x4d81c0ff8 o x1 := by
    unfold x1
    exact Does.trans Does.refl State.mapSync_does rfl
  clear_value x1
  refine Does.ite ?_ ?_
  · exact Does.trans ‹_› State.bgEnd_does rfl
  · assumption

theorem execCargoSource_does {a1 o} : OutDoes 0x302c0000 o (execCargoSource a1 o) := by
  unfold execCargoSource
  refine State.onReq_does ?_ (fun y1 => ?_) rfl
  · exact Does.refl
  · extract_lets +onlyGivenNames x6 x7
    clear_value x6 x7
    refine Does.ite ?_ ?_
    · exact Does.trans Does.refl State.mbFail_does rfl
    · refine Does.ite ?_ ?_
      · exact Does.trans Does.refl State.mbFail_does rfl
      · exact Does.trans (Does.modBth Does.refl) State.mbOk_does rfl

theorem execCargoUnload_does {a1 o} : OutDoes 0x700c0000 o (execCargoUnload a1 o) := by
  unfold execCargoUnload
  refine State.onReq_does ?_ (fun y1 => ?_) rfl
  · exact Does.refl
  · refine Does.ite ?_ ?_
    · exact Does.trans Does.refl State.mbFail_does rfl
    · exact Does.trans Does.refl State.bgBegin_does rfl

theorem execCargoUnmap_does {a1 o} : OutDoes 0x4b81c0ff8 o (execCargoUnmap a1 o) := by
  unfold execCargoUnmap
  refine State.onReq_does ?_ (fun y1 => ?_) rfl
  · exact Does.refl
  · extract_lets +onlyGivenNames x6 x7
    clear_value x6
    refine Does.ite ?_ ?_
    · unfold x7
      refine State.mapTurn_does ?_ ?_ (fun y8 y9 => ?_) rfl
      · exact Does.refl
      · dsimp -zeta -iota only
        exact Does.trans Does.refl State.modBerth_does rfl
      · exact Does.trans ‹_› State.mbOk_does rfl
    · refine Does.ite ?_ ?_
      · unfold x7
        refine State.mapTurn_does ?_ ?_ (fun y13 y14 => ?_) rfl
        · exact Does.refl
        · dsimp -zeta -iota only
          exact Does.trans Does.refl State.modBerth_does rfl
        · exact Does.trans ‹_› State.mbOk_does rfl
      · exact Does.trans Does.refl State.mbFail_does rfl

theorem execCargoSeal_does {a1 o} : OutDoes 0x700c0000 o (execCargoSeal a1 o) := by
  unfold execCargoSeal
  refine State.onReq_does ?_ (fun y1 => ?_) rfl
  · exact Does.refl
  · refine Does.ite ?_ ?_
    · exact Does.trans Does.refl State.mbFail_does rfl
    · refine Does.ite ?_ ?_
      · exact Does.trans Does.refl State.mbFail_does rfl
      · exact Does.trans Does.refl State.bgBegin_does rfl

theorem execConvoyRegister_does {a1 o} : OutDoes 0x84b84c0bf8 o (execConvoyRegister a1 o) := by
  unfold execConvoyRegister
  refine State.onReq_does ?_ (fun y1 => ?_) rfl
  · exact Does.refl
  · extract_lets +onlyGivenNames x6 x7 x8
    clear_value x6 x7 x8
    refine Does.ite ?_ ?_
    · exact Does.trans Does.refl State.mbFail_does rfl
    · refine Does.ite ?_ ?_
      · exact Does.trans Does.refl State.mbFail_does rfl
      · refine Does.ite ?_ ?_
        · exact Does.trans Does.refl State.mbFail_does rfl
        · split
          · exact Does.trans Does.refl State.mbFail_does rfl
          · split
            rename_i x9 x10
            refine (fun h11 : Does 0x84b84c0bf8 o x9 => ?_) (Does.named1 ?_ x10)
            rotate_left
            · refine readPieces_does ?_ fun y12 y13 y14 y15 => ?_
              · exact Does.refl
              · exact Does.trans ‹_› State.paRead_does rfl
            refine Does.ite ?_ ?_
            · assumption
            · refine Does.ite ?_ ?_
              · exact Does.trans ‹_› State.mbFail_does rfl
              · extract_lets +onlyGivenNames x17 x18
                clear_value x17
                have h19 : Does 0x84b84c0bf8 o x18 := by
                  unfold x18
                  exact Does.modBth (Does.trans ‹_› State.codePages_does rfl)
                clear_value x18
                exact Does.trans (Does.trans ‹_› State.measured_does rfl) State.mbOk_does rfl

theorem bgCargoUnload_does {a1 o} : OutDoes 0x80d02c0bf8 o (bgCargoUnload a1 o) := by
  unfold bgCargoUnload
  refine OutDoes.next ?_
  split
  · rename_i x1 x2
    refine (fun h3 : Does 0x80d02c0bf8 o x1 => ?_) (Does.named1 ?_ x2)
    rotate_left
    · exact Does.trans Does.refl State.releasePages_does rfl
    assumption
  · rename_i x4 x5
    refine (fun h6 : Does 0x80d02c0bf8 o x4 => ?_) (Does.named1 ?_ x5)
    rotate_left
    · exact Does.trans Does.refl State.releasePages_does rfl
    extract_lets +onlyGivenNames x7
    have h8 : Does 0x80d02c0bf8 o x7 := by
      unfold x7
      exact Does.modBth ‹_›
    clear_value x7
    exact Does.trans (Does.trans (Does.modSec ‹_›) State.measured_does rfl) State.bgEnd_does rfl

theorem State.hashPages_does {a1 o} : Does 0x498080bf8 o (State.hashPages a1 o).2.2.2 := by
  induction a1 generalizing o
  · unfold State.hashPages
    dsimp -zeta -iota only
    exact Does.refl
  · rename_i ih
    unfold State.hashPages
    split
    rename_i x1 x2
    refine (fun h3 : Does 0x498080bf8 o x1 => ?_) (Does.named1 ?_ x2)
    rotate_left
    · exact Does.trans Does.refl State.paRead_does rfl
    refine Does.ite' (fun r => Prod.snd (Prod.snd (Prod.snd (r)))) ?_ ?_
    · dsimp -zeta -iota only
      assumption
    · split
      rename_i x4 x5
      refine (fun h6 : Does 0x498080bf8 o x4 => ?_) (Does.named3 ?_ x5)
      rotate_left
      · exact Does.trans ‹_› (ih ..) rfl
      dsimp -zeta -iota only
      assumption

theorem bgCargoSeal_does {a1 o} : OutDoes 0x84d83c0ff8 o (bgCargoSeal a1 o) := by
  unfold bgCargoSeal
  extract_lets +onlyGivenNames x1 x2
  clear_value x2
  refine OutDoes.next ?_
  refine Does.ite ?_ ?_
  · exact Does.trans Does.refl State.bgMapped_does rfl
  · refine Does.ite ?_ ?_
    · exact Does.trans Does.refl State.mapSync_does rfl
    · split
      rename_i x3 x4
      refine (fun h5 : Does 0x84d83c0ff8 o x3 => ?_) (Does.named3 ?_ x4)
      rotate_left
      · exact Does.trans Does.refl State.hashPages_does rfl
      refine Does.ite ?_ ?_
      · assumption
      · refine Does.ite ?_ ?_
        · exact Does.trans ‹_› State.bgEnd_does rfl
        · extract_lets +onlyGivenNames x6
          have h7 : Does 0x84d83c0ff8 o x6 := by
            unfold x6
            refine Does.foldl ?_ fun r8 x9 h10 => ?_
            · assumption
            · exact Does.trans ‹_› State.setPot_does rfl
          clear_value x6
          extract_lets +onlyGivenNames x11
          have h12 : Does 0x84d83c0ff8 o x11 := by
            unfold x11
            exact Does.trans (Does.modBth ‹_›) State.measured_does rfl
          clear_value x11
          refine Does.ite ?_ ?_
          · exact Does.trans ‹_› State.bgEnd_does rfl
          · split
            · exact Does.trans ‹_› State.bgEnd_does rfl
            · rename_i x13 x14
              refine (fun h15 : Does 0x84d83c0ff8 o x13 => ?_) (Does.opt0 ?_ x14)
              rotate_left
              · exact OptDoes.after ‹_› State.mapCommit_does rfl
              exact Does.trans (Does.trans ‹_› State.bgStage_does rfl) State.bgMapped_does rfl

theorem execCargoOpen_does {a1 o} : OutDoes 0x700c0000 o (execCargoOpen a1 o) := by
  unfold execCargoOpen
  refine State.onReq_does ?_ (fun y1 => ?_) rfl
  · exact Does.refl
  · extract_lets +onlyGivenNames x6 x7 x8
    clear_value x6 x7 x8
    refine Does.ite ?_ ?_
    · exact Does.trans Does.refl State.mbFail_does rfl
    · refine Does.ite ?_ ?_
      · exact Does.trans Does.refl State.mbFail_does rfl
      · refine Does.ite ?_ ?_
        · exact Does.trans Does.refl State.mbFail_does rfl
        · refine Does.ite ?_ ?_
          · exact Does.trans Does.refl State.mbFail_does rfl
          · exact Does.trans Does.refl State.bgBegin_does rfl

theorem bgCargoOpen_does {a1 o} : OutDoes 0x84d83c0ff8 o (bgCargoOpen a1 o) := by
  unfold bgCargoOpen
  extract_lets +onlyGivenNames x1 x2
  clear_value x1 x2
  refine OutDoes.next ?_
  refine Does.ite ?_ ?_
  · exact Does.trans Does.refl State.bgMapped_does rfl
  · refine Does.ite ?_ ?_
    · exact Does.trans Does.refl State.mapSync_does rfl
    · extract_lets +onlyGivenNames x3 x4
      clear_value x3 x4
      split
      · exact Does.trans Does.refl State.bgEnd_does rfl
      · rename_i x5 x6
        refine (fun h7 : Does 0x84d83c0ff8 o x5 => ?_) (Does.opt2 ?_ x6)
        rotate_left
        · exact OptDoes.after Does.refl State.takeRound_does rfl
        split
        rename_i x8 x9
        refine (fun h10 : Does 0x84d83c0ff8 o x8 => ?_) (Does.named2 ?_ x9)
        rotate_left
        · exact Does.trans ‹_› State.paWrite_does rfl
        extract_lets +onlyGivenNames x11 x12
        clear_value x11
        refine Does.ite ?_ ?_
        · unfold x12
          refine Does.foldl ?_ fun r13 x14 h15 => ?_
          · assumption
          · exact Does.trans ‹_› State.setPot_does rfl
        · refine Does.ite ?_ ?_
          · refine Does.trans ?_ State.bgEnd_does rfl
            unfold x12
            refine Does.foldl ?_ fun r16 x17 h18 => ?_
            · assumption
            · exact Does.trans ‹_› State.setPot_does rfl
          · extract_lets +onlyGivenNames x19
            have h20 : Does 0x84d83c0ff8 o x19 := by
              unfold x19
              exact Does.modBth ‹_›
            clear_value x19
            extract_lets +onlyGivenNames x21
            have h22 : Does 0x84d83c0ff8 o x21 := by
              unfold x21
              exact Does.modSec ‹_›
            clear_value x21
            split
            · refine Does.trans ?_ State.bgEnd_does rfl
              unfold x12
              refine Does.foldl ?_ fun r23 x24 h25 => ?_
              · assumption
              · exact Does.trans ‹_› State.setPot_does rfl
            · rename_i x26 x27
              refine (fun h28 : Does 0x84d83c0ff8 o x26 => ?_) (Does.opt0 ?_ x27)
              rotate_left
              · exact OptDoes.after (Does.trans (Does.trans ‹_› State.modBerth_does rfl) State.measured_does rfl) State.mapCommit_does rfl
              exact Does.trans (Does.trans ‹_› State.bgStage_does rfl) State.bgMapped_does rfl

theorem execDieHandover_does {a1 o} : OutDoes 0x700c0000 o (execDieHandover a1 o) := by
  unfold execDieHandover
  refine State.onReq_does ?_ (fun y1 => ?_) rfl
  · exact Does.refl
  · extract_lets +onlyGivenNames x6 x7 x8
    clear_value x6 x7 x8
    refine Does.ite ?_ ?_
    · exact Does.trans Does.refl State.mbFail_does rfl
    · refine Does.ite ?_ ?_
      · exact Does.trans Does.refl State.mbFail_does rfl
      · refine Does.ite ?_ ?_
        · exact Does.trans Does.refl State.mbFail_does rfl
        · refine Does.ite ?_ ?_
          · exact Does.trans Does.refl State.mbFail_does rfl
          · exact Does.trans Does.refl State.bgBegin_does rfl

theorem State.savePage_does {o a2 a3 a4} : Does 0x498180ff8 o (State.savePage o a2 a3 a4).2.2 := by
  unfold State.savePage
  split
  · rename_i x1 x2
    refine (fun h3 : Does 0x498180ff8 o x1 => ?_) (Does.named1 ?_ x2)
    rotate_left
    · exact Does.trans Does.refl State.translate_does rfl
    refine Does.ite' (fun r => Prod.snd (Prod.snd (r))) ?_ ?_
    · extract_lets +onlyGivenNames x4
      clear_value x4
      split
      rename_i x5 x6
      refine (fun h7 : Does 0x498180ff8 o x5 => ?_) (Does.named2 ?_ x6)
      rotate_left
      · exact Does.trans ‹_› State.vaWrite_does rfl
      refine Does.ite' (fun r => Prod.snd (Prod.snd (r))) ?_ ?_
      · dsimp -zeta -iota only
        assumption
      · dsimp -zeta -iota only
        exact Does.modBth ‹_›
    · exact Does.trans ‹_› State.vaWrite_does rfl
  · rename_i x8 x9
    refine (fun h10 : Does 0x498180ff8 o x8 => ?_) (Does.named1 ?_ x9)
    rotate_left
    · exact Does.trans Does.refl State.translate_does rfl
    dsimp -zeta -iota only
    assumption
  · rename_i x11 x12
    refine (fun h13 : Does 0x498180ff8 o x11 => ?_) (Does.named1 ?_ x12)
    rotate_left
    · exact Does.trans Does.refl State.translate_does rfl
    dsimp -zeta -iota only
    assumption

theorem State.saveAll_does {a1 a2 o} : Does 0x498180ff8 o (State.saveAll a1 a2 o).2.2.2 := by
  induction a2 generalizing a1 o
  · unfold State.saveAll
    dsimp -zeta -iota only
    exact Does.refl
  · rename_i ih
    unfold State.saveAll
    split
    rename_i x1 x2
    refine (fun h3 : Does 0x498180ff8 o x1 => ?_) (Does.named1 ?_ x2)
    rotate_left
    · exact Does.trans Does.refl State.paRead_does rfl
    refine Does.ite' (fun r => Prod.snd (Prod.snd (Prod.snd (r)))) ?_ ?_
    · dsimp -zeta -iota only
      assumption
    · extract_lets +onlyGivenNames x4
      have h5 : Does 0x498180ff8 o (Prod.snd (Prod.snd (x4))) := by
        unfold x4
        refine Does.ite' (fun r => Prod.snd (Prod.snd (r))) ?_ ?_
        · dsimp -zeta -iota only
          assumption
        · exact Does.trans ‹_› State.savePage_does rfl
      clear_value x4
      refine Does.ite' (fun r => Prod.snd (Prod.snd (Prod.snd (r)))) ?_ ?_
      · dsimp -zeta -iota only
        assumption
      · split
        rename_i x6 x7
        refine (fun h8 : Does 0x498180ff8 o x6 => ?_) (Does.named3 ?_ x7)
        rotate_left
        · exact Does.trans ‹_› (ih ..) rfl
        dsimp -zeta -iota only
        assumption

theorem State.fillPage_does {o a2 a3} : Does 0xb30 o (State.fillPage o a2 a3) := by
  unfold State.fillPage
  extract_lets +onlyGivenNames x1
  have h2 : Does 0xb30 o x1 := by
    unfold x1
    exact Does.trans Does.refl State.dropPage_does rfl
  clear_value x1
  refine Does.foldl ?_ fun r3 x4 h5 => ?_
  · assumption
  · exact Does.trans ‹_› State.dramPut_does rfl

theorem State.loadAll_does {a1 a2 o} : Does 0x498180bf8 o (State.loadAll a1 a2 o).2.2.2 := by
  induction a2 generalizing a1 o
  · unfold State.loadAll
    dsimp -zeta -iota only
    exact Does.refl
  · rename_i ih
    unfold State.loadAll
    split
    rename_i x1 x2
    refine (fun h3 : Does 0x498180bf8 o x1 => ?_) (Does.named1 ?_ x2)
    rotate_left
    · exact Does.trans Does.refl State.vaRead_does rfl
    refine Does.ite' (fun r => Prod.snd (Prod.snd (Prod.snd (r)))) ?_ ?_
    · dsimp -zeta -iota only
      assumption
    · split
      rename_i x4 x5
      refine (fun h6 : Does 0x498180bf8 o x4 => ?_) (Does.named3 ?_ x5)
      rotate_left
      · exact Does.trans ‹_› (ih ..) rfl
      dsimp -zeta -iota only
      assumption

theorem State.dieLeaves_does {o a2 a3 a4} : Does 0x200110010 o (State.dieLeaves o a2 a3 a4) := by
  unfold State.dieLeaves
  split
  · exact Does.refl
  · extract_lets +onlyGivenNames x1 x2
    clear_value x1
    have h3 : Does 0x200110010 o x2 := by
      unfold x2
      exact Does.trans Does.refl State.modBerth_does rfl
    clear_value x2
    extract_lets +onlyGivenNames x4
    have h5 : Does 0x200110010 o x4 := by
      unfold x4
      exact Does.modRel (Does.trans ‹_› State.pmcGive_does rfl)
    clear_value x4
    split
    · refine Does.ite ?_ ?_
      · assumption
      · extract_lets +onlyGivenNames x6
        have h7 : Does 0x200110010 o x6 := by
          unfold x6
          exact Does.trans (Does.modThr ‹_›) State.modBerth_does rfl
        clear_value x6
        split
        · assumption
        · split
          · exact Does.trans ‹_› State.handlerStart_does rfl
          · assumption
    · assumption

theorem State.flushDie_does {o a2} : Does 0x498080bf8 o (State.flushDie o a2) := by
  unfold State.flushDie
  extract_lets +onlyGivenNames x1
  have h2 : Does 0x498080bf8 o x1 := by
    unfold x1
    refine Does.foldl ?_ fun r3 x4 h5 => ?_
    · exact Does.refl
    · exact Does.trans ‹_› State.l1Flush_does rfl
  clear_value x1
  exact Does.trans (Does.trans (Does.trans ‹_› State.cleanFar_does rfl) State.drainSlices_does rfl) State.flushHome_does rfl

theorem State.leaveReady_does {o a2 a3} : Does 0x5985c0ff8 o (State.leaveReady o a2 a3) := by
  unfold State.leaveReady
  refine Does.foldl ?_ fun r1 x2 h3 => ?_
  · exact Does.refl
  · refine Does.ite ?_ ?_
    · refine Does.ite ?_ ?_
      · exact Does.trans ‹_› State.modCmd_does rfl
      · exact Does.trans ‹_› State.endUnstarted_does rfl
    · assumption

theorem State.bgAux_does {o a2 a3} : Does 0x40000000 o (State.bgAux o a2 a3) := by
  unfold State.bgAux
  exact Does.trans Does.refl State.modBg_does rfl

theorem State.handoverIn_does {o a2 a3 a4 a5} : Does 0x4d81c0ff8 o (State.handoverIn o a2 a3 a4 a5) := by
  unfold State.handoverIn
  split
  · exact Does.trans Does.refl State.bgEnd_does rfl
  · extract_lets +onlyGivenNames x1 x2
    clear_value x1 x2
    refine Does.ite ?_ ?_
    · exact Does.trans Does.refl State.mapSync_does rfl
    · split
      rename_i x3 x4
      refine (fun h5 : Does 0x4d81c0ff8 o x3 => ?_) (Does.named3 ?_ x4)
      rotate_left
      · exact Does.trans Does.refl State.loadAll_does rfl
      extract_lets +onlyGivenNames x6
      refine Does.ite ?_ ?_
      · assumption
      · refine Does.ite ?_ ?_
        · unfold x6
          exact Does.trans ‹_› State.bgEnd_does rfl
        · refine Does.ite ?_ ?_
          · unfold x6
            exact Does.trans ‹_› State.bgEnd_does rfl
          · split
            · unfold x6
              exact Does.trans ‹_› State.bgEnd_does rfl
            · rename_i x7 x8
              refine (fun h9 : Does 0x4d81c0ff8 o x7 => ?_) (Does.opt1 ?_ x8)
              rotate_left
              · exact OptDoes.after ‹_› State.takeDie_does rfl
              extract_lets +onlyGivenNames x10 x11
              clear_value x10
              have h12 : Does 0x4d81c0ff8 o x11 := by
                unfold x11
                refine Does.foldl ?_ fun r13 x14 h15 => ?_
                · assumption
                · split
                  · exact Does.trans ‹_› State.fillPage_does rfl
                  · assumption
              clear_value x11
              extract_lets +onlyGivenNames x16
              have h17 : Does 0x4d81c0ff8 o x16 := by
                unfold x16
                exact Does.trans ‹_› State.modBerth_does rfl
              clear_value x16
              split
              · unfold x6
                exact Does.trans ‹_› State.bgEnd_does rfl
              · rename_i x18 x19
                refine (fun h20 : Does 0x4d81c0ff8 o x18 => ?_) (Does.opt0 ?_ x19)
                rotate_left
                · exact OptDoes.after ‹_› State.mapCommit_does rfl
                extract_lets +onlyGivenNames x21
                clear_value x21
                exact Does.trans (Does.trans ‹_› State.pmcGive_does rfl) State.bgAux_does rfl

theorem State.handoverOut_does {o a2 a3 a4 a5} : Does 0x6d81d1ff8 o (State.handoverOut o a2 a3 a4 a5) := by
  unfold State.handoverOut
  split
  · exact Does.trans Does.refl State.bgEnd_does rfl
  · extract_lets +onlyGivenNames x1 x2 x3
    clear_value x1 x2
    have h4 : Does 0x6d81d1ff8 o x3 := by
      unfold x3
      exact Does.trans (Does.trans Does.refl State.flushDie_does rfl) State.holdsZero_does rfl
    clear_value x3
    split
    rename_i x5 x6
    refine (fun h7 : Does 0x6d81d1ff8 o x5 => ?_) (Does.named3 ?_ x6)
    rotate_left
    · exact Does.trans ‹_› State.saveAll_does rfl
    refine Does.ite ?_ ?_
    · assumption
    · extract_lets +onlyGivenNames x8
      have h9 : Does 0x6d81d1ff8 o x8 := by
        unfold x8
        exact Does.trans ‹_› State.dieLeaves_does rfl
      clear_value x8
      refine Does.trans ?_ State.bgAux_does rfl
      refine Does.getD ?_ ?_
      · exact OptDoes.after ‹_› State.mapCommit_does rfl
      · assumption

theorem bgHandover_does {a1 o} : OutDoes 0x7d85f7ff8 o (bgHandover a1 o) := by
  unfold bgHandover
  extract_lets +onlyGivenNames x1 x2 x3 x4
  clear_value x1 x2 x3 x4
  refine OutDoes.next ?_
  split
  · extract_lets +onlyGivenNames x5 x6
    clear_value x5
    have h7 : Does 0x7d85f7ff8 o x6 := by
      unfold x6
      exact Does.trans Does.refl State.leaveReady_does rfl
    clear_value x6
    refine Does.ite ?_ ?_
    · refine Does.ite ?_ ?_
      · refine Does.foldl ?_ fun r8 x9 h10 => ?_
        · assumption
        · refine Does.ite ?_ ?_
          · exact Does.trans ‹_› State.failCmd_does rfl
          · assumption
      · assumption
    · refine Does.ite ?_ ?_
      · exact Does.trans ‹_› State.mapSync_does rfl
      · exact Does.trans ‹_› State.handoverOut_does rfl
  · extract_lets +onlyGivenNames x11
    have h12 : Does 0x7d85f7ff8 o x11 := by
      unfold x11
      exact Does.trans Does.refl State.mapSync_does rfl
    clear_value x11
    refine Does.ite ?_ ?_
    · assumption
    · split
      · rename_i x13 x14
        refine (fun h15 : Does 0x7d85f7ff8 o x13 => ?_) (Does.named1 ?_ x14)
        rotate_left
        · exact Does.trans ‹_› State.releasePages_does rfl
        assumption
      · rename_i x16 x17
        refine (fun h18 : Does 0x7d85f7ff8 o x16 => ?_) (Does.named1 ?_ x17)
        rotate_left
        · exact Does.trans ‹_› State.releasePages_does rfl
        refine Does.ite ?_ ?_
        · exact Does.trans ‹_› State.bgEnd_does rfl
        · exact Does.trans ‹_› State.handoverIn_does rfl
  · extract_lets +onlyGivenNames x19
    have h20 : Does 0x7d85f7ff8 o x19 := by
      unfold x19
      exact Does.trans Does.refl State.mapSync_does rfl
    clear_value x19
    refine Does.ite ?_ ?_
    · exact Does.trans ‹_› State.bgEnd_does rfl
    · assumption

theorem execCupFloor_does {a1 o} : OutDoes 0x300c0000 o (execCupFloor a1 o) := by
  unfold execCupFloor
  refine State.onReq_does ?_ (fun y1 => ?_) rfl
  · exact Does.refl
  · extract_lets +onlyGivenNames x6
    clear_value x6
    refine Does.ite ?_ ?_
    · exact Does.trans Does.refl State.mbFail_does rfl
    · exact Does.trans (Does.modLk Does.refl) State.mbOk_does rfl

theorem execSecState_does {a1 o} : OutDoes 0x300c0000 o (execSecState a1 o) := by
  unfold execSecState
  refine State.onReq_does ?_ (fun y1 => ?_) rfl
  · exact Does.refl
  · exact Does.trans Does.refl State.mbOk_does rfl

theorem execDebugChallenge_does {a1 o} : OutDoes 0x280300c0000 o (execDebugChallenge a1 o) := by
  unfold execDebugChallenge
  refine State.onReq_does ?_ (fun y1 => ?_) rfl
  · exact Does.refl
  · extract_lets +onlyGivenNames x6 x7
    clear_value x6 x7
    exact Does.trans (Does.modSec (Does.drawn Does.refl)) State.mbOk_does rfl

theorem execCapSet_does {a1 o} : OutDoes 0x10300c0000 o (execCapSet a1 o) := by
  unfold execCapSet
  refine State.onReq_does ?_ (fun y1 => ?_) rfl
  · exact Does.refl
  · extract_lets +onlyGivenNames x6 x7
    clear_value x6 x7
    refine Does.ite ?_ ?_
    · exact Does.trans Does.refl State.mbFail_does rfl
    · exact Does.trans (Does.modPwr Does.refl) State.mbOk_does rfl

theorem execSigRead_does {a1 o} : OutDoes 0x300c0000 o (execSigRead a1 o) := by
  unfold execSigRead
  refine State.onReq_does ?_ (fun y1 => ?_) rfl
  · exact Does.refl
  · extract_lets +onlyGivenNames x6
    clear_value x6
    refine Does.ite ?_ ?_
    · exact Does.trans Does.refl State.mbFail_does rfl
    · exact Does.trans Does.refl State.mbOk_does rfl

theorem bgUnitRetire_does {a1 o} : OutDoes 0x500c0000 o (bgUnitRetire a1 o) := by
  unfold bgUnitRetire
  extract_lets +onlyGivenNames x1 x2 x3 x4
  clear_value x1 x2 x3 x4
  exact OutDoes.need (OutDoes.next (Does.trans Does.refl State.bgEnd_does rfl))

theorem execTallyClear_does {a1 o} : OutDoes 0x1b00c0010 o (execTallyClear a1 o) := by
  unfold execTallyClear
  refine State.onReq_does ?_ (fun y1 => ?_) rfl
  · exact Does.refl
  · extract_lets +onlyGivenNames x6 x7 x8 x9
    clear_value x6 x7 x8
    refine Does.ite ?_ ?_
    · refine Does.ite ?_ ?_
      · exact Does.trans Does.refl State.mbFail_does rfl
      · refine Does.ite ?_ ?_
        · exact Does.trans Does.refl State.mbFail_does rfl
        · unfold x9
          exact Does.trans (Does.trans (Does.modRel Does.refl) State.event_does rfl) State.mbOk_does rfl
    · split
      · unfold x9
        exact Does.trans (Does.trans (Does.modRel Does.refl) State.event_does rfl) State.mbOk_does rfl
      · exact Does.trans Does.refl State.mbFail_does rfl

theorem execRatioLimit_does {a1 o} : OutDoes 0x10300c0000 o (execRatioLimit a1 o) := by
  unfold execRatioLimit
  refine State.onReq_does ?_ (fun y1 => ?_) rfl
  · exact Does.refl
  · extract_lets +onlyGivenNames x6 x7
    clear_value x6 x7
    refine Does.ite ?_ ?_
    · exact Does.trans Does.refl State.mbFail_does rfl
    · refine Does.ite ?_ ?_
      · exact Does.trans Does.refl State.mbFail_does rfl
      · exact Does.trans (Does.modPwr Does.refl) State.mbOk_does rfl

theorem execTallyRead_does {a1 o} : OutDoes 0x300c0000 o (execTallyRead a1 o) := by
  unfold execTallyRead
  refine State.onReq_does ?_ (fun y1 => ?_) rfl
  · exact Does.refl
  · split
    · extract_lets +onlyGivenNames x6
      clear_value x6
      exact Does.trans Does.refl State.mbOk_does rfl
    · exact Does.trans Does.refl State.mbFail_does rfl

theorem State.retireAsked_does {o a2 a3} : Does 0x2079b9f6ff8 o (State.retireAsked o a2 a3) := by
  unfold State.retireAsked
  extract_lets +onlyGivenNames x1 x2 x3 x4
  clear_value x1 x2 x3 x4
  split
  · split
    · exact Does.trans (Does.trans Does.refl State.sign_does rfl) State.retireUnit_does rfl
    · exact Does.modRel (Does.trans Does.refl State.sign_does rfl)
  · split
    · exact Does.trans (Does.trans Does.refl State.sign_does rfl) State.retireUnit_does rfl
    · exact Does.modRel (Does.trans Does.refl State.sign_does rfl)
  · exact Does.trans (Does.trans Does.refl State.sign_does rfl) State.askRepair_does rfl
  · extract_lets +onlyGivenNames x5
    clear_value x5
    exact Does.modMem (Does.trans Does.refl State.sign_does rfl)
  · extract_lets +onlyGivenNames x6
    have h7 : Does 0x2079b9f6ff8 o x6 := by
      unfold x6
      exact Does.trans Does.refl State.sign_does rfl
    clear_value x6
    extract_lets +onlyGivenNames x8
    clear_value x8
    refine Does.ite ?_ ?_
    · assumption
    · exact Does.trans (Does.trans ‹_› State.setRfld_does rfl) State.cutRetrainW_does rfl
  · exact Does.trans (Does.trans Does.refl State.sign_does rfl) State.erhPortOff_does rfl
  · exact Does.trans (Does.trans Does.refl State.sign_does rfl) State.sliceRetire_does rfl

theorem execUnitRetire_does {a1 o} : OutDoes 0x207fb9f6ff8 o (execUnitRetire a1 o) := by
  unfold execUnitRetire
  refine State.onReq_does ?_ (fun y1 => ?_) rfl
  · exact Does.refl
  · split
    · refine Does.ite ?_ ?_
      · exact Does.trans Does.refl State.mbFail_does rfl
      · exact Does.trans (Does.trans Does.refl State.retireAsked_does rfl) State.bgBegin_does rfl
    · exact Does.trans Does.refl State.mbFail_does rfl

theorem execFabricHalf_does {a1 o} : OutDoes 0x300c0010 o (execFabricHalf a1 o) := by
  unfold execFabricHalf
  refine State.onReq_does ?_ (fun y1 => ?_) rfl
  · exact Does.refl
  · extract_lets +onlyGivenNames x6 x7
    clear_value x6 x7
    refine Does.ite ?_ ?_
    · exact Does.trans Does.refl State.mbFail_does rfl
    · refine Does.ite ?_ ?_
      · exact Does.trans Does.refl State.mbFail_does rfl
      · exact Does.trans (Does.trans Does.refl State.ecoWrite_does rfl) State.mbOk_does rfl

theorem execRepairList_does {a1 o} : OutDoes 0x300c0000 o (execRepairList a1 o) := by
  unfold execRepairList
  refine State.onReq_does ?_ (fun y1 => ?_) rfl
  · exact Does.refl
  · exact Does.trans Does.refl State.mbOk_does rfl

theorem execPowerQuery_does {a1 o} : OutDoes 0x300c0000 o (execPowerQuery a1 o) := by
  unfold execPowerQuery
  refine State.onReq_does ?_ (fun y1 => ?_) rfl
  · exact Does.refl
  · extract_lets +onlyGivenNames x6 x7
    clear_value x6 x7
    exact Does.trans Does.refl State.mbOk_does rfl

theorem execSelftest_does {a1 o} : OutDoes 0x8300c0000 o (execSelftest a1 o) := by
  unfold execSelftest
  refine State.onReq_does ?_ (fun y1 => ?_) rfl
  · exact Does.refl
  · extract_lets +onlyGivenNames x6
    clear_value x6
    refine Does.ite ?_ ?_
    · exact Does.trans Does.refl State.mbFail_does rfl
    · exact Does.trans (Does.modRel Does.refl) State.mbOk_does rfl

theorem execDebugUnlock_does {a1 o} : OutDoes 0x84b80c0bf8 o (execDebugUnlock a1 o) := by
  unfold execDebugUnlock
  refine State.onReq_does ?_ (fun y1 => ?_) rfl
  · exact Does.refl
  · refine Does.ite ?_ ?_
    · exact Does.trans Does.refl State.mbFail_does rfl
    · refine Does.ite ?_ ?_
      · exact Does.trans Does.refl State.mbFail_does rfl
      · split
        rename_i x6 x7
        refine (fun h8 : Does 0x84b80c0bf8 o x6 => ?_) (Does.named1 ?_ x7)
        rotate_left
        · exact Does.trans Does.refl State.paRead_does rfl
        extract_lets +onlyGivenNames x9
        have h10 : Does 0x84b80c0bf8 o x9 := by
          unfold x9
          exact Does.modSec ‹_›
        clear_value x9
        refine Does.ite ?_ ?_
        · assumption
        · refine Does.ite ?_ ?_
          · exact Does.trans ‹_› State.mbFail_does rfl
          · refine Does.ite ?_ ?_
            · exact Does.trans ‹_› State.mbFail_does rfl
            · exact Does.trans (Does.trans (Does.modSec ‹_›) State.measured_does rfl) State.mbOk_does rfl

theorem State.noteBlocks_does {o} : Does 0x80000 o (State.noteBlocks o) := by
  unfold State.noteBlocks
  exact Does.modLk Does.refl

theorem State.idle_does {o} : Does 0x14900809fa o (State.idle o) := by
  unfold State.idle
  exact Does.trans (Does.trans Does.refl State.tick_does rfl) State.noteBlocks_does rfl

theorem execCfgEvents_does {a1 o} : OutDoes 0x300c0000 o (execCfgEvents a1 o) := by
  unfold execCfgEvents
  refine State.onReq_does ?_ (fun y1 => ?_) rfl
  · exact Does.refl
  · extract_lets +onlyGivenNames x6 x7
    clear_value x6 x7
    exact Does.trans Does.refl State.mbOk_does rfl

theorem bgSnapshot_does {a1 o} : OutDoes 0xcd80c0ff8 o (bgSnapshot a1 o) := by
  unfold bgSnapshot
  extract_lets +onlyGivenNames x1
  clear_value x1
  refine OutDoes.need ?_
  extract_lets +onlyGivenNames x2 x3
  clear_value x2
  have h4 : Does 0xcd80c0ff8 o x3 := by
    unfold x3
    exact Does.modRel Does.refl
  clear_value x3
  refine OutDoes.next ?_
  split
  rename_i x5 x6
  refine (fun h7 : Does 0xcd80c0ff8 o x5 => ?_) (Does.named2 ?_ x6)
  rotate_left
  · exact Does.trans ‹_› State.paWrite_does rfl
  refine Does.ite ?_ ?_
  · exact Does.modRel ‹_›
  · refine Does.ite ?_ ?_
    · exact Does.trans ‹_› State.bgEnd_does rfl
    · exact Does.trans ‹_› State.bgEnd_does rfl

theorem execTraceCfg_does {a1 o} : OutDoes 0x2300c0000 o (execTraceCfg a1 o) := by
  unfold execTraceCfg
  refine State.onReq_does ?_ (fun y1 => ?_) rfl
  · exact Does.refl
  · extract_lets +onlyGivenNames x6 x7 x8 x9 x10 x11 x12
    clear_value x6 x7 x8 x9 x10 x11 x12
    refine Does.ite ?_ ?_
    · exact Does.trans Does.refl State.mbFail_does rfl
    · refine Does.ite ?_ ?_
      · exact Does.trans Does.refl State.mbFail_does rfl
      · refine Does.ite ?_ ?_
        · exact Does.trans Does.refl State.mbFail_does rfl
        · refine Does.ite ?_ ?_
          · exact Does.trans Does.refl State.mbFail_does rfl
          · exact Does.trans (Does.modRel Does.refl) State.mbOk_does rfl

theorem execSnapshot_does {a1 o} : OutDoes 0x700c0000 o (execSnapshot a1 o) := by
  unfold execSnapshot
  refine State.onReq_does ?_ (fun y1 => ?_) rfl
  · exact Does.refl
  · exact Does.trans Does.refl State.bgBegin_does rfl

theorem execGroupStatus_does {a1 o} : OutDoes 0x300c0000 o (execGroupStatus a1 o) := by
  unfold execGroupStatus
  refine State.onReq_does ?_ (fun y1 => ?_) rfl
  · exact Does.refl
  · extract_lets +onlyGivenNames x6 x7 x8
    clear_value x6 x7 x8
    refine Does.ite ?_ ?_
    · exact Does.trans Does.refl State.mbFail_does rfl
    · refine Does.ite ?_ ?_
      · exact Does.trans Does.refl State.mbFail_does rfl
      · exact Does.trans Does.refl State.mbOk_does rfl

theorem execCounterCfg_does {a1 o} : OutDoes 0x300c0010 o (execCounterCfg a1 o) := by
  unfold execCounterCfg
  refine State.onReq_does ?_ (fun y1 => ?_) rfl
  · exact Does.refl
  · extract_lets +onlyGivenNames x6 x7 x8 x9 x10 x11
    clear_value x6 x7 x8 x9 x10 x11
    refine Does.ite ?_ ?_
    · exact Does.trans Does.refl State.mbFail_does rfl
    · refine Does.ite ?_ ?_
      · exact Does.trans Does.refl State.mbFail_does rfl
      · refine Does.ite ?_ ?_
        · exact Does.trans Does.refl State.mbFail_does rfl
        · refine Does.ite ?_ ?_
          · exact Does.trans Does.refl State.mbFail_does rfl
          · exact Does.trans (Does.setReg (Does.setReg Does.refl)) State.mbOk_does rfl

theorem execCutCtl_does {a1 o} : OutDoes 0x1b08f6310 o (execCutCtl a1 o) := by
  unfold execCutCtl
  refine State.onReq_does ?_ (fun y1 => ?_) rfl
  · exact Does.refl
  · extract_lets +onlyGivenNames x6 x7 x8
    clear_value x6 x7 x8
    refine Does.ite ?_ ?_
    · exact Does.trans Does.refl State.mbFail_does rfl
    · refine Does.ite ?_ ?_
      · exact Does.trans Does.refl State.mbFail_does rfl
      · refine Does.ite ?_ ?_
        · exact Does.trans Does.refl State.mbFail_does rfl
        · refine Does.trans ?_ State.mbOk_does rfl
          split
          · exact Does.trans Does.refl State.cutRetrainW_does rfl
          · exact Does.trans Does.refl State.cutForceW_does rfl
          · exact Does.trans Does.refl State.cutForceW_does rfl
          · exact Does.trans Does.refl State.cutRestoreW_does rfl
          · exact Does.trans Does.refl State.setRfld_does rfl

theorem execDevIdSet_does {a1 o} : OutDoes 0x300c0010 o (execDevIdSet a1 o) := by
  unfold execDevIdSet
  refine State.onReq_does ?_ (fun y1 => ?_) rfl
  · exact Does.refl
  · extract_lets +onlyGivenNames x6
    clear_value x6
    refine Does.ite ?_ ?_
    · exact Does.trans Does.refl State.mbFail_does rfl
    · exact Does.trans (Does.setReg Does.refl) State.mbOk_does rfl

theorem execTsyncSet_does {a1 o} : OutDoes 0x340c0000 o (execTsyncSet a1 o) := by
  unfold execTsyncSet
  refine State.onReq_does ?_ (fun y1 => ?_) rfl
  · exact Does.refl
  · extract_lets +onlyGivenNames x6 x7
    clear_value x6 x7
    refine Does.ite ?_ ?_
    · exact Does.trans Does.refl State.mbFail_does rfl
    · exact Does.trans (Does.modErh Does.refl) State.mbOk_does rfl

theorem execSpanSet_does {a1 o} : OutDoes 0x310c0000 o (execSpanSet a1 o) := by
  unfold execSpanSet
  refine State.onReq_does ?_ (fun y1 => ?_) rfl
  · exact Does.refl
  · extract_lets +onlyGivenNames x6 x7 x8 x9
    clear_value x6 x7 x8 x9
    refine Does.ite ?_ ?_
    · exact Does.trans Does.refl State.mbFail_does rfl
    · refine Does.ite ?_ ?_
      · exact Does.trans Does.refl State.mbFail_does rfl
      · refine Does.ite ?_ ?_
        · exact Does.trans Does.refl State.mbFail_does rfl
        · exact Does.trans (Does.modErh Does.refl) State.mbOk_does rfl

theorem execPortCtl_does {a1 o} : OutDoes 0x207bb1f6ff8 o (execPortCtl a1 o) := by
  unfold execPortCtl
  refine State.onReq_does ?_ (fun y1 => ?_) rfl
  · exact Does.refl
  · extract_lets +onlyGivenNames x6 x7
    clear_value x6 x7
    refine Does.ite ?_ ?_
    · exact Does.trans Does.refl State.mbFail_does rfl
    · refine Does.ite ?_ ?_
      · exact Does.trans Does.refl State.mbFail_does rfl
      · refine Does.trans ?_ State.mbOk_does rfl
        split
        · exact Does.trans Does.refl State.erhRetrainW_does rfl
        · exact Does.trans Does.refl State.erhForceW_does rfl
        · exact Does.trans Does.refl State.erhForceW_does rfl
        · exact Does.trans Does.refl State.erhRestoreW_does rfl
        · exact Does.trans Does.refl State.setRbit_does rfl
        · exact Does.trans Does.refl State.setRbit_does rfl

theorem execRouteWrite_does {a1 o} : OutDoes 0x1300c0010 o (execRouteWrite a1 o) := by
  unfold execRouteWrite
  refine State.onReq_does ?_ (fun y1 => ?_) rfl
  · exact Does.refl
  · extract_lets +onlyGivenNames x6 x7 x8 x9 x10
    clear_value x6 x7 x8 x9 x10
    refine Does.ite ?_ ?_
    · exact Does.trans Does.refl State.mbFail_does rfl
    · refine Does.ite ?_ ?_
      · exact Does.trans Does.refl State.mbFail_does rfl
      · refine Does.ite ?_ ?_
        · exact Does.trans Does.refl State.mbFail_does rfl
        · refine Does.ite ?_ ?_
          · exact Does.trans Does.refl State.mbFail_does rfl
          · refine Does.trans ?_ State.mbOk_does rfl
            refine Does.foldl ?_ fun r11 x12 h13 => ?_
            · exact Does.refl
            · extract_lets +onlyGivenNames x14 x15
              clear_value x14 x15
              exact Does.trans ‹_› State.erhBankWrite_does rfl

theorem execRouteCommit_does {a1 o} : OutDoes 0x310c0010 o (execRouteCommit a1 o) := by
  unfold execRouteCommit
  refine State.onReq_does ?_ (fun y1 => ?_) rfl
  · exact Does.refl
  · exact Does.trans (Does.trans (Does.trans Does.refl State.setRbit_does rfl) State.erhCommit_does rfl) State.mbOk_does rfl

theorem execGroupSet_does {a1 o} : OutDoes 0x320c0000 o (execGroupSet a1 o) := by
  unfold execGroupSet
  refine State.onReq_does ?_ (fun y1 => ?_) rfl
  · exact Does.refl
  · extract_lets +onlyGivenNames x6 x7 x8 x9 x10 x11
    clear_value x6 x7 x8 x9 x10 x11
    refine Does.ite ?_ ?_
    · exact Does.trans Does.refl State.mbFail_does rfl
    · refine Does.ite ?_ ?_
      · exact Does.trans Does.refl State.mbFail_does rfl
      · refine Does.ite ?_ ?_
        · exact Does.trans Does.refl State.mbFail_does rfl
        · refine Does.ite ?_ ?_
          · exact Does.trans Does.refl State.mbFail_does rfl
          · refine Does.ite ?_ ?_
            · exact Does.trans Does.refl State.mbFail_does rfl
            · refine Does.ite ?_ ?_
              · exact Does.trans Does.refl State.mbFail_does rfl
              · refine Does.ite ?_ ?_
                · exact Does.trans Does.refl State.mbFail_does rfl
                · exact Does.trans (Does.modErh Does.refl) State.mbOk_does rfl

theorem execDramMargin_does {a1 a2 a3 o} : OutDoes 0x700c0000 o (execDramMargin a1 a2 a3 o) := by
  unfold execDramMargin
  refine State.onReq_does ?_ (fun y1 => ?_) rfl
  · exact Does.refl
  · extract_lets +onlyGivenNames x6
    clear_value x6
    refine Does.ite ?_ ?_
    · exact Does.trans Does.refl State.mbFail_does rfl
    · split
      · exact Does.trans Does.refl State.bgBegin_does rfl
      · exact Does.trans Does.refl State.mbFail_does rfl

theorem execDramInit_does {a1 o} : OutDoes 0x700c0000 o (execDramInit a1 o) := by
  unfold execDramInit
  refine State.onReq_does ?_ (fun y1 => ?_) rfl
  · exact Does.refl
  · split
    · exact Does.trans Does.refl State.bgBegin_does rfl
    · exact Does.trans Does.refl State.mbFail_does rfl

theorem bgFwActivate_does {a1 o} : OutDoes 0x100700c0000 o (bgFwActivate a1 o) := by
  unfold bgFwActivate
  extract_lets +onlyGivenNames x1 x2
  clear_value x1 x2
  refine OutDoes.ite ?_ ?_
  · exact OutDoes.next (Does.trans (Does.modSec Does.refl) State.bgEnd_does rfl)
  · exact OutDoes.need (OutDoes.next (Does.modMbx (Does.modSec Does.refl)))

theorem execBgOperationEnd_does {a1 o} : OutDoes 0x18ffb7f7ff8 o (execBgOperationEnd a1 o) := by
  unfold execBgOperationEnd
  refine OutDoes.need (OutDoes.needSome fun a1 => ?_)
  split
  · exact OutDoes.after Does.refl bgWindow_does rfl
  · exact OutDoes.after Does.refl bgSpread_does rfl
  · exact OutDoes.after Does.refl bgFin_does rfl
  · exact OutDoes.after Does.refl bgBerthDestroy_does rfl
  · exact OutDoes.after Does.refl bgBerthReset_does rfl
  · exact OutDoes.after Does.refl bgHandover_does rfl
  · exact OutDoes.after Does.refl bgCargoOpen_does rfl
  · exact OutDoes.after Does.refl bgCargoSeal_does rfl
  · exact OutDoes.after Does.refl bgCargoUnload_does rfl
  · exact OutDoes.after Does.refl bgUnitRetire_does rfl
  · exact OutDoes.after Does.refl bgSnapshot_does rfl
  · exact OutDoes.after Does.refl bgFwActivate_does rfl
  · exact OutDoes.next (Does.trans Does.refl State.bgEnd_does rfl)
  · exact OutDoes.next (Does.trans Does.refl State.bgEnd_does rfl)
  · exact OutDoes.fault

theorem State.bgStop_does {o a2} : Does 0x180500c8018 o (State.bgStop o a2) := by
  unfold State.bgStop
  split
  · exact Does.trans (Does.trans Does.refl State.setAllDrop_does rfl) State.bgEnd_does rfl
  · exact Does.trans (Does.trans Does.refl State.setAllDrop_does rfl) State.bgEnd_does rfl
  · exact Does.trans (Does.trans Does.refl State.setAllDrop_does rfl) State.bgEnd_does rfl
  · refine Does.ite ?_ ?_
    · exact Does.trans Does.refl State.bgAux_does rfl
    · exact Does.trans Does.refl State.bgEnd_does rfl
  · exact Does.trans (Does.modSec Does.refl) State.bgEnd_does rfl
  · exact Does.trans Does.refl State.repairDone_does rfl
  · exact Does.trans Does.refl State.bgEnd_does rfl

theorem execBgAbort_does {a1 o} : OutDoes 0x180700c8018 o (execBgAbort a1 o) := by
  unfold execBgAbort
  refine State.onReq_does ?_ (fun y1 => ?_) rfl
  · exact Does.refl
  · split
    · refine Does.ite ?_ ?_
      · exact Does.trans Does.refl State.mbFail_does rfl
      · refine Does.ite ?_ ?_
        · exact Does.trans Does.refl State.mbFail_does rfl
        · exact Does.trans (Does.trans Does.refl State.bgStop_does rfl) State.mbOk_does rfl
    · exact Does.trans Does.refl State.mbFail_does rfl

theorem execFwActivate_does {a1 o} : OutDoes 0x100700c0000 o (execFwActivate a1 o) := by
  unfold execFwActivate
  refine State.onReq_does ?_ (fun y1 => ?_) rfl
  · exact Does.refl
  · refine Does.ite ?_ ?_
    · exact Does.trans Does.refl State.mbFail_does rfl
    · refine Does.ite ?_ ?_
      · exact Does.trans Does.refl State.mbFail_does rfl
      · refine Does.ite ?_ ?_
        · exact Does.trans Does.refl State.mbFail_does rfl
        · exact Does.trans (Does.modSec Does.refl) State.bgBegin_does rfl

theorem execDieRepair_does {a1 o} : OutDoes 0x700c0008 o (execDieRepair a1 o) := by
  unfold execDieRepair
  refine State.onReq_does ?_ (fun y1 => ?_) rfl
  · exact Does.refl
  · extract_lets +onlyGivenNames x6
    clear_value x6
    refine Does.ite ?_ ?_
    · exact Does.trans Does.refl State.mbFail_does rfl
    · split
      · exact Does.trans Does.refl State.mbFail_does rfl
      · exact Does.trans Does.refl State.mbFail_does rfl
      · refine Does.ite ?_ ?_
        · exact Does.trans Does.refl State.mbFail_does rfl
        · refine Does.ite ?_ ?_
          · exact Does.trans Does.refl State.mbFail_does rfl
          · extract_lets +onlyGivenNames x7
            clear_value x7
            exact Does.trans (Does.modPanel Does.refl) State.bgBegin_does rfl

theorem execFwStage_does {a1 o} : OutDoes 0x100300c0000 o (execFwStage a1 o) := by
  unfold execFwStage
  refine State.onReq_does ?_ (fun y1 => ?_) rfl
  · exact Does.refl
  · extract_lets +onlyGivenNames x6 x7 x8
    clear_value x6 x7 x8
    refine Does.ite ?_ ?_
    · exact Does.trans Does.refl State.mbFail_does rfl
    · exact Does.trans (Does.modSec Does.refl) State.mbOk_does rfl

theorem execFwQuery_does {a1 o} : OutDoes 0x300c0000 o (execFwQuery a1 o) := by
  unfold execFwQuery
  refine State.onReq_does ?_ (fun y1 => ?_) rfl
  · exact Does.refl
  · extract_lets +onlyGivenNames x6
    clear_value x6
    exact Does.trans Does.refl State.mbOk_does rfl

end Sys2Proof.Machine
end

