-- ==== Sys2Proof/Laws/State.lean ====
section
/-! SUPPORT. What each update of the state leaves in each field: one lemma per field per update, true by `rfl`. -/

set_option Elab.async false

namespace Sys2Proof.Machine

variable (s : State)

@[simp] theorem modClk_pending (f : ClockSt → ClockSt) : (s.modClk f).pending = s.pending := rfl
@[simp] theorem modClk_clk (f : ClockSt → ClockSt) : (s.modClk f).clk = f s.clk := rfl
@[simp] theorem modClk_panel (f : ClockSt → ClockSt) : (s.modClk f).panel = s.panel := rfl
@[simp] theorem modClk_regs (f : ClockSt → ClockSt) : (s.modClk f).regs = s.regs := rfl
@[simp] theorem modClk_mem (f : ClockSt → ClockSt) : (s.modClk f).mem = s.mem := rfl
@[simp] theorem modClk_basin (f : ClockSt → ClockSt) : (s.modClk f).basin = s.basin := rfl
@[simp] theorem modClk_eng (f : ClockSt → ClockSt) : (s.modClk f).eng = s.eng := rfl
@[simp] theorem modClk_thr (f : ClockSt → ClockSt) : (s.modClk f).thr = s.thr := rfl
@[simp] theorem modClk_lk (f : ClockSt → ClockSt) : (s.modClk f).lk = s.lk := rfl
@[simp] theorem modClk_bth (f : ClockSt → ClockSt) : (s.modClk f).bth = s.bth := rfl
@[simp] theorem modClk_cut (f : ClockSt → ClockSt) : (s.modClk f).cut = s.cut := rfl
@[simp] theorem modClk_erh (f : ClockSt → ClockSt) : (s.modClk f).erh = s.erh := rfl
@[simp] theorem modClk_cxl (f : ClockSt → ClockSt) : (s.modClk f).cxl = s.cxl := rfl
@[simp] theorem modClk_mbx (f : ClockSt → ClockSt) : (s.modClk f).mbx = s.mbx := rfl
@[simp] theorem modClk_rel (f : ClockSt → ClockSt) : (s.modClk f).rel = s.rel := rfl
@[simp] theorem modClk_pwr (f : ClockSt → ClockSt) : (s.modClk f).pwr = s.pwr := rfl
@[simp] theorem modClk_sec (f : ClockSt → ClockSt) : (s.modClk f).sec = s.sec := rfl
@[simp] theorem modClk_fresh (f : ClockSt → ClockSt) : (s.modClk f).fresh = s.fresh := rfl

@[simp] theorem modPanel_pending (f : PanelSt → PanelSt) : (s.modPanel f).pending = s.pending := rfl
@[simp] theorem modPanel_clk (f : PanelSt → PanelSt) : (s.modPanel f).clk = s.clk := rfl
@[simp] theorem modPanel_panel (f : PanelSt → PanelSt) : (s.modPanel f).panel = f s.panel := rfl
@[simp] theorem modPanel_regs (f : PanelSt → PanelSt) : (s.modPanel f).regs = s.regs := rfl
@[simp] theorem modPanel_mem (f : PanelSt → PanelSt) : (s.modPanel f).mem = s.mem := rfl
@[simp] theorem modPanel_basin (f : PanelSt → PanelSt) : (s.modPanel f).basin = s.basin := rfl
@[simp] theorem modPanel_eng (f : PanelSt → PanelSt) : (s.modPanel f).eng = s.eng := rfl
@[simp] theorem modPanel_thr (f : PanelSt → PanelSt) : (s.modPanel f).thr = s.thr := rfl
@[simp] theorem modPanel_lk (f : PanelSt → PanelSt) : (s.modPanel f).lk = s.lk := rfl
@[simp] theorem modPanel_bth (f : PanelSt → PanelSt) : (s.modPanel f).bth = s.bth := rfl
@[simp] theorem modPanel_cut (f : PanelSt → PanelSt) : (s.modPanel f).cut = s.cut := rfl
@[simp] theorem modPanel_erh (f : PanelSt → PanelSt) : (s.modPanel f).erh = s.erh := rfl
@[simp] theorem modPanel_cxl (f : PanelSt → PanelSt) : (s.modPanel f).cxl = s.cxl := rfl
@[simp] theorem modPanel_mbx (f : PanelSt → PanelSt) : (s.modPanel f).mbx = s.mbx := rfl
@[simp] theorem modPanel_rel (f : PanelSt → PanelSt) : (s.modPanel f).rel = s.rel := rfl
@[simp] theorem modPanel_pwr (f : PanelSt → PanelSt) : (s.modPanel f).pwr = s.pwr := rfl
@[simp] theorem modPanel_sec (f : PanelSt → PanelSt) : (s.modPanel f).sec = s.sec := rfl
@[simp] theorem modPanel_fresh (f : PanelSt → PanelSt) : (s.modPanel f).fresh = s.fresh := rfl

@[simp] theorem modMem_pending (f : MemSt → MemSt) : (s.modMem f).pending = s.pending := rfl
@[simp] theorem modMem_clk (f : MemSt → MemSt) : (s.modMem f).clk = s.clk := rfl
@[simp] theorem modMem_panel (f : MemSt → MemSt) : (s.modMem f).panel = s.panel := rfl
@[simp] theorem modMem_regs (f : MemSt → MemSt) : (s.modMem f).regs = s.regs := rfl
@[simp] theorem modMem_mem (f : MemSt → MemSt) : (s.modMem f).mem = f s.mem := rfl
@[simp] theorem modMem_basin (f : MemSt → MemSt) : (s.modMem f).basin = s.basin := rfl
@[simp] theorem modMem_eng (f : MemSt → MemSt) : (s.modMem f).eng = s.eng := rfl
@[simp] theorem modMem_thr (f : MemSt → MemSt) : (s.modMem f).thr = s.thr := rfl
@[simp] theorem modMem_lk (f : MemSt → MemSt) : (s.modMem f).lk = s.lk := rfl
@[simp] theorem modMem_bth (f : MemSt → MemSt) : (s.modMem f).bth = s.bth := rfl
@[simp] theorem modMem_cut (f : MemSt → MemSt) : (s.modMem f).cut = s.cut := rfl
@[simp] theorem modMem_erh (f : MemSt → MemSt) : (s.modMem f).erh = s.erh := rfl
@[simp] theorem modMem_cxl (f : MemSt → MemSt) : (s.modMem f).cxl = s.cxl := rfl
@[simp] theorem modMem_mbx (f : MemSt → MemSt) : (s.modMem f).mbx = s.mbx := rfl
@[simp] theorem modMem_rel (f : MemSt → MemSt) : (s.modMem f).rel = s.rel := rfl
@[simp] theorem modMem_pwr (f : MemSt → MemSt) : (s.modMem f).pwr = s.pwr := rfl
@[simp] theorem modMem_sec (f : MemSt → MemSt) : (s.modMem f).sec = s.sec := rfl
@[simp] theorem modMem_fresh (f : MemSt → MemSt) : (s.modMem f).fresh = s.fresh := rfl

@[simp] theorem modBasin_pending (f : BasinSt → BasinSt) : (s.modBasin f).pending = s.pending := rfl
@[simp] theorem modBasin_clk (f : BasinSt → BasinSt) : (s.modBasin f).clk = s.clk := rfl
@[simp] theorem modBasin_panel (f : BasinSt → BasinSt) : (s.modBasin f).panel = s.panel := rfl
@[simp] theorem modBasin_regs (f : BasinSt → BasinSt) : (s.modBasin f).regs = s.regs := rfl
@[simp] theorem modBasin_mem (f : BasinSt → BasinSt) : (s.modBasin f).mem = s.mem := rfl
@[simp] theorem modBasin_basin (f : BasinSt → BasinSt) : (s.modBasin f).basin = f s.basin := rfl
@[simp] theorem modBasin_eng (f : BasinSt → BasinSt) : (s.modBasin f).eng = s.eng := rfl
@[simp] theorem modBasin_thr (f : BasinSt → BasinSt) : (s.modBasin f).thr = s.thr := rfl
@[simp] theorem modBasin_lk (f : BasinSt → BasinSt) : (s.modBasin f).lk = s.lk := rfl
@[simp] theorem modBasin_bth (f : BasinSt → BasinSt) : (s.modBasin f).bth = s.bth := rfl
@[simp] theorem modBasin_cut (f : BasinSt → BasinSt) : (s.modBasin f).cut = s.cut := rfl
@[simp] theorem modBasin_erh (f : BasinSt → BasinSt) : (s.modBasin f).erh = s.erh := rfl
@[simp] theorem modBasin_cxl (f : BasinSt → BasinSt) : (s.modBasin f).cxl = s.cxl := rfl
@[simp] theorem modBasin_mbx (f : BasinSt → BasinSt) : (s.modBasin f).mbx = s.mbx := rfl
@[simp] theorem modBasin_rel (f : BasinSt → BasinSt) : (s.modBasin f).rel = s.rel := rfl
@[simp] theorem modBasin_pwr (f : BasinSt → BasinSt) : (s.modBasin f).pwr = s.pwr := rfl
@[simp] theorem modBasin_sec (f : BasinSt → BasinSt) : (s.modBasin f).sec = s.sec := rfl
@[simp] theorem modBasin_fresh (f : BasinSt → BasinSt) : (s.modBasin f).fresh = s.fresh := rfl

@[simp] theorem modEng_pending (f : EngineSt → EngineSt) : (s.modEng f).pending = s.pending := rfl
@[simp] theorem modEng_clk (f : EngineSt → EngineSt) : (s.modEng f).clk = s.clk := rfl
@[simp] theorem modEng_panel (f : EngineSt → EngineSt) : (s.modEng f).panel = s.panel := rfl
@[simp] theorem modEng_regs (f : EngineSt → EngineSt) : (s.modEng f).regs = s.regs := rfl
@[simp] theorem modEng_mem (f : EngineSt → EngineSt) : (s.modEng f).mem = s.mem := rfl
@[simp] theorem modEng_basin (f : EngineSt → EngineSt) : (s.modEng f).basin = s.basin := rfl
@[simp] theorem modEng_eng (f : EngineSt → EngineSt) : (s.modEng f).eng = f s.eng := rfl
@[simp] theorem modEng_thr (f : EngineSt → EngineSt) : (s.modEng f).thr = s.thr := rfl
@[simp] theorem modEng_lk (f : EngineSt → EngineSt) : (s.modEng f).lk = s.lk := rfl
@[simp] theorem modEng_bth (f : EngineSt → EngineSt) : (s.modEng f).bth = s.bth := rfl
@[simp] theorem modEng_cut (f : EngineSt → EngineSt) : (s.modEng f).cut = s.cut := rfl
@[simp] theorem modEng_erh (f : EngineSt → EngineSt) : (s.modEng f).erh = s.erh := rfl
@[simp] theorem modEng_cxl (f : EngineSt → EngineSt) : (s.modEng f).cxl = s.cxl := rfl
@[simp] theorem modEng_mbx (f : EngineSt → EngineSt) : (s.modEng f).mbx = s.mbx := rfl
@[simp] theorem modEng_rel (f : EngineSt → EngineSt) : (s.modEng f).rel = s.rel := rfl
@[simp] theorem modEng_pwr (f : EngineSt → EngineSt) : (s.modEng f).pwr = s.pwr := rfl
@[simp] theorem modEng_sec (f : EngineSt → EngineSt) : (s.modEng f).sec = s.sec := rfl
@[simp] theorem modEng_fresh (f : EngineSt → EngineSt) : (s.modEng f).fresh = s.fresh := rfl

@[simp] theorem modThr_pending (f : ThreadSt → ThreadSt) : (s.modThr f).pending = s.pending := rfl
@[simp] theorem modThr_clk (f : ThreadSt → ThreadSt) : (s.modThr f).clk = s.clk := rfl
@[simp] theorem modThr_panel (f : ThreadSt → ThreadSt) : (s.modThr f).panel = s.panel := rfl
@[simp] theorem modThr_regs (f : ThreadSt → ThreadSt) : (s.modThr f).regs = s.regs := rfl
@[simp] theorem modThr_mem (f : ThreadSt → ThreadSt) : (s.modThr f).mem = s.mem := rfl
@[simp] theorem modThr_basin (f : ThreadSt → ThreadSt) : (s.modThr f).basin = s.basin := rfl
@[simp] theorem modThr_eng (f : ThreadSt → ThreadSt) : (s.modThr f).eng = s.eng := rfl
@[simp] theorem modThr_thr (f : ThreadSt → ThreadSt) : (s.modThr f).thr = f s.thr := rfl
@[simp] theorem modThr_lk (f : ThreadSt → ThreadSt) : (s.modThr f).lk = s.lk := rfl
@[simp] theorem modThr_bth (f : ThreadSt → ThreadSt) : (s.modThr f).bth = s.bth := rfl
@[simp] theorem modThr_cut (f : ThreadSt → ThreadSt) : (s.modThr f).cut = s.cut := rfl
@[simp] theorem modThr_erh (f : ThreadSt → ThreadSt) : (s.modThr f).erh = s.erh := rfl
@[simp] theorem modThr_cxl (f : ThreadSt → ThreadSt) : (s.modThr f).cxl = s.cxl := rfl
@[simp] theorem modThr_mbx (f : ThreadSt → ThreadSt) : (s.modThr f).mbx = s.mbx := rfl
@[simp] theorem modThr_rel (f : ThreadSt → ThreadSt) : (s.modThr f).rel = s.rel := rfl
@[simp] theorem modThr_pwr (f : ThreadSt → ThreadSt) : (s.modThr f).pwr = s.pwr := rfl
@[simp] theorem modThr_sec (f : ThreadSt → ThreadSt) : (s.modThr f).sec = s.sec := rfl
@[simp] theorem modThr_fresh (f : ThreadSt → ThreadSt) : (s.modThr f).fresh = s.fresh := rfl

@[simp] theorem modLk_pending (f : LockSt → LockSt) : (s.modLk f).pending = s.pending := rfl
@[simp] theorem modLk_clk (f : LockSt → LockSt) : (s.modLk f).clk = s.clk := rfl
@[simp] theorem modLk_panel (f : LockSt → LockSt) : (s.modLk f).panel = s.panel := rfl
@[simp] theorem modLk_regs (f : LockSt → LockSt) : (s.modLk f).regs = s.regs := rfl
@[simp] theorem modLk_mem (f : LockSt → LockSt) : (s.modLk f).mem = s.mem := rfl
@[simp] theorem modLk_basin (f : LockSt → LockSt) : (s.modLk f).basin = s.basin := rfl
@[simp] theorem modLk_eng (f : LockSt → LockSt) : (s.modLk f).eng = s.eng := rfl
@[simp] theorem modLk_thr (f : LockSt → LockSt) : (s.modLk f).thr = s.thr := rfl
@[simp] theorem modLk_lk (f : LockSt → LockSt) : (s.modLk f).lk = f s.lk := rfl
@[simp] theorem modLk_bth (f : LockSt → LockSt) : (s.modLk f).bth = s.bth := rfl
@[simp] theorem modLk_cut (f : LockSt → LockSt) : (s.modLk f).cut = s.cut := rfl
@[simp] theorem modLk_erh (f : LockSt → LockSt) : (s.modLk f).erh = s.erh := rfl
@[simp] theorem modLk_cxl (f : LockSt → LockSt) : (s.modLk f).cxl = s.cxl := rfl
@[simp] theorem modLk_mbx (f : LockSt → LockSt) : (s.modLk f).mbx = s.mbx := rfl
@[simp] theorem modLk_rel (f : LockSt → LockSt) : (s.modLk f).rel = s.rel := rfl
@[simp] theorem modLk_pwr (f : LockSt → LockSt) : (s.modLk f).pwr = s.pwr := rfl
@[simp] theorem modLk_sec (f : LockSt → LockSt) : (s.modLk f).sec = s.sec := rfl
@[simp] theorem modLk_fresh (f : LockSt → LockSt) : (s.modLk f).fresh = s.fresh := rfl

@[simp] theorem modBth_pending (f : BerthSt → BerthSt) : (s.modBth f).pending = s.pending := rfl
@[simp] theorem modBth_clk (f : BerthSt → BerthSt) : (s.modBth f).clk = s.clk := rfl
@[simp] theorem modBth_panel (f : BerthSt → BerthSt) : (s.modBth f).panel = s.panel := rfl
@[simp] theorem modBth_regs (f : BerthSt → BerthSt) : (s.modBth f).regs = s.regs := rfl
@[simp] theorem modBth_mem (f : BerthSt → BerthSt) : (s.modBth f).mem = s.mem := rfl
@[simp] theorem modBth_basin (f : BerthSt → BerthSt) : (s.modBth f).basin = s.basin := rfl
@[simp] theorem modBth_eng (f : BerthSt → BerthSt) : (s.modBth f).eng = s.eng := rfl
@[simp] theorem modBth_thr (f : BerthSt → BerthSt) : (s.modBth f).thr = s.thr := rfl
@[simp] theorem modBth_lk (f : BerthSt → BerthSt) : (s.modBth f).lk = s.lk := rfl
@[simp] theorem modBth_bth (f : BerthSt → BerthSt) : (s.modBth f).bth = f s.bth := rfl
@[simp] theorem modBth_cut (f : BerthSt → BerthSt) : (s.modBth f).cut = s.cut := rfl
@[simp] theorem modBth_erh (f : BerthSt → BerthSt) : (s.modBth f).erh = s.erh := rfl
@[simp] theorem modBth_cxl (f : BerthSt → BerthSt) : (s.modBth f).cxl = s.cxl := rfl
@[simp] theorem modBth_mbx (f : BerthSt → BerthSt) : (s.modBth f).mbx = s.mbx := rfl
@[simp] theorem modBth_rel (f : BerthSt → BerthSt) : (s.modBth f).rel = s.rel := rfl
@[simp] theorem modBth_pwr (f : BerthSt → BerthSt) : (s.modBth f).pwr = s.pwr := rfl
@[simp] theorem modBth_sec (f : BerthSt → BerthSt) : (s.modBth f).sec = s.sec := rfl
@[simp] theorem modBth_fresh (f : BerthSt → BerthSt) : (s.modBth f).fresh = s.fresh := rfl

@[simp] theorem modCut_pending (f : CutSt → CutSt) : (s.modCut f).pending = s.pending := rfl
@[simp] theorem modCut_clk (f : CutSt → CutSt) : (s.modCut f).clk = s.clk := rfl
@[simp] theorem modCut_panel (f : CutSt → CutSt) : (s.modCut f).panel = s.panel := rfl
@[simp] theorem modCut_regs (f : CutSt → CutSt) : (s.modCut f).regs = s.regs := rfl
@[simp] theorem modCut_mem (f : CutSt → CutSt) : (s.modCut f).mem = s.mem := rfl
@[simp] theorem modCut_basin (f : CutSt → CutSt) : (s.modCut f).basin = s.basin := rfl
@[simp] theorem modCut_eng (f : CutSt → CutSt) : (s.modCut f).eng = s.eng := rfl
@[simp] theorem modCut_thr (f : CutSt → CutSt) : (s.modCut f).thr = s.thr := rfl
@[simp] theorem modCut_lk (f : CutSt → CutSt) : (s.modCut f).lk = s.lk := rfl
@[simp] theorem modCut_bth (f : CutSt → CutSt) : (s.modCut f).bth = s.bth := rfl
@[simp] theorem modCut_cut (f : CutSt → CutSt) : (s.modCut f).cut = f s.cut := rfl
@[simp] theorem modCut_erh (f : CutSt → CutSt) : (s.modCut f).erh = s.erh := rfl
@[simp] theorem modCut_cxl (f : CutSt → CutSt) : (s.modCut f).cxl = s.cxl := rfl
@[simp] theorem modCut_mbx (f : CutSt → CutSt) : (s.modCut f).mbx = s.mbx := rfl
@[simp] theorem modCut_rel (f : CutSt → CutSt) : (s.modCut f).rel = s.rel := rfl
@[simp] theorem modCut_pwr (f : CutSt → CutSt) : (s.modCut f).pwr = s.pwr := rfl
@[simp] theorem modCut_sec (f : CutSt → CutSt) : (s.modCut f).sec = s.sec := rfl
@[simp] theorem modCut_fresh (f : CutSt → CutSt) : (s.modCut f).fresh = s.fresh := rfl

@[simp] theorem modErh_pending (f : ErhSt → ErhSt) : (s.modErh f).pending = s.pending := rfl
@[simp] theorem modErh_clk (f : ErhSt → ErhSt) : (s.modErh f).clk = s.clk := rfl
@[simp] theorem modErh_panel (f : ErhSt → ErhSt) : (s.modErh f).panel = s.panel := rfl
@[simp] theorem modErh_regs (f : ErhSt → ErhSt) : (s.modErh f).regs = s.regs := rfl
@[simp] theorem modErh_mem (f : ErhSt → ErhSt) : (s.modErh f).mem = s.mem := rfl
@[simp] theorem modErh_basin (f : ErhSt → ErhSt) : (s.modErh f).basin = s.basin := rfl
@[simp] theorem modErh_eng (f : ErhSt → ErhSt) : (s.modErh f).eng = s.eng := rfl
@[simp] theorem modErh_thr (f : ErhSt → ErhSt) : (s.modErh f).thr = s.thr := rfl
@[simp] theorem modErh_lk (f : ErhSt → ErhSt) : (s.modErh f).lk = s.lk := rfl
@[simp] theorem modErh_bth (f : ErhSt → ErhSt) : (s.modErh f).bth = s.bth := rfl
@[simp] theorem modErh_cut (f : ErhSt → ErhSt) : (s.modErh f).cut = s.cut := rfl
@[simp] theorem modErh_erh (f : ErhSt → ErhSt) : (s.modErh f).erh = f s.erh := rfl
@[simp] theorem modErh_cxl (f : ErhSt → ErhSt) : (s.modErh f).cxl = s.cxl := rfl
@[simp] theorem modErh_mbx (f : ErhSt → ErhSt) : (s.modErh f).mbx = s.mbx := rfl
@[simp] theorem modErh_rel (f : ErhSt → ErhSt) : (s.modErh f).rel = s.rel := rfl
@[simp] theorem modErh_pwr (f : ErhSt → ErhSt) : (s.modErh f).pwr = s.pwr := rfl
@[simp] theorem modErh_sec (f : ErhSt → ErhSt) : (s.modErh f).sec = s.sec := rfl
@[simp] theorem modErh_fresh (f : ErhSt → ErhSt) : (s.modErh f).fresh = s.fresh := rfl

@[simp] theorem modCxl_pending (f : CxlSt → CxlSt) : (s.modCxl f).pending = s.pending := rfl
@[simp] theorem modCxl_clk (f : CxlSt → CxlSt) : (s.modCxl f).clk = s.clk := rfl
@[simp] theorem modCxl_panel (f : CxlSt → CxlSt) : (s.modCxl f).panel = s.panel := rfl
@[simp] theorem modCxl_regs (f : CxlSt → CxlSt) : (s.modCxl f).regs = s.regs := rfl
@[simp] theorem modCxl_mem (f : CxlSt → CxlSt) : (s.modCxl f).mem = s.mem := rfl
@[simp] theorem modCxl_basin (f : CxlSt → CxlSt) : (s.modCxl f).basin = s.basin := rfl
@[simp] theorem modCxl_eng (f : CxlSt → CxlSt) : (s.modCxl f).eng = s.eng := rfl
@[simp] theorem modCxl_thr (f : CxlSt → CxlSt) : (s.modCxl f).thr = s.thr := rfl
@[simp] theorem modCxl_lk (f : CxlSt → CxlSt) : (s.modCxl f).lk = s.lk := rfl
@[simp] theorem modCxl_bth (f : CxlSt → CxlSt) : (s.modCxl f).bth = s.bth := rfl
@[simp] theorem modCxl_cut (f : CxlSt → CxlSt) : (s.modCxl f).cut = s.cut := rfl
@[simp] theorem modCxl_erh (f : CxlSt → CxlSt) : (s.modCxl f).erh = s.erh := rfl
@[simp] theorem modCxl_cxl (f : CxlSt → CxlSt) : (s.modCxl f).cxl = f s.cxl := rfl
@[simp] theorem modCxl_mbx (f : CxlSt → CxlSt) : (s.modCxl f).mbx = s.mbx := rfl
@[simp] theorem modCxl_rel (f : CxlSt → CxlSt) : (s.modCxl f).rel = s.rel := rfl
@[simp] theorem modCxl_pwr (f : CxlSt → CxlSt) : (s.modCxl f).pwr = s.pwr := rfl
@[simp] theorem modCxl_sec (f : CxlSt → CxlSt) : (s.modCxl f).sec = s.sec := rfl
@[simp] theorem modCxl_fresh (f : CxlSt → CxlSt) : (s.modCxl f).fresh = s.fresh := rfl

@[simp] theorem modMbx_pending (f : MbSt → MbSt) : (s.modMbx f).pending = s.pending := rfl
@[simp] theorem modMbx_clk (f : MbSt → MbSt) : (s.modMbx f).clk = s.clk := rfl
@[simp] theorem modMbx_panel (f : MbSt → MbSt) : (s.modMbx f).panel = s.panel := rfl
@[simp] theorem modMbx_regs (f : MbSt → MbSt) : (s.modMbx f).regs = s.regs := rfl
@[simp] theorem modMbx_mem (f : MbSt → MbSt) : (s.modMbx f).mem = s.mem := rfl
@[simp] theorem modMbx_basin (f : MbSt → MbSt) : (s.modMbx f).basin = s.basin := rfl
@[simp] theorem modMbx_eng (f : MbSt → MbSt) : (s.modMbx f).eng = s.eng := rfl
@[simp] theorem modMbx_thr (f : MbSt → MbSt) : (s.modMbx f).thr = s.thr := rfl
@[simp] theorem modMbx_lk (f : MbSt → MbSt) : (s.modMbx f).lk = s.lk := rfl
@[simp] theorem modMbx_bth (f : MbSt → MbSt) : (s.modMbx f).bth = s.bth := rfl
@[simp] theorem modMbx_cut (f : MbSt → MbSt) : (s.modMbx f).cut = s.cut := rfl
@[simp] theorem modMbx_erh (f : MbSt → MbSt) : (s.modMbx f).erh = s.erh := rfl
@[simp] theorem modMbx_cxl (f : MbSt → MbSt) : (s.modMbx f).cxl = s.cxl := rfl
@[simp] theorem modMbx_mbx (f : MbSt → MbSt) : (s.modMbx f).mbx = f s.mbx := rfl
@[simp] theorem modMbx_rel (f : MbSt → MbSt) : (s.modMbx f).rel = s.rel := rfl
@[simp] theorem modMbx_pwr (f : MbSt → MbSt) : (s.modMbx f).pwr = s.pwr := rfl
@[simp] theorem modMbx_sec (f : MbSt → MbSt) : (s.modMbx f).sec = s.sec := rfl
@[simp] theorem modMbx_fresh (f : MbSt → MbSt) : (s.modMbx f).fresh = s.fresh := rfl

@[simp] theorem modRel_pending (f : RelSt → RelSt) : (s.modRel f).pending = s.pending := rfl
@[simp] theorem modRel_clk (f : RelSt → RelSt) : (s.modRel f).clk = s.clk := rfl
@[simp] theorem modRel_panel (f : RelSt → RelSt) : (s.modRel f).panel = s.panel := rfl
@[simp] theorem modRel_regs (f : RelSt → RelSt) : (s.modRel f).regs = s.regs := rfl
@[simp] theorem modRel_mem (f : RelSt → RelSt) : (s.modRel f).mem = s.mem := rfl
@[simp] theorem modRel_basin (f : RelSt → RelSt) : (s.modRel f).basin = s.basin := rfl
@[simp] theorem modRel_eng (f : RelSt → RelSt) : (s.modRel f).eng = s.eng := rfl
@[simp] theorem modRel_thr (f : RelSt → RelSt) : (s.modRel f).thr = s.thr := rfl
@[simp] theorem modRel_lk (f : RelSt → RelSt) : (s.modRel f).lk = s.lk := rfl
@[simp] theorem modRel_bth (f : RelSt → RelSt) : (s.modRel f).bth = s.bth := rfl
@[simp] theorem modRel_cut (f : RelSt → RelSt) : (s.modRel f).cut = s.cut := rfl
@[simp] theorem modRel_erh (f : RelSt → RelSt) : (s.modRel f).erh = s.erh := rfl
@[simp] theorem modRel_cxl (f : RelSt → RelSt) : (s.modRel f).cxl = s.cxl := rfl
@[simp] theorem modRel_mbx (f : RelSt → RelSt) : (s.modRel f).mbx = s.mbx := rfl
@[simp] theorem modRel_rel (f : RelSt → RelSt) : (s.modRel f).rel = f s.rel := rfl
@[simp] theorem modRel_pwr (f : RelSt → RelSt) : (s.modRel f).pwr = s.pwr := rfl
@[simp] theorem modRel_sec (f : RelSt → RelSt) : (s.modRel f).sec = s.sec := rfl
@[simp] theorem modRel_fresh (f : RelSt → RelSt) : (s.modRel f).fresh = s.fresh := rfl

@[simp] theorem modPwr_pending (f : PowerSt → PowerSt) : (s.modPwr f).pending = s.pending := rfl
@[simp] theorem modPwr_clk (f : PowerSt → PowerSt) : (s.modPwr f).clk = s.clk := rfl
@[simp] theorem modPwr_panel (f : PowerSt → PowerSt) : (s.modPwr f).panel = s.panel := rfl
@[simp] theorem modPwr_regs (f : PowerSt → PowerSt) : (s.modPwr f).regs = s.regs := rfl
@[simp] theorem modPwr_mem (f : PowerSt → PowerSt) : (s.modPwr f).mem = s.mem := rfl
@[simp] theorem modPwr_basin (f : PowerSt → PowerSt) : (s.modPwr f).basin = s.basin := rfl
@[simp] theorem modPwr_eng (f : PowerSt → PowerSt) : (s.modPwr f).eng = s.eng := rfl
@[simp] theorem modPwr_thr (f : PowerSt → PowerSt) : (s.modPwr f).thr = s.thr := rfl
@[simp] theorem modPwr_lk (f : PowerSt → PowerSt) : (s.modPwr f).lk = s.lk := rfl
@[simp] theorem modPwr_bth (f : PowerSt → PowerSt) : (s.modPwr f).bth = s.bth := rfl
@[simp] theorem modPwr_cut (f : PowerSt → PowerSt) : (s.modPwr f).cut = s.cut := rfl
@[simp] theorem modPwr_erh (f : PowerSt → PowerSt) : (s.modPwr f).erh = s.erh := rfl
@[simp] theorem modPwr_cxl (f : PowerSt → PowerSt) : (s.modPwr f).cxl = s.cxl := rfl
@[simp] theorem modPwr_mbx (f : PowerSt → PowerSt) : (s.modPwr f).mbx = s.mbx := rfl
@[simp] theorem modPwr_rel (f : PowerSt → PowerSt) : (s.modPwr f).rel = s.rel := rfl
@[simp] theorem modPwr_pwr (f : PowerSt → PowerSt) : (s.modPwr f).pwr = f s.pwr := rfl
@[simp] theorem modPwr_sec (f : PowerSt → PowerSt) : (s.modPwr f).sec = s.sec := rfl
@[simp] theorem modPwr_fresh (f : PowerSt → PowerSt) : (s.modPwr f).fresh = s.fresh := rfl

@[simp] theorem modSec_pending (f : SecSt → SecSt) : (s.modSec f).pending = s.pending := rfl
@[simp] theorem modSec_clk (f : SecSt → SecSt) : (s.modSec f).clk = s.clk := rfl
@[simp] theorem modSec_panel (f : SecSt → SecSt) : (s.modSec f).panel = s.panel := rfl
@[simp] theorem modSec_regs (f : SecSt → SecSt) : (s.modSec f).regs = s.regs := rfl
@[simp] theorem modSec_mem (f : SecSt → SecSt) : (s.modSec f).mem = s.mem := rfl
@[simp] theorem modSec_basin (f : SecSt → SecSt) : (s.modSec f).basin = s.basin := rfl
@[simp] theorem modSec_eng (f : SecSt → SecSt) : (s.modSec f).eng = s.eng := rfl
@[simp] theorem modSec_thr (f : SecSt → SecSt) : (s.modSec f).thr = s.thr := rfl
@[simp] theorem modSec_lk (f : SecSt → SecSt) : (s.modSec f).lk = s.lk := rfl
@[simp] theorem modSec_bth (f : SecSt → SecSt) : (s.modSec f).bth = s.bth := rfl
@[simp] theorem modSec_cut (f : SecSt → SecSt) : (s.modSec f).cut = s.cut := rfl
@[simp] theorem modSec_erh (f : SecSt → SecSt) : (s.modSec f).erh = s.erh := rfl
@[simp] theorem modSec_cxl (f : SecSt → SecSt) : (s.modSec f).cxl = s.cxl := rfl
@[simp] theorem modSec_mbx (f : SecSt → SecSt) : (s.modSec f).mbx = s.mbx := rfl
@[simp] theorem modSec_rel (f : SecSt → SecSt) : (s.modSec f).rel = s.rel := rfl
@[simp] theorem modSec_pwr (f : SecSt → SecSt) : (s.modSec f).pwr = s.pwr := rfl
@[simp] theorem modSec_sec (f : SecSt → SecSt) : (s.modSec f).sec = f s.sec := rfl
@[simp] theorem modSec_fresh (f : SecSt → SecSt) : (s.modSec f).fresh = s.fresh := rfl

@[simp] theorem drawn_pending (n : Nat) : (s.drawn n).pending = s.pending := rfl
@[simp] theorem drawn_clk (n : Nat) : (s.drawn n).clk = s.clk := rfl
@[simp] theorem drawn_panel (n : Nat) : (s.drawn n).panel = s.panel := rfl
@[simp] theorem drawn_regs (n : Nat) : (s.drawn n).regs = s.regs := rfl
@[simp] theorem drawn_mem (n : Nat) : (s.drawn n).mem = s.mem := rfl
@[simp] theorem drawn_basin (n : Nat) : (s.drawn n).basin = s.basin := rfl
@[simp] theorem drawn_eng (n : Nat) : (s.drawn n).eng = s.eng := rfl
@[simp] theorem drawn_thr (n : Nat) : (s.drawn n).thr = s.thr := rfl
@[simp] theorem drawn_lk (n : Nat) : (s.drawn n).lk = s.lk := rfl
@[simp] theorem drawn_bth (n : Nat) : (s.drawn n).bth = s.bth := rfl
@[simp] theorem drawn_cut (n : Nat) : (s.drawn n).cut = s.cut := rfl
@[simp] theorem drawn_erh (n : Nat) : (s.drawn n).erh = s.erh := rfl
@[simp] theorem drawn_cxl (n : Nat) : (s.drawn n).cxl = s.cxl := rfl
@[simp] theorem drawn_mbx (n : Nat) : (s.drawn n).mbx = s.mbx := rfl
@[simp] theorem drawn_rel (n : Nat) : (s.drawn n).rel = s.rel := rfl
@[simp] theorem drawn_pwr (n : Nat) : (s.drawn n).pwr = s.pwr := rfl
@[simp] theorem drawn_sec (n : Nat) : (s.drawn n).sec = s.sec := rfl
@[simp] theorem drawn_fresh (n : Nat) : (s.drawn n).fresh = s.fresh + n := rfl

@[simp] theorem setReg_pending (a : Nat) (v : Word) : (s.setReg a v).pending = s.pending := rfl
@[simp] theorem setReg_clk (a : Nat) (v : Word) : (s.setReg a v).clk = s.clk := rfl
@[simp] theorem setReg_panel (a : Nat) (v : Word) : (s.setReg a v).panel = s.panel := rfl
@[simp] theorem setReg_mem (a : Nat) (v : Word) : (s.setReg a v).mem = s.mem := rfl
@[simp] theorem setReg_basin (a : Nat) (v : Word) : (s.setReg a v).basin = s.basin := rfl
@[simp] theorem setReg_eng (a : Nat) (v : Word) : (s.setReg a v).eng = s.eng := rfl
@[simp] theorem setReg_thr (a : Nat) (v : Word) : (s.setReg a v).thr = s.thr := rfl
@[simp] theorem setReg_lk (a : Nat) (v : Word) : (s.setReg a v).lk = s.lk := rfl
@[simp] theorem setReg_bth (a : Nat) (v : Word) : (s.setReg a v).bth = s.bth := rfl
@[simp] theorem setReg_cut (a : Nat) (v : Word) : (s.setReg a v).cut = s.cut := rfl
@[simp] theorem setReg_erh (a : Nat) (v : Word) : (s.setReg a v).erh = s.erh := rfl
@[simp] theorem setReg_cxl (a : Nat) (v : Word) : (s.setReg a v).cxl = s.cxl := rfl
@[simp] theorem setReg_mbx (a : Nat) (v : Word) : (s.setReg a v).mbx = s.mbx := rfl
@[simp] theorem setReg_rel (a : Nat) (v : Word) : (s.setReg a v).rel = s.rel := rfl
@[simp] theorem setReg_pwr (a : Nat) (v : Word) : (s.setReg a v).pwr = s.pwr := rfl
@[simp] theorem setReg_sec (a : Nat) (v : Word) : (s.setReg a v).sec = s.sec := rfl
@[simp] theorem setReg_fresh (a : Nat) (v : Word) : (s.setReg a v).fresh = s.fresh := rfl

end Sys2Proof.Machine
end

section
/-! PROOFS. Long-sums and block scales (chapter 2): what adding long-sums gives (R38, R39, Table 2.3), and what a scale code
stands for (R29). -/

namespace Sys2Proof.Machine

/-! ## Numbers as bits -/

/-- Bits whose signed value is a number's read as that number (R37). -/
theorem LS.ofBits_of_isNumber {w : BitVec 128} (h : w.toInt.natAbs ≤ 2 ^ 127 - 16) : LS.ofBits w = .num w.toInt := by
  have hw : -lsMax ≤ w.toInt ∧ w.toInt ≤ lsMax := by
    simp only [lsMax]
    omega
  simp only [LS.ofBits, if_pos hw]

/-- A number is kept by its bits. -/
theorem LS.toInt_bits_num {v : Int} (h : v.natAbs ≤ 2 ^ 127 - 16) : (LS.num v).bits.toInt = v := by
  simp only [LS.bits, BitVec.toInt_ofInt]
  exact Int.bmod_eq_of_le (by omega) (by omega)

/-! ## The sum of two numbers (R38) -/

theorem LS.ofSum_of_isNumber {v : Int} (h : v.natAbs ≤ 2 ^ 127 - 16) : LS.ofSum v = (.num v, 0) :=
  if_pos (by simp only [lsMax]; omega)

theorem LS.ofSum_of_gt {v : Int} (h : 2 ^ 127 - 16 < v) : LS.ofSum v = (.povf, flagAccOvf) := by
  have hout : ¬(-lsMax ≤ v ∧ v ≤ lsMax) := by
    simp only [lsMax]
    omega
  have hpos : ¬v < 0 := by omega
  simp only [LS.ofSum, if_neg hout, if_neg hpos]

theorem LS.ofSum_of_lt {v : Int} (h : v < -(2 ^ 127 - 16)) : LS.ofSum v = (.novf, flagAccOvf) := by
  have hout : ¬(-lsMax ≤ v ∧ v ≤ lsMax) := by
    simp only [lsMax]
    omega
  have hneg : v < 0 := by omega
  simp only [LS.ofSum, if_neg hout, if_pos hneg]

/-- On the bits of two numbers the addition is that of their integers. -/
theorem lsAddBits_of_isNumber {a b : BitVec 128} (ha : a.toInt.natAbs ≤ 2 ^ 127 - 16)
    (hb : b.toInt.natAbs ≤ 2 ^ 127 - 16) :
    lsAddBits a b = ((LS.ofSum (a.toInt + b.toInt)).1.bits, (LS.ofSum (a.toInt + b.toInt)).2) := by
  simp only [lsAddBits, LS.ofBits_of_isNumber ha, LS.ofBits_of_isNumber hb, LS.add]

/-- R38, by where the exact sum lies. -/
theorem lsAddBits_exact_or_overflowed {a b : BitVec 128} (ha : a.toInt.natAbs ≤ 2 ^ 127 - 16)
    (hb : b.toInt.natAbs ≤ 2 ^ 127 - 16) :
    (a.toInt + b.toInt).natAbs ≤ 2 ^ 127 - 16 ∧ (lsAddBits a b).1.toInt = a.toInt + b.toInt ∧ (lsAddBits a b).2 = 0 ∨
    2 ^ 127 - 16 < a.toInt + b.toInt ∧ lsAddBits a b = (LS.povf.bits, flagAccOvf) ∨
    a.toInt + b.toInt < -(2 ^ 127 - 16) ∧ lsAddBits a b = (LS.novf.bits, flagAccOvf) := by
  rw [lsAddBits_of_isNumber ha hb]
  generalize a.toInt + b.toInt = v
  have hv : v.natAbs ≤ 2 ^ 127 - 16 ∨ 2 ^ 127 - 16 < v ∨ v < -(2 ^ 127 - 16) := by omega
  obtain hnum | hgt | hlt := hv
  · exact .inl ⟨hnum, by rw [LS.ofSum_of_isNumber hnum, LS.toInt_bits_num hnum], by rw [LS.ofSum_of_isNumber hnum]⟩
  · exact .inr (.inl ⟨hgt, by rw [LS.ofSum_of_gt hgt]⟩)
  · exact .inr (.inr ⟨hlt, by rw [LS.ofSum_of_lt hlt]⟩)

/-! ## Special values (R39, Table 2.3) -/

/-- The special values of Table 2.2. -/
def LS.specials : List LS := [.povf, .novf, .uovf, .pinf, .ninf, .nan]

@[simp] theorem LS.nan_add (x : LS) : LS.nan.add x = (.nan, 0) := by
  cases x <;> rfl

theorem LS.pinf_add {x : LS} (hnan : x ≠ .nan) (hninf : x ≠ .ninf) : LS.pinf.add x = (.pinf, 0) := by
  cases x with
  | nan => exact absurd rfl hnan
  | ninf => exact absurd rfl hninf
  | num | povf | novf | uovf | pinf => rfl

theorem LS.ninf_add {x : LS} (hnan : x ≠ .nan) (hpinf : x ≠ .pinf) : LS.ninf.add x = (.ninf, 0) := by
  cases x with
  | nan => exact absurd rfl hnan
  | pinf => exact absurd rfl hpinf
  | num | povf | novf | uovf | ninf => rfl

/-- An overflowed sum stays with its own code, and one of unknown sign takes every overflowed sum. -/
theorem LS.add_overflowed : ∀ x ∈ [LS.povf, .novf, .uovf], x.add x = (x, 0) ∧ LS.uovf.add x = (.uovf, 0) := by
  decide

/-- A number changes no special value. -/
theorem LS.special_add_num (v : Int) : ∀ x ∈ LS.specials, x.add (.num v) = (x, 0) := by
  simp only [LS.specials, List.forall_mem_cons]
  exact ⟨rfl, rfl, rfl, rfl, rfl, rfl, nofun⟩

/-- The order of the operands does not matter, for the flags either: numbers commute as integers, and Table 2.3 is symmetric. -/
theorem LS.add_comm (x y : LS) : x.add y = y.add x := by
  cases x with
  | num v =>
    cases y with
    | num w => exact congrArg LS.ofSum (Int.add_comm v w)
    | povf | novf | uovf | pinf | ninf | nan => rfl
  | povf | novf | uovf | pinf | ninf | nan => cases y <;> rfl

/-- The grouping of special values does not matter: Table 2.3 over its 6 × 6 × 6 triples. -/
theorem LS.special_add_assoc :
    ∀ x ∈ LS.specials, ∀ y ∈ LS.specials, ∀ z ∈ LS.specials, ((x.add y).1.add z).1 = (x.add (y.add z).1).1 := by
  decide

/-- A special value is read back from its bits. -/
theorem LS.ofBits_bits_of_special : ∀ x ∈ LS.specials, LS.ofBits x.bits = x := by
  decide

/-- Settles O3: R38 by where the exact sum lies, R39 by the cases of Table 2.3. -/
theorem longSumsAdd : Obligations.LongSumsAdd := by
  unfold Obligations.LongSumsAdd
  refine ⟨fun a b ha hb => lsAddBits_exact_or_overflowed ha hb, ?table⟩
  case table =>
    exact ⟨fun x => ⟨LS.nan_add x, LS.pinf_add, LS.ninf_add⟩, rfl, rfl, LS.add_overflowed, LS.special_add_num, LS.add_comm,
      fun x hx y z hy hz => LS.special_add_assoc x hx y hy z hz, LS.ofBits_bits_of_special⟩

/-! ## Block scales (R29) -/

theorem scaleExp_of_le {e : Nat} (h : e ≤ 254) : scaleExp e = some ((e : Int) - 127) :=
  if_neg (by omega)

/-- A NaN element makes the product NaN, whichever operand it is and whatever it meets (R36). -/
theorem specialProduct_of_nan {a b : Val} (h : a = .nan ∨ b = .nan) :
    specialProduct a b = (some .nan, flagNanIn) := by
  obtain rfl | rfl := h
  · cases b <;> rfl
  · cases a <;> rfl

/-- A block each of whose products has a NaN element is NaN. -/
theorem blockSpecial_of_nan {ps : List (Val × Val)} (hne : ps ≠ []) (h : ∀ p ∈ ps, p.1 = .nan ∨ p.2 = .nan) :
    blockSpecial ps = (some .nan, flagNanIn) := by
  obtain ⟨p, ps, rfl⟩ := List.exists_cons_of_ne_nil hne
  obtain ⟨hp, hps⟩ := List.forall_mem_cons.mp h
  unfold blockSpecial
  rw [List.foldl_cons, specialProduct_of_nan hp]
  refine List.foldlRecOn (motive := (· = (some LS.nan, flagNanIn))) ps _ rfl ?_
  rintro _ rfl q hq
  rw [specialProduct_of_nan (hps q hq)]
  rfl

/-- Under a 0xFF scale on either side, a block's partial is NaN. -/
theorem narrowBlock_of_nanScale (fa fb : OpFmt) {sa sb : Option Int} (hs : sa = none ∨ sb = none)
    {ps : List (Val × Val)} (hne : ps ≠ []) : narrowBlock fa fb sa sb ps = (.spec .nan, flagNanIn) := by
  have hnan : ∀ p ∈ ps.map fun p => (if sa.isNone then Val.nan else p.1, if sb.isNone then Val.nan else p.2),
      p.1 = .nan ∨ p.2 = .nan := by
    rw [List.forall_mem_map]
    intro p _
    exact hs.imp (by rintro rfl; rfl) (by rintro rfl; rfl)
  simp only [narrowBlock, blockSpecial_of_nan (mt List.map_eq_nil_iff.mp hne) hnan]

/-- Settles O5: under a 0xFF scale each product of the block has a NaN element. -/
theorem blockScales : Obligations.BlockScales := by
  unfold Obligations.BlockScales
  exact ⟨fun _ => scaleExp_of_le, rfl, fun fa fb _ _ hne =>
    ⟨narrowBlock_of_nanScale fa fb (.inl rfl) hne, narrowBlock_of_nanScale fa fb (.inr rfl) hne⟩⟩

end Sys2Proof.Machine
end

section
/-! PROOFS. Tags (chapter 3): how the tags of a set combine (R81). The tag carried along the list is one more tag of the set. -/

namespace Sys2Proof.Machine

/-! ## One tag more (R81) -/

/-- 255, or the tag already carried, leaves the carried tag. -/
theorem combineTags_cons_of_absorbed {x t : Nat} (l : List Nat) (h : x = 255 ∨ x = t) :
    combineTags (x :: l) t = combineTags l t :=
  if_pos h

/-- Onto 255 every tag combines, and is carried from there. -/
theorem combineTags_cons_onto_255 (x : Nat) (l : List Nat) : combineTags (x :: l) 255 = combineTags l x := by
  by_cases hx : x = 255
  · subst hx
    exact combineTags_cons_of_absorbed l (.inl rfl)
  · simp only [combineTags, or_self, if_neg hx, if_true]

/-- Two different tags other than 255 fail, and name themselves. -/
theorem combineTags_cons_of_mixed {x t : Nat} (l : List Nat) (hx : x ≠ 255) (ht : t ≠ 255) (hxt : x ≠ t) :
    combineTags (x :: l) t = .inr (t, x) := by
  simp only [combineTags, if_neg (not_or.mpr ⟨hx, hxt⟩), if_neg ht]

/-! ## The whole set (R81) -/

/-- A combination is a tag of the set that every other tag yields to. -/
theorem combineTags_eq_inl_iff {l : List Nat} {u t : Nat} :
    combineTags l u = .inl t ↔ (∀ x ∈ u :: l, x = 255 ∨ x = t) ∧ t ∈ u :: l := by
  induction l generalizing u with
  | nil =>
    simp only [combineTags, Sum.inl.injEq, List.mem_singleton, forall_eq]
    omega
  | cons x l ih =>
    simp only [List.forall_mem_cons] at ih ⊢
    by_cases habs : x = 255 ∨ x = u
    · rw [combineTags_cons_of_absorbed l habs, ih]
      grind
    · obtain ⟨hx, hxu⟩ := not_or.mp habs
      by_cases hu : u = 255
      · rw [hu, combineTags_cons_onto_255, ih]
        grind
      · rw [combineTags_cons_of_mixed l hx hu hxu]
        have hnone : ¬ ((u = 255 ∨ u = t) ∧ (x = 255 ∨ x = t)) := by omega
        exact iff_of_false nofun fun ⟨⟨hut, hxt, _⟩, _⟩ => hnone ⟨hut, hxt⟩

/-- Over a set with no two different tags other than 255, some tag is the combination. -/
theorem exists_combineTags_eq_inl {l : List Nat} (h : ∀ x ∈ l, ∀ y ∈ l, x ≠ 255 → y ≠ 255 → x = y) :
    ∃ t, combineTags l 255 = .inl t := by
  by_cases hall : ∀ x ∈ l, x = 255
  · exact ⟨255, combineTags_eq_inl_iff.mpr (by grind)⟩
  · push Not at hall
    obtain ⟨t, ht, htag⟩ := hall
    exact ⟨t, combineTags_eq_inl_iff.mpr (by grind)⟩

/-- A combination fails exactly where two tags other than 255 differ. -/
theorem combineTags_fails_iff {l : List Nat} :
    (∃ p, combineTags l 255 = .inr p) ↔ ∃ x ∈ l, ∃ y ∈ l, x ≠ 255 ∧ y ≠ 255 ∧ x ≠ y := by
  constructor
  · rintro ⟨p, hp⟩
    by_contra hagree
    obtain ⟨t, ht⟩ := exists_combineTags_eq_inl (l := l) (by grind)
    simp [ht] at hp
  · rintro ⟨x, hx, y, hy, hx255, hy255, hxy⟩
    cases hc : combineTags l 255 with
    | inr p => exact ⟨p, rfl⟩
    | inl t =>
      obtain ⟨hall, -⟩ := combineTags_eq_inl_iff.mp hc
      have hxt : x = t := (hall x (.tail _ hx)).resolve_left hx255
      have hyt : y = t := (hall y (.tail _ hy)).resolve_left hy255
      exact absurd (hxt.trans hyt.symm) hxy

/-- Settles O4: from 255, the tags carried and combined are those of the set. -/
theorem tagsCombine : Obligations.TagsCombine := by
  unfold Obligations.TagsCombine
  intro l
  refine ⟨fun t => ?_, combineTags_fails_iff⟩
  rw [combineTags_eq_inl_iff, List.forall_mem_cons, List.mem_cons, and_iff_right (Or.inl rfl)]

end Sys2Proof.Machine
end

section
/-! PROOFS. What a step keeps: the frame of each command (chapters 2 to 19), the queue, the canonical form of DRAM (log entry 7), and
the permanent records (R392, R397, R406, R412). Each follows from what the command's operation does (Laws/Does…). -/

namespace Sys2Proof.Machine

/-! ## Masks and lists of parts -/

/-- A mask with the bits of the listed parts cleared. -/
def maskLess (q : Nat) (ps : List Part) : Nat := ps.foldl (fun w p => w ^^^ (w &&& 1 <<< p.ctorIdx)) q

/-- The part at a place. -/
def Part.atPlace (n : Nat) : Option Part :=
  [.queue, .time, .sites, .repair, .regs, .dram, .pages, .stacks, .caches, .directory, .reservations, .slices, .holds,
   .tiles, .transfers, .finishing, .threads, .tickets, .contexts, .commands, .berths, .cargo, .convoy, .cuts, .erhLinks,
   .collectives, .sync, .cxlPorts, .cxlLogs, .mailboxes, .background, .signatures, .events, .traces, .retired, .selftests,
   .power, .fuses, .alarm, .trust, .firmware, .fresh][n]?

theorem Part.atPlace_ctorIdx (p : Part) : Part.atPlace p.ctorIdx = some p := by cases p <;> rfl

/-- A part's place tells it apart from the others. -/
theorem Part.ctorIdx_inj {p q : Part} (h : p.ctorIdx = q.ctorIdx) : p = q :=
  Option.some.inj (by rw [← Part.atPlace_ctorIdx p, h, Part.atPlace_ctorIdx])

/-- Clearing the bits of other parts leaves a part's bit. -/
theorem testBit_maskLess_of_notMem {q : Nat} {ps : List Part} {p : Part} (h : p ∉ ps) :
    (maskLess q ps).testBit p.ctorIdx = q.testBit p.ctorIdx := by
  induction ps generalizing q with
  | nil => rfl
  | cons r ps ih =>
    obtain ⟨hr, hps⟩ := not_or.mp (List.mem_cons.not.mp h)
    have hne : r.ctorIdx ≠ p.ctorIdx := fun e => hr (Part.ctorIdx_inj e).symm
    have hbit : (1 <<< r.ctorIdx).testBit p.ctorIdx = false := by rw [Nat.one_shiftLeft, Nat.testBit_two_pow_of_ne hne]
    exact (ih hps).trans (by rw [Nat.testBit_xor, Nat.testBit_land, hbit, Bool.and_false, Bool.xor_false])

/-- What is done within a mask changes the parts that cover the mask alone. -/
theorem Does.only_of_maskLess {w : Nat} {ps : List Part} {s t : State} (h : Does w s t) (hw : maskLess w ps = 0) : Only ps s t :=
  fun p hp => h.only p (by rw [← testBit_maskLess_of_notMem hp, hw, Nat.zero_testBit])

/-! ## Every command stays within its frame -/

/-- Each command's operation, by the lemma that says what it does, stays within the parts that `framed` lists. -/
theorem exec_does (i : Instr) (s : State) : ∃ w, OutDoes w s (exec i s) ∧ maskLess w (framed i) = 0 := by
  cases i with
  | tsub => exact ⟨_, execTsub_does, rfl⟩
  | twait => exact ⟨_, execTwait_does, rfl⟩
  | tpoll => exact ⟨_, execTpoll_does, rfl⟩
  | twaitAcq => exact ⟨_, execTwaitAcq_does, rfl⟩
  | twaitResume => exact ⟨_, execTwaitResume_does, rfl⟩
  | hld => exact ⟨_, execHld_does, rfl⟩
  | hst => exact ⟨_, execHst_does, rfl⟩
  | gath => exact ⟨_, execGath_does, rfl⟩
  | scat => exact ⟨_, execScat_does, rfl⟩
  | transferComplete => exact ⟨_, execTransferComplete_does, rfl⟩
  | fenceAcq => exact ⟨_, execFenceAcq_does, rfl⟩
  | fenceRel => exact ⟨_, execFenceRel_does, rfl⟩
  | fenceFull => exact ⟨_, execFenceFull_does, rfl⟩
  | fenceI => exact ⟨_, execFenceI_does, rfl⟩
  | bpref => exact ⟨_, execBpref_does, rfl⟩
  | bwb => exact ⟨_, execBwb_does, rfl⟩
  | binv => exact ⟨_, execBinv_does, rfl⟩
  | spentB => exact ⟨_, execSpentB_does, rfl⟩
  | spentH => exact ⟨_, execSpentH_does, rfl⟩
  | ldaq => exact ⟨_, execLdaq_does, rfl⟩
  | sdrl => exact ⟨_, execSdrl_does, rfl⟩
  | mpop => exact ⟨_, execMpop_does, rfl⟩
  | mpush => exact ⟨_, execMpush_does, rfl⟩
  | ctradd => exact ⟨_, execCtradd_does, rfl⟩
  | ctrwait => exact ⟨_, execCtrwait_does, rfl⟩
  | ctrwaitResume => exact ⟨_, execCtrwaitResume_does, rfl⟩
  | ctrread => exact ⟨_, execCtrread_does, rfl⟩
  | kresume => exact ⟨_, execKresume_does, rfl⟩
  | kexit => exact ⟨_, execKexit_does, rfl⟩
  | amofaddW => exact ⟨_, execAmofaddW_does, rfl⟩
  | amo => exact ⟨_, execAmo_does, rfl⟩
  | lr => exact ⟨_, execLr_does, rfl⟩
  | sc => exact ⟨_, execSc_does, rfl⟩
  | ecall => exact ⟨_, execEcall_does, rfl⟩
  | ebreak => exact ⟨_, execEbreak_does, rfl⟩
  | threadLoad => exact ⟨_, execThreadLoad_does, rfl⟩
  | threadStore => exact ⟨_, execThreadStore_does, rfl⟩
  | watchFire => exact ⟨_, execWatchFire_does, rfl⟩
  | watchBackstop => exact ⟨_, execWatchBackstop_does, rfl⟩
  | watchRefetch => exact ⟨_, execWatchRefetch_does, rfl⟩
  | seqReread => exact ⟨_, execSeqReread_does, rfl⟩
  | run => exact ⟨_, execRun_does, rfl⟩
  | signal => exact ⟨_, execSignal_does, rfl⟩
  | passage => exact ⟨_, execPassage_does, rfl⟩
  | convoyStep => exact ⟨_, execConvoyStep_does, rfl⟩
  | commandReady => exact ⟨_, execCommandReady_does, rfl⟩
  | multiDieSchedule => exact ⟨_, execMultiDieSchedule_does, rfl⟩
  | prescan => exact ⟨_, execPrescan_does, rfl⟩
  | anchorGeneration => exact ⟨_, execAnchorGeneration_does, rfl⟩
  | preempt => exact ⟨_, execPreempt_does, rfl⟩
  | preemptSpillDone => exact ⟨_, execPreemptSpillDone_does, rfl⟩
  | restore => exact ⟨_, execRestore_does, rfl⟩
  | commandComplete => exact ⟨_, execCommandComplete_does, rfl⟩
  | maxDurExpire => exact ⟨_, execMaxDurExpire_does, rfl⟩
  | tileDispatch => exact ⟨_, execTileDispatch_does, rfl⟩
  | tileComplete => exact ⟨_, execTileComplete_does, rfl⟩
  | reRun => exact ⟨_, execReRun_does, rfl⟩
  | cuppingCopy => exact ⟨_, execCuppingCopy_does, rfl⟩
  | tileSteal => exact ⟨_, execTileSteal_does, rfl⟩
  | replay => exact ⟨_, execReplay_does, rfl⟩
  | arithIdleStop => exact ⟨_, execArithIdleStop_does, rfl⟩
  | slackWindow => exact ⟨_, execSlackWindow_does, rfl⟩
  | unitRetirementDone => exact ⟨_, execUnitRetirementDone_does, rfl⟩
  | selftestStart => exact ⟨_, execSelftestStart_does, rfl⟩
  | selftestChunkEnd => exact ⟨_, execSelftestChunkEnd_does, rfl⟩
  | selftestAbandon => exact ⟨_, execSelftestAbandon_does, rfl⟩
  | rdU => exact ⟨_, execRdU_does, rfl⟩
  | rdS => exact ⟨_, execRdS_does, rfl⟩
  | rdX => exact ⟨_, execRdX_does, rfl⟩
  | upg => exact ⟨_, execUpg_does, rfl⟩
  | look => exact ⟨_, execLook_does, rfl⟩
  | atN => exact ⟨_, execAtN_does, rfl⟩
  | redU => exact ⟨_, execRedU_does, rfl⟩
  | spd => exact ⟨_, execSpd_does, rfl⟩
  | wbU => exact ⟨_, execWbU_does, rfl⟩
  | wbD => exact ⟨_, execWbD_does, rfl⟩
  | wbK => exact ⟨_, execWbK_does, rfl⟩
  | inv => exact ⟨_, execInv_does, rfl⟩
  | fwdS => exact ⟨_, execFwdS_does, rfl⟩
  | fwdX => exact ⟨_, execFwdX_does, rfl⟩
  | snpCur => exact ⟨_, execSnpCur_does, rfl⟩
  | invAck => exact ⟨_, execInvAck_does, rfl⟩
  | fwdAck => exact ⟨_, execFwdAck_does, rfl⟩
  | dataU => exact ⟨_, execDataU_does, rfl⟩
  | dataS => exact ⟨_, execDataS_does, rfl⟩
  | dataX => exact ⟨_, execDataX_does, rfl⟩
  | gntX => exact ⟨_, execGntX_does, rfl⟩
  | wbAck => exact ⟨_, execWbAck_does, rfl⟩
  | nack => exact ⟨_, execNack_does, rfl⟩
  | nackRetry => exact ⟨_, execNackRetry_does, rfl⟩
  | err => exact ⟨_, execErr_does, rfl⟩
  | flushHome => exact ⟨_, execFlushHome_does, rfl⟩
  | cleanFar => exact ⟨_, execCleanFar_does, rfl⟩
  | flushHomeAndCleanFar => exact ⟨_, execFlushHomeAndCleanFar_does, rfl⟩
  | basinMaintDone => exact ⟨_, execBasinMaintDone_does, rfl⟩
  | farQuotaWrite => exact ⟨_, execFarQuotaWrite_does, rfl⟩
  | farQuotaApply => exact ⟨_, execFarQuotaApply_does, rfl⟩
  | windowCommit => exact ⟨_, execWindowCommit_does, rfl⟩
  | spreadCommit => exact ⟨_, execSpreadCommit_does, rfl⟩
  | finCtlCommit => exact ⟨_, execFinCtlCommit_does, rfl⟩
  | inject => exact ⟨_, execInject_does, rfl⟩
  | dramMgnStart => exact ⟨_, execDramMgnStart_does, rfl⟩
  | dramMgnDone => exact ⟨_, execDramMgnDone_does, rfl⟩
  | clkCtlCommit => exact ⟨_, execClkCtlCommit_does, rfl⟩
  | fabEcoWrite => exact ⟨_, execFabEcoWrite_does, rfl⟩
  | routeCtlCommit => exact ⟨_, execRouteCtlCommit_does, rfl⟩
  | epochBroadcast => exact ⟨_, execEpochBroadcast_does, rfl⟩
  | cutRetrain => exact ⟨_, execCutRetrain_does, rfl⟩
  | cutForceDown => exact ⟨_, execCutForceDown_does, rfl⟩
  | cutRestore => exact ⟨_, execCutRestore_does, rfl⟩
  | bmapRootWrite => exact ⟨_, execBmapRootWrite_does, rfl⟩
  | bmapCommit => exact ⟨_, execBmapCommit_does, rfl⟩
  | erhRctlCommit => exact ⟨_, execErhRctlCommit_does, rfl⟩
  | erhRetrain => exact ⟨_, execErhRetrain_does, rfl⟩
  | erhForceDown => exact ⟨_, execErhForceDown_does, rfl⟩
  | erhRestore => exact ⟨_, execErhRestore_does, rfl⟩
  | hdmDecoderCommit => exact ⟨_, execHdmDecoderCommit_does, rfl⟩
  | hdmDecoderUncommit => exact ⟨_, execHdmDecoderUncommit_does, rfl⟩
  | registerWrite => exact ⟨_, execRegisterWrite_does, rfl⟩
  | rowRetireDone => exact ⟨_, execRowRetireDone_does, rfl⟩
  | patrolScrub die sector u => exact ⟨_, execPatrolScrub_does (a1 := die) (a2 := sector) (a3 := u), rfl⟩
  | dramRefresh => exact ⟨_, execDramRefresh_does, rfl⟩
  | dramThermalSample => exact ⟨_, execDramThermalSample_does, rfl⟩
  | stopReadTimeout => exact ⟨_, execStopReadTimeout_does, rfl⟩
  | cutFrame => exact ⟨_, execCutFrame_does, rfl⟩
  | cutReplay => exact ⟨_, execCutReplay_does, rfl⟩
  | cutPacketForward => exact ⟨_, execCutPacketForward_does, rfl⟩
  | cutTrain => exact ⟨_, execCutTrain_does, rfl⟩
  | cutTrainDone => exact ⟨_, execCutTrainDone_does, rfl⟩
  | cutFreezeTimeout => exact ⟨_, execCutFreezeTimeout_does, rfl⟩
  | cutDown => exact ⟨_, execCutDown_does, rfl⟩
  | erhFrame => exact ⟨_, execErhFrame_does, rfl⟩
  | erhTrain => exact ⟨_, execErhTrain_does, rfl⟩
  | erhFreezeTimeout => exact ⟨_, execErhFreezeTimeout_does, rfl⟩
  | erhPortDown => exact ⟨_, execErhPortDown_does, rfl⟩
  | put => exact ⟨_, execPut_does, rfl⟩
  | putAck => exact ⟨_, execPutAck_does, rfl⟩
  | get => exact ⟨_, execGet_does, rfl⟩
  | getData => exact ⟨_, execGetData_does, rfl⟩
  | atomic => exact ⟨_, execAtomic_does, rfl⟩
  | atomicResp => exact ⟨_, execAtomicResp_does, rfl⟩
  | erhErr => exact ⟨_, execErhErr_does, rfl⟩
  | erhRequestTimeout => exact ⟨_, execErhRequestTimeout_does, rfl⟩
  | linkMgmt => exact ⟨_, execLinkMgmt_does, rfl⟩
  | fwMgmt => exact ⟨_, execFwMgmt_does, rfl⟩
  | collArrive => exact ⟨_, execCollArrive_does, rfl⟩
  | collUp => exact ⟨_, execCollUp_does, rfl⟩
  | collDown => exact ⟨_, execCollDown_does, rfl⟩
  | collFail => exact ⟨_, execCollFail_does, rfl⟩
  | tsync => exact ⟨_, execTsync_does, rfl⟩
  | tsyncResp => exact ⟨_, execTsyncResp_does, rfl⟩
  | tsyncHoldover => exact ⟨_, execTsyncHoldover_does, rfl⟩
  | timeCorrection => exact ⟨_, execTimeCorrection_does, rfl⟩
  | ppsIn => exact ⟨_, execPpsIn_does, rfl⟩
  | hostMemRd => exact ⟨_, execHostMemRd_does, rfl⟩
  | hostMemWr => exact ⟨_, execHostMemWr_does, rfl⟩
  | birsp => exact ⟨_, execBirsp_does, rfl⟩
  | bisnpTimeout => exact ⟨_, execBisnpTimeout_does, rfl⟩
  | hostRequestTimeout => exact ⟨_, execHostRequestTimeout_does, rfl⟩
  | counterFetchadd => exact ⟨_, execCounterFetchadd_does, rfl⟩
  | atsInvalidation => exact ⟨_, execAtsInvalidation_does, rfl⟩
  | portLost => exact ⟨_, execPortLost_does, rfl⟩
  | ideIntegrityFailure => exact ⟨_, execIdeIntegrityFailure_does, rfl⟩
  | perst => exact ⟨_, execPerst_does, rfl⟩
  | cxlLinkTrain => exact ⟨_, execCxlLinkTrain_does, rfl⟩
  | configRequest => exact ⟨_, execConfigRequest_does, rfl⟩
  | identifyCxl => exact ⟨_, execIdentifyCxl_does, rfl⟩
  | getEventRecords => exact ⟨_, execGetEventRecords_does, rfl⟩
  | clearEventRecords => exact ⟨_, execClearEventRecords_does, rfl⟩
  | getEventInterruptPolicy => exact ⟨_, execGetEventInterruptPolicy_does, rfl⟩
  | setEventInterruptPolicy => exact ⟨_, execSetEventInterruptPolicy_does, rfl⟩
  | getLog => exact ⟨_, execGetLog_does, rfl⟩
  | getSupportedLogs => exact ⟨_, execGetSupportedLogs_does, rfl⟩
  | setTimestamp => exact ⟨_, execSetTimestamp_does, rfl⟩
  | getVersion => exact ⟨_, execGetVersion_does, rfl⟩
  | getCapabilities => exact ⟨_, execGetCapabilities_does, rfl⟩
  | negotiateAlgorithms => exact ⟨_, execNegotiateAlgorithms_does, rfl⟩
  | getDigests => exact ⟨_, execGetDigests_does, rfl⟩
  | getCertificate => exact ⟨_, execGetCertificate_does, rfl⟩
  | challenge => exact ⟨_, execChallenge_does, rfl⟩
  | getMeasurements => exact ⟨_, execGetMeasurements_does, rfl⟩
  | keyExchange => exact ⟨_, execKeyExchange_does, rfl⟩
  | finish => exact ⟨_, execFinish_does, rfl⟩
  | keyUpdate => exact ⟨_, execKeyUpdate_does, rfl⟩
  | endSession => exact ⟨_, execEndSession_does, rfl⟩
  | mailboxOwnerSet => exact ⟨_, execMailboxOwnerSet_does, rfl⟩
  | mailboxAcceptTimeout => exact ⟨_, execMailboxAcceptTimeout_does, rfl⟩
  | bgOperationEnd => exact ⟨_, execBgOperationEnd_does, rfl⟩
  | identify => exact ⟨_, execIdentify_does, rfl⟩
  | bgStatus => exact ⟨_, execBgStatus_does, rfl⟩
  | bgAbort => exact ⟨_, execBgAbort_does, rfl⟩
  | windowSetAll => exact ⟨_, execWindowSetAll_does, rfl⟩
  | spreadSetAll => exact ⟨_, execSpreadSetAll_does, rfl⟩
  | setAllTimeout => exact ⟨_, execSetAllTimeout_does, rfl⟩
  | finImageSetAll => exact ⟨_, execFinImageSetAll_does, rfl⟩
  | deviceReset => exact ⟨_, execDeviceReset_does, rfl⟩
  | berthCreate => exact ⟨_, execBerthCreate_does, rfl⟩
  | berthDestroy => exact ⟨_, execBerthDestroy_does, rfl⟩
  | berthReset => exact ⟨_, execBerthReset_does, rfl⟩
  | berthQuery => exact ⟨_, execBerthQuery_does, rfl⟩
  | berthLimits => exact ⟨_, execBerthLimits_does, rfl⟩
  | dieHandover => exact ⟨_, execDieHandover_does, rfl⟩
  | moveListSet => exact ⟨_, execMoveListSet_does, rfl⟩
  | faultSetup => exact ⟨_, execFaultSetup_does, rfl⟩
  | accountRead => exact ⟨_, execAccountRead_does, rfl⟩
  | ctxCreate => exact ⟨_, execCtxCreate_does, rfl⟩
  | ctxReset => exact ⟨_, execCtxReset_does, rfl⟩
  | ctxDestroy => exact ⟨_, execCtxDestroy_does, rfl⟩
  | pagesAlloc => exact ⟨_, execPagesAlloc_does, rfl⟩
  | pagesFree => exact ⟨_, execPagesFree_does, rfl⟩
  | pagesAttr => exact ⟨_, execPagesAttr_does, rfl⟩
  | moorPoolCreate => exact ⟨_, execMoorPoolCreate_does, rfl⟩
  | moorPoolGrow => exact ⟨_, execMoorPoolGrow_does, rfl⟩
  | moorPoolRebuild => exact ⟨_, execMoorPoolRebuild_does, rfl⟩
  | cargoOpen => exact ⟨_, execCargoOpen_does, rfl⟩
  | cargoSource => exact ⟨_, execCargoSource_does, rfl⟩
  | cargoSeal => exact ⟨_, execCargoSeal_does, rfl⟩
  | cargoMap => exact ⟨_, execCargoMap_does, rfl⟩
  | cargoUnmap => exact ⟨_, execCargoUnmap_does, rfl⟩
  | cargoUnload => exact ⟨_, execCargoUnload_does, rfl⟩
  | cargoQuery => exact ⟨_, execCargoQuery_does, rfl⟩
  | convoyRegister => exact ⟨_, execConvoyRegister_does, rfl⟩
  | convoyUnregister => exact ⟨_, execConvoyUnregister_does, rfl⟩
  | cargoRelade => exact ⟨_, execCargoRelade_does, rfl⟩
  | capSet => exact ⟨_, execCapSet_does, rfl⟩
  | powerQuery => exact ⟨_, execPowerQuery_does, rfl⟩
  | ratioLimit => exact ⟨_, execRatioLimit_does, rfl⟩
  | fabricHalf => exact ⟨_, execFabricHalf_does, rfl⟩
  | sigRead => exact ⟨_, execSigRead_does, rfl⟩
  | tallyRead => exact ⟨_, execTallyRead_does, rfl⟩
  | tallyClear => exact ⟨_, execTallyClear_does, rfl⟩
  | cupFloor => exact ⟨_, execCupFloor_does, rfl⟩
  | selftest => exact ⟨_, execSelftest_does, rfl⟩
  | unitRetire => exact ⟨_, execUnitRetire_does, rfl⟩
  | repairList => exact ⟨_, execRepairList_does, rfl⟩
  | secState => exact ⟨_, execSecState_does, rfl⟩
  | debugChallenge => exact ⟨_, execDebugChallenge_does, rfl⟩
  | debugUnlock => exact ⟨_, execDebugUnlock_does, rfl⟩
  | debugUnlockExpire => exact ⟨_, execDebugUnlockExpire_does, rfl⟩
  | counterCfg => exact ⟨_, execCounterCfg_does, rfl⟩
  | traceCfg => exact ⟨_, execTraceCfg_does, rfl⟩
  | snapshot => exact ⟨_, execSnapshot_does, rfl⟩
  | cfgEvents => exact ⟨_, execCfgEvents_does, rfl⟩
  | groupStatus => exact ⟨_, execGroupStatus_does, rfl⟩
  | devIdSet => exact ⟨_, execDevIdSet_does, rfl⟩
  | routeWrite => exact ⟨_, execRouteWrite_does, rfl⟩
  | routeCommit => exact ⟨_, execRouteCommit_does, rfl⟩
  | portCtl => exact ⟨_, execPortCtl_does, rfl⟩
  | cutCtl => exact ⟨_, execCutCtl_does, rfl⟩
  | spanSet => exact ⟨_, execSpanSet_does, rfl⟩
  | peerRegionSet => exact ⟨_, execPeerRegionSet_does, rfl⟩
  | hostRegionSet => exact ⟨_, execHostRegionSet_does, rfl⟩
  | pasidSet => exact ⟨_, execPasidSet_does, rfl⟩
  | groupSet => exact ⟨_, execGroupSet_does, rfl⟩
  | tsyncSet => exact ⟨_, execTsyncSet_does, rfl⟩
  | fwStage => exact ⟨_, execFwStage_does, rfl⟩
  | fwActivate => exact ⟨_, execFwActivate_does, rfl⟩
  | fwSwitchEnd => exact ⟨_, execFwSwitchEnd_does, rfl⟩
  | fwQuery => exact ⟨_, execFwQuery_does, rfl⟩
  | dramInit => exact ⟨_, execDramInit_does, rfl⟩
  | dramMargin => exact ⟨_, execDramMargin_does, rfl⟩
  | dieRepair => exact ⟨_, execDieRepair_does, rfl⟩
  | repairPhaseADone => exact ⟨_, execRepairPhaseADone_does, rfl⟩
  | repairPassEnd => exact ⟨_, execRepairPassEnd_does, rfl⟩
  | repairSwitch => exact ⟨_, execRepairSwitch_does, rfl⟩
  | managementRestart => exact ⟨_, execManagementRestart_does, rfl⟩
  | kiltorWatchdog => exact ⟨_, execKiltorWatchdog_does, rfl⟩
  | capControlStep => exact ⟨_, execCapControlStep_does, rfl⟩
  | controllerAbsent => exact ⟨_, execControllerAbsent_does, rfl⟩
  | droopDetect => exact ⟨_, execDroopDetect_does, rfl⟩
  | droopRecover => exact ⟨_, execDroopRecover_does, rfl⟩
  | vrAlertN => exact ⟨_, execVrAlertN_does, rfl⟩
  | vrAlertNRelease => exact ⟨_, execVrAlertNRelease_does, rfl⟩
  | flowOk => exact ⟨_, execFlowOk_does, rfl⟩
  | flowOkRelease => exact ⟨_, execFlowOkRelease_does, rfl⟩
  | flowStop => exact ⟨_, execFlowStop_does, rfl⟩
  | moduleStopDone => exact ⟨_, execModuleStopDone_does, rfl⟩
  | pwrGoodInFall => exact ⟨_, execPwrGoodInFall_does, rfl⟩
  | pwrGoodInRise => exact ⟨_, execPwrGoodInRise_does, rfl⟩
  | inputUndervoltage => exact ⟨_, execInputUndervoltage_does, rfl⟩
  | standbyPowerGood => exact ⟨_, execStandbyPowerGood_does, rfl⟩
  | standbyPowerLost => exact ⟨_, execStandbyPowerLost_does, rfl⟩
  | tempSample => exact ⟨_, execTempSample_does, rfl⟩
  | thermTripRelease => exact ⟨_, execThermTripRelease_does, rfl⟩
  | energyInterval => exact ⟨_, execEnergyInterval_does, rfl⟩
  | remoteEnergyGather => exact ⟨_, execRemoteEnergyGather_does, rfl⟩
  | fuseReread => exact ⟨_, execFuseReread_does, rfl⟩
  | tamperTrip => exact ⟨_, execTamperTrip_does, rfl⟩
  | alarmErase => exact ⟨_, execAlarmErase_does, rfl⟩
  | alarmKill => exact ⟨_, execAlarmKill_does, rfl⟩
  | fullBringUp => exact ⟨_, execFullBringUp_does, rfl⟩
  | identityDerived => exact ⟨_, execIdentityDerived_does, rfl⟩
  | traceDrain => exact ⟨_, execTraceDrain_does, rfl⟩
  | pldmFirmwareUpdate => exact ⟨_, execPldmFirmwareUpdate_does, rfl⟩
  | i3cDynamicAddress => exact ⟨_, execI3cDynamicAddress_does, rfl⟩
  | cutPortReset => exact ⟨_, execCutPortReset_does, rfl⟩
  | erhPortReset => exact ⟨_, execErhPortReset_does, rfl⟩
  | erhPacketRoute => exact ⟨_, execErhPacketRoute_does, rfl⟩
  | erhOldBusyClear => exact ⟨_, execErhOldBusyClear_does, rfl⟩
  | hostCacheSnoop => exact ⟨_, execHostCacheSnoop_does, rfl⟩
  | cxlCacheResponse => exact ⟨_, execCxlCacheResponse_does, rfl⟩
  | atsCompletion => exact ⟨_, execAtsCompletion_does, rfl⟩
  | ideKm => exact ⟨_, execIdeKm_does, rfl⟩
  | tdisp => exact ⟨_, execTdisp_does, rfl⟩

/-- A command changes only the parts of its frame. -/
theorem exec_only {i : Instr} {s t : State} (h : exec i s = .next t) : Only (framed i) s t := by
  obtain ⟨w, hd, hw⟩ := exec_does i s
  exact (hd t h).only_of_maskLess hw

/-- No command's frame has the waiting commands. -/
theorem queue_notMem_framed (i : Instr) : Part.queue ∉ framed i := by
  have h : (framed i).contains .queue = false := by cases i <;> rfl
  simpa using h

/-- Settles O6: the frame of each command, and no frame has the queue. -/
theorem commandsChangeOnlyTheirParts : Obligations.CommandsChangeOnlyTheirParts := by
  unfold Obligations.CommandsChangeOnlyTheirParts
  exact ⟨fun _ _ _ => exec_only, queue_notMem_framed⟩

/-! ## Steps -/

/-- A command leaves the waiting commands as they are. -/
theorem exec_pending {i : Instr} {s t : State} (h : exec i s = .next t) : t.pending = s.pending :=
  (exec_only h .queue (queue_notMem_framed i)).symm

/-- A step with no command waiting is a clock edge. -/
theorem step_of_pending_nil {s : State} (h : s.pending = []) : step s = .next s.idle := by
  simp only [step, h]

/-- A step runs the command at the front of the queue on the state with the rest of it. -/
theorem step_of_pending_cons {c : Instr} {rest : List Instr} {s : State} (h : s.pending = c :: rest) :
    step s = exec c { s with pending := rest } := by
  simp only [step, h]

/-- A step is a clock edge of an empty queue, or the front command on the state with the rest of the queue. -/
theorem step_cases {s t : State} (h : step s = .next t) :
    s.pending = [] ∧ t = s.idle ∨ ∃ c rest, s.pending = c :: rest ∧ exec c { s with pending := rest } = .next t := by
  cases hp : s.pending with
  | nil =>
    rw [step_of_pending_nil hp] at h
    exact .inl ⟨rfl, (Host.Outcome.next.inj h).symm⟩
  | cons c rest => exact .inr ⟨c, rest, rfl, (step_of_pending_cons hp).symm.trans h⟩

/-- What a step does, the queue aside: from the state with the front command taken off. -/
theorem step_does {s t : State} (h : step s = .next t) : ∃ w, Does w { s with pending := s.pending.tail } t := by
  obtain ⟨hp, rfl⟩ | ⟨c, rest, hp, hc⟩ := step_cases h
  · have hs : { s with pending := s.pending.tail } = s := by simp only [hp, List.tail_nil]; rw [← hp]
    exact ⟨_, by rw [hs]; exact State.idle_does⟩
  · obtain ⟨w, hd, -⟩ := exec_does c { s with pending := rest }
    exact ⟨w, by rw [hp]; exact hd t hc⟩

/-- Settles O1: by the definition of a step. -/
theorem stepRunsFront : Obligations.StepRunsFront := by
  unfold Obligations.StepRunsFront
  exact fun _ _ _ => step_of_pending_cons

/-- Settles O7: no frame has the queue, and neither has that of a clock edge. -/
theorem queueIsFirstInFirstOut : Obligations.QueueIsFirstInFirstOut := by
  unfold Obligations.QueueIsFirstInFirstOut
  refine ⟨fun s t h => ?_, fun s hp => ⟨step_of_pending_nil hp, ?_, ?_⟩⟩
  · obtain ⟨hp, rfl⟩ | ⟨c, rest, hp, hc⟩ := step_cases h
    · rw [hp, List.tail_nil, ← hp]
      exact (State.idle_does.only .queue rfl).symm
    · rw [hp, exec_pending hc, List.tail_cons]
  · exact (State.idle_does.only .queue rfl).symm.trans hp
  · exact (State.idle_does.only .fuses rfl).symm

/-- Settles O8: every operation keeps the canonical form. -/
theorem memoryStaysCanonical : Obligations.MemoryStaysCanonical := by
  unfold Obligations.MemoryStaysCanonical
  intro s t hs h
  obtain ⟨w, hd⟩ := step_does h
  exact hd.wf hs

/-! ## Fuses and the retirement list -/

/-- What is done within a mask that lacks the fuses leaves them. -/
theorem Does.fuses_eq {w : Nat} {s t : State} (h : Does w s t) (hw : w.testBit 37 = false := by rfl) : t.sec.fuses = s.sec.fuses :=
  (h.only .fuses hw).symm

/-- The directives of an image do not blow KILL (R397). -/
theorem directives_kill (s : State) (img : List Byte) : (s.directives img).sec.fuses.kill = s.sec.fuses.kill := by
  unfold State.directives
  split <;> rfl

/-- A check that lets a command go on passed. -/
theorem need_eq_next {b : Bool} {f : Fault} {k : Out} {t : State} : need b f k = .next t ↔ b = true ∧ k = .next t := by
  cases b <;> simp [need]

/-- The end of a firmware switch does not blow KILL. -/
theorem execFwSwitchEnd_kill {s t : State} (h : execFwSwitchEnd s = .next t) : t.sec.fuses.kill = s.sec.fuses.kill := by
  obtain ⟨-, h⟩ := need_eq_next.mp h
  rw [← Host.Outcome.next.inj h, State.bgEnd_does.fuses_eq, modMbx_sec, directives_kill, State.measured_does.fuses_eq, modSec_sec]

/-- Of two states that agree on KILL, either does. -/
theorem kill_ite {c : Prop} [Decidable c] {a b : State} {k : Bool} (ha : a.sec.fuses.kill = k) (hb : b.sec.fuses.kill = k) :
    (if c then a else b).sec.fuses.kill = k := by
  split
  · exact ha
  · exact hb

/-- The ROM's part of a bring-up does not blow KILL. -/
theorem bringUpRom_kill (s : State) (env : BringUpIn) : (s.bringUpRom env).sec.fuses.kill = s.sec.fuses.kill := by
  unfold State.bringUpRom
  extract_lets +onlyGivenNames exit
  have hexit : ∀ b r, (exit b r).sec = r.sec := fun _ _ => rfl
  clear_value exit
  refine kill_ite (by rw [hexit]) (kill_ite (by rw [State.raiseAlarm_does.fuses_eq]) ?_)
  extract_lets +onlyGivenNames x
  have hx : x.sec.fuses.kill = s.sec.fuses.kill := by unfold x; rw [modSec_sec]
  clear_value x
  extract_lets +onlyGivenNames ok
  refine kill_ite (by rw [hexit, hx]) ?_
  extract_lets +onlyGivenNames y
  have hy : y.sec.fuses.kill = s.sec.fuses.kill :=
    kill_ite hx (by rw [State.cxlEvent_does.fuses_eq, modSec_sec, hx])
  clear_value y
  rw [hexit, directives_kill, hy]

/-- A bring-up does not blow KILL. -/
theorem execFullBringUp_kill {env : BringUpIn} {s t : State} (h : execFullBringUp env s = .next t) :
    t.sec.fuses.kill = s.sec.fuses.kill := by
  have hrom : (if s.pwr.boot = .rom then s.bringUpRom env else s).sec.fuses.kill = s.sec.fuses.kill := by
    split
    · exact bringUpRom_kill s env
    · rfl
  obtain ⟨-, h⟩ := need_eq_next.mp h
  generalize (if s.pwr.boot = .rom then s.bringUpRom env else s) = r at h hrom
  rw [← Host.Outcome.next.inj h]
  split
  · rw [State.bringUpMap_does.fuses_eq, hrom]
  · exact hrom

/-- Of the commands, only these three have the fuses in their frame. -/
theorem blower_of_fuses_mem_framed {i : Instr} (h : Part.fuses ∈ framed i) :
    i = .fwSwitchEnd ∨ (∃ env, i = .fullBringUp env) ∨ ∃ f, i = .alarmKill f := by
  have hc : (framed i).contains .fuses = true := by simpa using h
  clear h
  cases i
  case fwSwitchEnd => exact .inl rfl
  case fullBringUp env => exact .inr (.inl ⟨env, rfl⟩)
  case alarmKill f => exact .inr (.inr ⟨f, rfl⟩)
  all_goals cases hc

/-- A command that is none of the root of trust's three leaves the fuses. -/
theorem exec_fuses_cases {i : Instr} {s t : State} (h : exec i s = .next t) :
    t.sec.fuses = s.sec.fuses ∨ i = .fwSwitchEnd ∨ (∃ env, i = .fullBringUp env) ∨ ∃ f, i = .alarmKill f := by
  by_cases hf : Part.fuses ∈ framed i
  · exact .inr (blower_of_fuses_mem_framed hf)
  · exact .inl (exec_only h .fuses hf).symm

/-- Only ALARM_KILL changes KILL. -/
theorem alarmKill_of_exec_kill {i : Instr} {s t : State} (h : exec i s = .next t) (hk : t.sec.fuses.kill ≠ s.sec.fuses.kill) :
    ∃ f, i = .alarmKill f := by
  obtain he | rfl | ⟨env, rfl⟩ | hf := exec_fuses_cases h
  · exact absurd (congrArg Fuses.kill he) hk
  · exact absurd (execFwSwitchEnd_kill h) hk
  · exact absurd (execFullBringUp_kill h) hk
  · exact hf

/-- Settles O9: every operation only blows fuses and only adds to the retirement list; frames tell which command blows. -/
theorem permanentRecordsStay : Obligations.PermanentRecordsStay := by
  unfold Obligations.PermanentRecordsStay
  refine ⟨fun s t h => ?_, fun s t u hu h => ?_⟩
  · obtain ⟨w, hd⟩ := step_does h
    refine ⟨hd.blown, ?_⟩
    obtain ⟨-, rfl⟩ | ⟨c, rest, hp, hc⟩ := step_cases h
    · have he : s.idle.sec.fuses = s.sec.fuses := State.idle_does.fuses_eq
      exact ⟨.inl he, fun hk => absurd (congrArg Fuses.kill he) hk⟩
    · refine ⟨(exec_fuses_cases hc).imp_right fun hb => ⟨c, rest, hp, hb⟩, fun hk => ?_⟩
      obtain ⟨f, rfl⟩ := alarmKill_of_exec_kill hc hk
      exact ⟨f, rest, hp⟩
  · obtain ⟨w, hd⟩ := step_does h
    exact hd.grows hu

/-! ## Right after device reset -/

/-- Every register reads its reset value. -/
theorem reg_reset (a : Nat) : State.reset.reg a = regReset a := rfl

/-- A register of a die's space has the reset value of its offset. -/
theorem regReset_dieBase {d off : Nat} (hd : d < 72) (hoff : off < 0x100000000) :
    regReset (dieBase d + off) = regResetDie off := by
  unfold regReset dieBase
  rw [if_neg (by omega), if_neg (by omega), if_pos (by omega)]
  congr 1
  omega

/-- Settles O2: by the reset state's fields; the maps read their reset values, as no write is listed. -/
theorem resetState : Obligations.ResetState := by
  unfold Obligations.ResetState
  refine ⟨rfl, rfl, rfl, rfl, rfl, fun d => ?present, fun r hr => ?rowMap, fun d hd => ⟨?engMap, ?coreMapLow, ?coreMapHigh⟩⟩
  case present => exact Bool.and_false _
  case rowMap =>
    rw [reg_reset, regReset, if_neg (by omega), if_pos (by omega)]
  all_goals rw [reg_reset, regReset_dieBase hd (by omega)]; rfl

end Sys2Proof.Machine
end

section
/-! PROOFS. Rules that the chapters share: checks that pass, commands that complete, and the bytes of numbers and responses (R2, R338). -/

namespace Sys2Proof

/-! ## Bytes of numbers (R2) -/

@[simp] theorem length_bytesOf (n v : Nat) : (bytesOf n v).length = n := by
  induction n generalizing v with
  | zero => rfl
  | succ n ih => simp [bytesOf, ih]

/-- The number that `n` bytes spell keeps what fits in them. -/
theorem ofBytes_bytesOf (n v : Nat) : ofBytes (bytesOf n v) = v % 256 ^ n := by
  induction n generalizing v with
  | zero => simp [bytesOf, ofBytes, Nat.mod_one]
  | succ n ih =>
    rw [bytesOf, ofBytes, ih, BitVec.toNat_ofNat]
    change v % 256 % 256 + 256 * (v / 256 % 256 ^ n) = v % (256 ^ n * 256)
    rw [Nat.mod_mod, Nat.mul_comm (256 ^ n), Nat.mod_mul]

/-- Reading past the first of two lists. -/
theorem rdLE_append_length (a b : List Byte) (n : Nat) : rdLE (a ++ b) a.length n = rdLE b 0 n := by
  simp [rdLE]

/-- Reading within the first of two lists. -/
theorem rdLE_append_of_le {a : List Byte} {off n : Nat} (b : List Byte) (h : off + n ≤ a.length) :
    rdLE (a ++ b) off n = rdLE a off n := by
  unfold rdLE
  rw [List.drop_append_of_le_length (by omega), List.take_append_of_le_length (by rw [List.length_drop]; omega)]

/-- The bytes of a number read back. -/
@[simp] theorem rdLE_bytesOf (n v : Nat) : rdLE (bytesOf n v) 0 n = v % 256 ^ n := by
  unfold rdLE
  rw [List.drop_zero, List.take_of_length_le (length_bytesOf n v).le, ofBytes_bytesOf]

namespace Machine

/-! ## Checks and completions -/

@[simp] theorem need_true (f : Fault) (k : Out) : need true f k = k := rfl

@[simp] theorem needSome_some {α : Type} (a : α) (f : Fault) (k : α → Out) : needSome (some a) f k = k a := rfl

/-- A command completes with what holds of its next state. -/
theorem Gives.of_next {i : Instr} {s n : State} {P : State → Prop} (h : exec i s = .next n) (hP : P n) : Gives i s P := ⟨n, h, hP⟩

/-! ## Responses (R338) -/

/-- That fields (offset, size, value) come in rising order from an offset, apart from each other. -/
def fieldsRise : Nat → List (Nat × Nat × Nat) → Prop
  | _, [] => True
  | lo, f :: t => lo ≤ f.1 ∧ fieldsRise (f.1 + f.2.1) t

/-- A response's bytes with one field more. -/
def rspPut (l : List Byte) (f : Nat × Nat × Nat) : List Byte := l ++ List.replicate (f.1 - l.length) 0 ++ bytesOf f.2.1 f.2.2

theorem rspOf_eq_foldl (fs : List (Nat × Nat × Nat)) : rspOf fs = fs.foldl rspPut [] := rfl

theorem length_rspPut {l : List Byte} {f : Nat × Nat × Nat} (h : l.length ≤ f.1) : (rspPut l f).length = f.1 + f.2.1 := by
  simp [rspPut]
  omega

/-- Later fields leave what stands before them. -/
theorem rdLE_foldl_rspPut {fs : List (Nat × Nat × Nat)} {l : List Byte} {off n : Nat} (h : off + n ≤ l.length) :
    rdLE (fs.foldl rspPut l) off n = rdLE l off n := by
  induction fs generalizing l with
  | nil => rfl
  | cons f fs ih =>
    have hl : off + n ≤ (rspPut l f).length := by simp [rspPut]; omega
    rw [List.foldl_cons, ih hl, rspPut, List.append_assoc, rdLE_append_of_le _ h]

theorem length_foldl_rspPut {fs : List (Nat × Nat × Nat)} {l : List Byte} (h : fieldsRise l.length fs) :
    (fs.foldl rspPut l).length = fs.foldl (fun _ f => f.1 + f.2.1) l.length := by
  induction fs generalizing l with
  | nil => rfl
  | cons f fs ih =>
    obtain ⟨hf, ht⟩ := h
    rw [← length_rspPut hf] at ht
    rw [List.foldl_cons, ih ht, length_rspPut hf, List.foldl_cons]

/-- A response ends with its last field. -/
theorem length_rspOf {fs : List (Nat × Nat × Nat)} (h : fieldsRise 0 fs) :
    (rspOf fs).length = fs.foldl (fun _ f => f.1 + f.2.1) 0 := length_foldl_rspPut (l := []) h

theorem rdLE_foldl_rspPut_of_mem {fs : List (Nat × Nat × Nat)} {l : List Byte} {off n v : Nat} (h : fieldsRise l.length fs)
    (hm : (off, n, v) ∈ fs) : rdLE (fs.foldl rspPut l) off n = v % 256 ^ n := by
  induction fs generalizing l with
  | nil => cases hm
  | cons f fs ih =>
    obtain ⟨hf, ht⟩ := h
    rw [← length_rspPut hf] at ht
    obtain rfl | hm := List.mem_cons.mp hm
    · rw [List.foldl_cons, rdLE_foldl_rspPut (by rw [length_rspPut hf]), rspPut]
      have hlen : (l ++ List.replicate (off - l.length) (0 : Byte)).length = off := by
        simp only [List.length_append, List.length_replicate]
        exact Nat.add_sub_cancel' hf
      have hrd := rdLE_append_length (l ++ List.replicate (off - l.length) (0 : Byte)) (bytesOf n v) n
      rw [hlen] at hrd
      rw [hrd, rdLE_bytesOf]
    · exact ih ht hm

/-- Each field of a response reads as its value. -/
theorem rdLE_rspOf {fs : List (Nat × Nat × Nat)} {off n v : Nat} (h : fieldsRise 0 fs) (hm : (off, n, v) ∈ fs) :
    rdLE (rspOf fs) off n = v % 256 ^ n := rdLE_foldl_rspPut_of_mem (l := []) h hm

/-! ## Requests at a mailbox (R331 to R333) -/

/-- An accepted request that the device and the berth take is acted on. -/
theorem onReq_of_requests {s : State} {mb : Mbox} {code : Nat} {r : MbReq} (h : Requests s mb code r) (f : MbReq → State) :
    s.onReq mb code f = .next (f r) := by
  obtain ⟨⟨hex, hrun⟩, ⟨hreq, hop⟩, hstage, hst, hheld⟩ := h
  simp [State.onReq, hex, hrun, hreq, hop, hstage, hst, hheld, Option.filter]

end Machine
end Sys2Proof
end

section
/-! PROOFS. What an operation's mask says of a whole record of the state, and of the parts that a record is made of. -/

namespace Sys2Proof.Machine

/-! ## Records that no bit of the mask reaches -/

section
variable {w : Nat} {s t : State} (h : Does w s t)
include h

theorem Does.lk (hctx : w.testBit Part.contexts.ctorIdx = false) (hcmd : w.testBit Part.commands.ctorIdx = false) : t.lk = s.lk := by
  have h1 := h.only .contexts hctx
  have h2 := h.only .commands hcmd
  simp only [Part.same, Prod.mk.injEq] at h1 h2
  cases hs : s.lk
  cases ht : t.lk
  simp_all

theorem Does.thr (hthr : w.testBit Part.threads.ctorIdx = false) (htick : w.testBit Part.tickets.ctorIdx = false) : t.thr = s.thr := by
  have h1 := h.only .threads hthr
  have h2 := h.only .tickets htick
  simp only [Part.same, Prod.mk.injEq] at h1 h2
  cases hs : s.thr
  cases ht : t.thr
  simp_all

theorem Does.mbx (hpages : w.testBit Part.mailboxes.ctorIdx = false) (hbg : w.testBit Part.background.ctorIdx = false) :
    t.mbx = s.mbx := by
  have h1 := h.only .mailboxes hpages
  have h2 := h.only .background hbg
  simp only [Part.same, Prod.mk.injEq] at h1 h2
  cases hs : s.mbx
  cases ht : t.mbx
  simp_all

theorem Does.sec (hfuse : w.testBit Part.fuses.ctorIdx = false) (halarm : w.testBit Part.alarm.ctorIdx = false)
    (htrust : w.testBit Part.trust.ctorIdx = false) (hfw : w.testBit Part.firmware.ctorIdx = false) : t.sec = s.sec := by
  have h1 := h.only .fuses hfuse
  have h2 := h.only .alarm halarm
  have h3 := h.only .trust htrust
  have h4 := h.only .firmware hfw
  simp only [Part.same, Prod.mk.injEq] at h1 h2 h3 h4
  cases hs : s.sec
  cases ht : t.sec
  simp_all

theorem Does.pwr (hpwr : w.testBit Part.power.ctorIdx = false) : t.pwr = s.pwr := (h.only .power hpwr).symm

/-! ## Parts of a record -/

theorem Does.alarm (halarm : w.testBit Part.alarm.ctorIdx = false) :
    t.sec.alarmLock = s.sec.alarmLock ∧ t.sec.alarmCause = s.sec.alarmCause ∧ t.sec.alarmLevel = s.sec.alarmLevel := by
  have h1 := h.only .alarm halarm
  simp only [Part.same, Prod.mk.injEq] at h1
  obtain ⟨hlock, hcause, hlevel⟩ := h1
  exact ⟨hlock.symm, hcause.symm, hlevel.symm⟩

end

end Sys2Proof.Machine
end

section
/-! PROOFS. Mailbox operations on berths and contexts (Tables 13.3 and 13.11). Each opcode's meaning is what firmware does with an
accepted request (`onReq_of_requests`); the statement's checks pick the branch. -/

namespace Sys2Proof.Machine

/-- The page of a mailbox that is the operator's or a berth's own may act on a context of that berth. -/
theorem ctxHalt_of_own {s : State} {mb : Mbox} {r : MbReq} {x : Context} {free : Bool} (hx : s.ctx? (r.num 0 2) = some x)
    (hmb : mb = .op ∨ mb = .berth x.berth) (hstage : (s.mbPage (mbKey mb)).stage = false) :
    s.ctxHalt mb r free =
      let m := ((s.haltBegin (r.num 0 2)).modPage (mbKey mb) fun p => { p with stage := true }).haltGo (r.num 0 2)
      if m.haltLeft (r.num 0 2) then m else (if free then m.ctxFree (r.num 0 2) else m.haltEnd (r.num 0 2)).mbOk mb [] := by
  obtain rfl | rfl := hmb <;> simp [State.ctxHalt, hx, hstage]

/-- A reset or destruction of an active berth whose pages have nothing in progress. -/
theorem berthHalt_of_active {s : State} {mb : Mbox} {r : MbReq} {next : BerthState} {e : Berth} (hb : r.num 0 1 ≠ 0)
    (he : s.berth? (r.num 0 1) = some e) (hact : e.state = .active)
    (hpage : ([0, r.num 0 1].any fun k => k != mbKey mb && s.pageOn (r.num 0 1) k) = false) (hbg : s.bgCount mb < 8) :
    s.berthHalt mb r next =
      let m := (s.bgsEnd (r.num 0 1) 0x2002).modBerth (r.num 0 1) fun e => { e with state := next }
      ((m.ctxsOf (r.num 0 1)).foldl State.haltBegin m).bgBegin mb r [] := by
  simp only [State.berthHalt, he, hact, hpage, if_neg hb, Nat.not_le.mpr hbg]
  rfl

/-- Settles O48: the request is acted on, and the checks pick the branch. -/
theorem berthOperations : Obligations.BerthOperations := by
  unfold Obligations.BerthOperations
  intro s mb r
  refine ⟨?create, ?halt, ?handover, ?query, ?limits, ?account, ?moveList, ?faults, ?ctxCreate, ?ctxHalt⟩
  case create =>
    intro b ds m h hb hds hmax hfree hkind hprio hgrow hne hfq hnew hspill hbuild
    subst hb hds
    refine (onReq_of_requests h _).trans ?_
    have hfq' : ¬ (r.num 32 4 ≠ 0 ∧ (r.num 32 4 < 64 ∨ r.num 32 4 > 4096)) := by omega
    simp [hmax, hfree, hkind, hprio, hgrow, hne, hnew, hspill, hbuild, hfq', Nat.not_lt.mpr]
  case halt =>
    intro b e code state i hi h hb hb0 he hact hpage hbg m hm
    subst hb hm
    simp only [Prod.mk.injEq] at hi
    obtain ⟨rfl, rfl, rfl⟩ | ⟨rfl, rfl, rfl⟩ := hi <;>
      exact (onReq_of_requests h _).trans (congrArg _ (berthHalt_of_active hb0 he hact hpage hbg))
  case handover =>
    intro e h hd hne hsrc hdst hpres he hcont
    refine (onReq_of_requests h _).trans ?_
    have hdst' : ¬ (r.num 1 1 ≠ 0 ∧ (!s.spaceBerth (r.num 1 1)) = true) := by
      rintro ⟨h0, hno⟩
      simp [hdst.resolve_left h0] at hno
    simp only [Nat.not_le.mpr hd, hne, hsrc, hdst', hpres, he, Option.any_some, hcont]
    rfl
  case query =>
    intro h
    have heq : exec (.berthQuery mb) s = _ := onReq_of_requests h _
    cases he : s.berth? (r.num 0 1) with
    | none =>
      simp only [he] at heq
      exact ⟨_, heq, length_rspOf (by simp [fieldsRise]), nofun⟩
    | some e =>
      simp only [he] at heq
      refine ⟨_, heq, length_rspOf (by simp [fieldsRise]), ?_⟩
      rintro _ ⟨⟩
      refine ⟨rdLE_rspOf ?_ ?_, rdLE_rspOf ?_ ?_, rdLE_rspOf ?_ ?_⟩ <;> simp [fieldsRise]
  case limits =>
    intro e h hb he hprio hgrow hkind
    refine (onReq_of_requests h _).trans ?_
    simp [hb, he, hkind, Nat.not_lt.mpr hprio, Nat.not_lt.mpr hgrow]
  case account =>
    intro e h hb he
    refine (onReq_of_requests h _).trans ?_
    simp [hb, he]
  case moveList =>
    intro rd m h hk hrd hw hst hes
    refine (onReq_of_requests h _).trans ?_
    have hall : ((moveEntries rd.bytes).any fun e => e.2.2 % 0x10000 != 0 || e.1 % 0x10000 != 0) = false := by
      simpa using fun a b c hm => hes (a, b, c) hm
    simp only [Nat.not_lt.mpr hk, hrd, hw, hst, hall]
    rfl
  case faults =>
    intro e h he hkind hlo hhi hth
    refine (onReq_of_requests h _).trans ?_
    have h0 : r.num 16 4 ≠ 0 := by omega
    simp [he, hkind, h0, Nat.not_lt.mpr hlo, Nat.not_lt.mpr hhi, hth]
  case ctxCreate =>
    intro e n k rd m h he hact hkind hhome hsq hsq' hcq hcq' hva hn hk hrd hw hst
    refine (onReq_of_requests h _).trans ?_
    simp [-List.getD_eq_getElem?_getD, he, hact, hhome, hn, hk, hrd, hw, hst, hkind, hva, Nat.not_lt.mpr hsq,
      Nat.not_lt.mpr hsq', Nat.not_lt.mpr hcq, Nat.not_lt.mpr hcq']
  case ctxHalt =>
    intro x n free m i hi hn hx hmb hm
    subst hn hm
    obtain ⟨rfl, h, rfl⟩ | ⟨rfl, h, rfl⟩ := hi <;>
      exact (onReq_of_requests h _).trans (congrArg _ (ctxHalt_of_own hx hmb h.fresh))

end Sys2Proof.Machine
end

section
/-! PROOFS. Mailbox operations on a berth's pages, moorings and regions (Tables 13.3 and 13.9, R337, R340). -/

namespace Sys2Proof.Machine

/-- A request on a range of an active berth's pages that its checks let through. -/
theorem onRange_of_checks {s : State} {mb : Mbox} {r : MbReq} {k : Nat → Nat → Nat → List (Nat × Nat) → State}
    (hex : (s.berth? (r.num 0 1)).isSome = true) (hact : s.berthActive (r.num 0 1) = true) (hva : r.num 8 8 % 0x10000 = 0)
    (hn : r.num 4 4 ≠ 0) (hend : r.num 8 8 + r.num 4 4 * 0x10000 ≤ 2 ^ 47)
    (hcode : ∀ p ∈ s.ownRange (r.num 0 1) (r.num 8 8 / 0x10000) (r.num 4 4), (s.pot p.2).code = false) :
    s.onRange mb r k = k (r.num 0 1) (r.num 8 8 / 0x10000) (r.num 4 4) (s.ownRange (r.num 0 1) (r.num 8 8 / 0x10000) (r.num 4 4)) := by
  have hany : ((s.ownRange (r.num 0 1) (r.num 8 8 / 0x10000) (r.num 4 4)).any fun p => (s.pot p.2).code) = false :=
    List.any_eq_false.mpr fun p hp => by simp [hcode p hp]
  have hno : (s.berth? (r.num 0 1)).isNone = false := by rw [← Option.not_isSome, hex]; rfl
  have hlen : ¬ r.num 8 8 + r.num 4 4 * 0x10000 > 2 ^ 47 := by omega
  simp only [State.onRange, hno, hact, hva, hn, hlen, hany]
  rfl

/-- Settles O49: the request is acted on, and the checks pick the branch. -/
theorem pageOperations : Obligations.PageOperations := by
  unfold Obligations.PageOperations
  intro s mb r b e hb he hact
  subst hb
  refine ⟨?alloc, ?range, ?poolCreate, ?poolGrow, ?poolRebuild, ?peerRegion, ?hostRegion, ?pasid⟩
  case alloc =>
    intro h hleaf hn hunit hva hend hdie hfree hquota
    refine (onReq_of_requests h _).trans ?_
    have hdie' : ¬ (r.num 1 1 ≥ 72 ∧ r.num 1 1 ≠ 0xFF) := by omega
    have hpres : ¬ (r.num 1 1 ≠ 0xFF ∧ (!s.present (r.num 1 1)) = true) := by
      rintro ⟨hff, hno⟩
      simp [(hdie.resolve_left hff).2] at hno
    simp only [h.fresh, he, hact, Nat.not_lt.mpr hleaf, hn, hunit, hva, Nat.not_lt.mpr hend, hdie', hpres, hfree,
      Nat.not_lt.mpr hquota]
    rfl
  case range =>
    intro ps hps hba hva hn hend hcode
    subst hps
    have hex : (s.berth? (r.num 0 1)).isSome = true := by rw [he]; rfl
    refine ⟨fun h => (onReq_of_requests h _).trans ?_, fun h => (onReq_of_requests h _).trans ?_⟩ <;>
    · simp only [h.fresh, onRange_of_checks hex hba hva hn hend hcode]
      rfl
  case poolCreate =>
    intro m ds h hb0 hpool hn hn' hds hne hall hm
    subst hds
    refine (onReq_of_requests h _).trans ?_
    simp only [he, hb0, hact, hpool, hn, Nat.not_lt.mpr hn', hne, hall, hm]
    rfl
  case poolGrow =>
    intro p m h hpool hn hlen hm
    refine (onReq_of_requests h _).trans ?_
    simp only [he, hpool, hact, hn, Nat.not_lt.mpr hlen, hm, Option.bind_some, Option.map_some]
    rfl
  case poolRebuild =>
    intro p h hpool hworks
    refine (onReq_of_requests h _).trans ?_
    simp [he, hpool, hact, hworks]
  case peerRegion =>
    intro h hba hbad hw hdest hlen
    refine (onReq_of_requests h _).trans ?_
    simp only [h.fresh, he, hba, hbad, Nat.not_lt.mpr hw, Nat.not_le.mpr hdest, Nat.not_lt.mpr hlen]
    rfl
  case hostRegion =>
    intro h htee hbad hport hpasid
    refine (onReq_of_requests h _).trans ?_
    have htee' : ¬ (e.trusted = true ∧ e.locked = true) := by
      rintro ⟨ht, hl⟩
      simp [ht, hl] at htee
    have hpasid' : ¬ (r.num 0 1 ≠ 0 ∧ r.num 16 8 ≠ 0 ∧ e.pasid.isNone = true) := by
      rintro ⟨hb0, hl, hno⟩
      have hs := (hpasid.resolve_left hb0).resolve_left hl
      simp [← Option.not_isSome, hs] at hno
    simp only [h.fresh, he, hact, htee', hbad, Nat.not_lt.mpr hport, hpasid']
    rfl
  case pasid =>
    intro h hb0
    refine (onReq_of_requests h _).trans ?_
    simp [he, hb0]

end Sys2Proof.Machine
end

section
/-! PROOFS. Mailbox operations on the cargo and the convoy program (Table 13.4, R253 to R255, R342). -/

namespace Sys2Proof.Machine

/-- A word of n bytes fits in n bytes. -/
theorem toNat_lt_bytes {n : Nat} (w : BitVec (8 * n)) : w.toNat < 256 ^ n := w.isLt.trans_eq (Nat.pow_mul 2 8 n)

/-- Settles O50: the request is acted on, and the checks pick the branch. -/
theorem cargoOperations : Obligations.CargoOperations := by
  unfold Obligations.CargoOperations
  intro s mb r
  refine ⟨?openCargo, ?source, ?sealCargo, ?map, ?unload, ?query, ?register, ?unregister⟩
  case openCargo =>
    intro ds h hst hn hds hne hva hend hall hfree
    subst hds
    refine (onReq_of_requests h _).trans ?_
    simp only [hst, hn, hne, hva, Nat.not_lt.mpr hend, hall, hfree]
    rfl
  case source =>
    intro h hst hn hlen hpeer hport
    refine (onReq_of_requests h _).trans ?_
    simp only [hst, hn, Nat.not_lt.mpr hlen, Nat.not_lt.mpr hpeer, Nat.not_lt.mpr hport]
    rfl
  case sealCargo =>
    intro h hst hsrc
    refine (onReq_of_requests h _).trans ?_
    have hall : ((List.range s.bth.cargoPages.length).all fun i => NMap.has s.bth.sources i) = true := by simpa using hsrc
    simp only [hst, hall]
    rfl
  case map =>
    intro e he hact
    refine ⟨fun h hst hno hfree => (onReq_of_requests h _).trans ?_, fun h hmap => (onReq_of_requests h _).trans ?_⟩
    · simp only [h.fresh, he, hst, hact, hno, hfree]
      rfl
    · simp only [h.fresh, he, hact, hmap, Option.any_some]
      rfl
  case unload =>
    intro h hst hused
    refine (onReq_of_requests h _).trans ?_
    simp only [hst, hused]
    rfl
  case query =>
    intro h
    refine ⟨_, onReq_of_requests h _, ?_, fun hst => ?_⟩
    · refine (rdLE_rspOf (v := s.bth.cargoState.code) ?_ ?_).trans (by cases s.bth.cargoState <;> rfl) <;> simp [fieldsRise]
    · have hfits := Nat.mod_eq_of_lt (toNat_lt_bytes (n := 48) s.bth.cargoHash)
      exact (rdLE_rspOf (v := s.bth.cargoHash.toNat) (by simp [fieldsRise]) (by simp [hst])).trans hfits
  case register =>
    intro ps rd m x h hst hno hn htpm htpm' hscr hva hx hb hps hrd hw hrs
    refine (onReq_of_requests h _).trans ?_
    have hctx : ((s.ctx? (r.num 26 2)).any fun x => x.berth == 0) = true := by simp [hx, hb]
    have htpm0 : r.num 20 4 ≠ 0 := by omega
    simp only [hst, hno, hn, htpm0, Nat.not_lt.mpr htpm', Nat.not_lt.mpr hscr, hva, hctx, hps, hrd, hw, hrs]
    rfl
  case unregister =>
    intro c h hc hused
    refine (onReq_of_requests h _).trans ?_
    simp only [hc, hused]
    rfl

end Sys2Proof.Machine
end

section
/-! PROOFS. Mailbox operations on the device (Table 13.2, R338, R339), and how background operations end (R334, R340 to R344). -/

namespace Sys2Proof.Machine

/-! ## Device operations -/

/-- Every boot state's code fits in a byte. -/
theorem bootCode_lt (s : State) : s.bootCode < 256 := by
  unfold State.bootCode
  split
  · decide
  · cases s.pwr.boot <;> decide

/-- A BG_ID that names an operation of the mailbox is that of an operation in the list. -/
theorem namedBg_snd {s : State} {mb : Mbox} {id : Nat} {g : Bg} (h : s.namedBg mb id = (0, some g)) : s.bg? id = some g ∧ g.mb = mb := by
  unfold State.namedBg at h
  cases hg : s.bg? id with
  | none => simp [hg] at h
  | some q =>
    rw [hg] at h
    by_cases hm : q.mb = mb
    · simp only [if_pos hm, Prod.mk.injEq, Option.some.injEq, true_and] at h
      exact ⟨congrArg some h, h ▸ hm⟩
    · simp [if_neg hm] at h

/-- Settles O51: the request is acted on, and the checks pick the branch. -/
theorem deviceOperations : Obligations.DeviceOperations := by
  unfold Obligations.DeviceOperations
  refine ⟨fun s mb r => ⟨?identify, ?named, ?window, ?spread, ?image, ?reset⟩, ?timeout⟩
  case identify =>
    intro h
    refine ⟨_, onReq_of_requests h _, length_rspOf (by simp [fieldsRise]), ?_, ?_, ?_⟩
    · refine (rdLE_rspOf (v := s.sec.fuses.dsn.toNat) ?_ ?_).trans (Nat.mod_eq_of_lt s.sec.fuses.dsn.isLt) <;> simp [fieldsRise]
    · refine (rdLE_rspOf (v := s.bootCode) ?_ ?_).trans (Nat.mod_eq_of_lt (bootCode_lt s)) <;> simp [fieldsRise]
    · exact rdLE_rspOf (v := s.clk.now) (by simp [fieldsRise]) (by simp)
  case named =>
    intro g hg
    refine ⟨fun h => ?status, fun h hend hseal hfw => ?abort⟩
    case status =>
      have heq : exec (.bgStatus mb) s = _ := onReq_of_requests h _
      simp only [hg] at heq
      have hlen : (rspOf [(0, 2, if g.ended then g.status.toNat else 0x0901), (4, 4, g.progress),
        (8, 8, if g.ended then g.tDone else 0)]).length = 16 := length_rspOf (by simp [fieldsRise])
      refine ⟨_, heq, ?_, fun hend => ?_⟩
      · rw [rdLE_append_of_le _ (by rw [hlen]; decide)]
        refine (rdLE_rspOf (v := if g.ended then g.status.toNat else 0x0901) (by simp [fieldsRise]) (by simp)).trans
          (Nat.mod_eq_of_lt ?_)
        split
        · exact g.status.isLt
        · decide
      · rw [List.drop_left' hlen, if_pos hend]
    case abort =>
      refine (onReq_of_requests h _).trans ?_
      have hrun : ¬ (g.req.opcode = 0x0302 ∨ (g.req.opcode = 0x0901 ∧ s.mbx.switching = true)) := by
        rintro (h1 | ⟨h1, h2⟩)
        · exact hseal h1
        · simp [hfw.resolve_left (not_not.mpr h1)] at h2
      simp only [hg, hend, hrun]
      rfl
  case window =>
    intro w b hw hb h hw15 hfld hcls hbg
    subst hw hb
    refine (onReq_of_requests h _).trans ?_
    simp only [Nat.not_lt.mpr hw15, hfld, Nat.not_le.mpr hcls, Nat.not_le.mpr hbg]
    rfl
  case spread =>
    intro h hset hbg hok
    refine (onReq_of_requests h _).trans ?_
    simp only [Nat.not_lt.mpr hset, Nat.not_le.mpr hbg, hok]
    rfl
  case image =>
    intro rd m h hbg hrd hw hst
    refine (onReq_of_requests h _).trans ?_
    simp only [Nat.not_le.mpr hbg, hrd, hw, hst]
    rfl
  case reset =>
    intro h hkey htrip
    refine (onReq_of_requests h _).trans ?_
    simp only [hkey, htrip]
    rfl
  case timeout =>
    intro s bg g off hg hend htmo hsince
    have hrun : (s.bg? bg).filter (!·.ended) = some g := by simp [hg, hend]
    refine Eq.trans (b := execSetAllTimeout bg s) rfl ?_
    unfold execSetAllTimeout
    rw [hrun, needSome_some, htmo, needSome_some, decide_eq_true hsince, need_true]

/-! ## Background operations -/

/-- Clearing a berth's holds and moorings leaves the page tables alone, so it leaves the berth's pages. -/
theorem berthClear_pagesOf (s : State) (b c : Nat) : (s.berthClear b).pagesOf c = s.pagesOf c := by
  have hpot : s.mem.pot = (s.berthClear b).mem.pot := State.berthClear_does.only .pages rfl
  simp only [State.pagesOf, hpot]

theorem ctxsOf_congr {s t : State} (h : s.lk.ctxs = t.lk.ctxs) (b : Nat) : s.ctxsOf b = t.ctxsOf b := by
  simp only [State.ctxsOf, h]

theorem berthClear_ctxsOf (s : State) (b c : Nat) : (s.berthClear b).ctxsOf c = s.ctxsOf c :=
  (ctxsOf_congr (State.berthClear_does.only .contexts rfl) c).symm

theorem modBerth_ctxsOf (s : State) (b c : Nat) (f : Berth → Berth) : (s.modBerth b f).ctxsOf c = s.ctxsOf c :=
  (ctxsOf_congr (State.modBerth_does.only .contexts rfl) c).symm

/-- The end of a background operation leaves the cargo as it is. -/
theorem bgEnd_cargo (s : State) (id : Nat) (st : Status) (rsp : List Byte) (hst : s.bth.cargoState = .none)
    (hpages : s.bth.cargoPages = []) (hsrc : s.bth.sources = []) :
    (s.bgEnd id st rsp).bth.cargoState = .none ∧ (s.bgEnd id st rsp).bth.cargoPages = [] ∧ (s.bgEnd id st rsp).bth.sources = [] := by
  have hkept : Part.same s (s.bgEnd id st rsp) .cargo := State.bgEnd_does.only .cargo rfl
  simp only [Part.same, Prod.mk.injEq] at hkept
  obtain ⟨hst', hpages', -, -, -, hsrc', -, -⟩ := hkept
  exact ⟨hst' ▸ hst, hpages' ▸ hpages, hsrc' ▸ hsrc⟩

/-- What a background operation in progress does next, by its opcode (R334). -/
def bgNext (code : BitVec 16) (g : Bg) (s : State) : Out :=
  match code.toNat with
  | 0x0110 => bgWindow g s
  | 0x0111 => bgSpread g s
  | 0x0112 => bgFin g s
  | 0x0201 => bgBerthDestroy g s
  | 0x0202 => bgBerthReset g s
  | 0x0205 => bgHandover g s
  | 0x0300 => bgCargoOpen g s
  | 0x0302 => bgCargoSeal g s
  | 0x0305 => bgCargoUnload g s
  | 0x0505 => bgUnitRetire g s
  | 0x0702 => bgSnapshot g s
  | 0x0901 => bgFwActivate g s
  | 0x0903 => .next (s.bgEnd g.id 0 [])
  | 0x0904 => .next (s.bgEnd g.id 0 (rspOf [(0, 1, g.aux.getD 0 0), (1, 1, g.aux.getD 1 0), (2, 1, g.aux.getD 2 0)]))
  | _ => .fault .notArmed

/-- While firmware runs in SERVICE, an operation that has not ended goes on. -/
theorem bgOperationEnd_of_running {s : State} {g : Bg} (hup : (s.mbRuns && s.pwr.boot == .service) = true)
    (hgo : (s.bg? g.id).filter (!·.ended) = some g) : exec (.bgOperationEnd g.id) s = bgNext g.req.opcode g s := by
  refine Eq.trans (b := execBgOperationEnd g.id s) rfl ?_
  rw [execBgOperationEnd, hup, need_true, hgo, needSome_some]
  rfl

/-- Settles O52: the operation that runs goes on by its opcode. -/
theorem backgroundEnds : Obligations.BackgroundEnds := by
  unfold Obligations.BackgroundEnds
  intro s bg g hrun hboot hg hend hid
  have hgo : (s.bg? bg).filter (!·.ended) = some g := by simp [hg, hend]
  have hup : (s.mbRuns && s.pwr.boot == .service) = true := by simp [hrun, hboot]
  subst hid
  have hrun : ∀ code : BitVec 16, g.req.opcode = code → exec (.bgOperationEnd g.id) s = bgNext code g s := by
    rintro _ rfl
    exact bgOperationEnd_of_running hup hgo
  refine ⟨fun hop => ?abort, fun hop => ?margin, fun hop hfin => ?image, fun m hop hq => ?reset, fun m k hop hq hrel => ?destroy,
    fun m hop hrel => ?unload, fun st hop hst => ?activate⟩
  case abort => exact hrun _ hop
  case margin => exact hrun _ hop
  case image =>
    refine (hrun _ hop).trans (Eq.trans (b := bgFin g s) rfl ?_)
    have hall : (s.diesIn.all fun d => !NMap.has s.eng.finPending d) = true := by simpa using hfin
    rw [bgFin, hall, need_true]
  case reset =>
    have hres : exec (.bgOperationEnd g.id) s = bgBerthReset g s := hrun _ hop
    simp only [bgBerthReset, hq] at hres
    refine ⟨_, hres, _, ?_, rfl⟩
    rw [modBerth_ctxsOf, berthClear_ctxsOf]
  case destroy =>
    refine (hrun _ hop).trans (Eq.trans (b := bgBerthDestroy g s) rfl ?_)
    rw [berthClear_pagesOf] at hrel
    simp only [bgBerthDestroy, hq, hrel]
  case unload =>
    have hres : exec (.bgOperationEnd g.id) s = bgCargoUnload g s := hrun _ hop
    simp only [bgCargoUnload, hrel] at hres
    refine ⟨_, hres, ?_⟩
    exact bgEnd_cargo _ _ _ _ rfl rfl rfl
  case activate =>
    have hact : exec (.bgOperationEnd g.id) s = bgFwActivate g s := hrun _ hop
    rw [hact]
    unfold bgFwActivate
    simp only [hst]
    clear hst
    refine ⟨fun hbad => if_pos hbad, fun hok hidle => ?_⟩
    have hall : (s.mbx.pages.all fun p => p.2.req.isNone) = true := by simpa using hidle
    rw [if_neg (not_not.mpr hok), hall, need_true]

end Sys2Proof.Machine
end

section
/-! PROOFS. Mailbox operations on the links (Table 13.9, R286, R289, R290, R298). -/

namespace Sys2Proof.Machine

/-- An entry of the route write stands for itself in the request's list. -/
theorem routeEntries_ok {es : List Nat} (h : ∀ e ∈ es, e < 2 ^ 27 ∧ routeEntryOk e = true) :
    (es.any fun e => decide (e ≥ 2 ^ 27)) = false ∧ es.all routeEntryOk = true :=
  ⟨List.any_eq_false.mpr fun e he => by simpa using (h e he).1, List.all_eq_true.mpr fun e he => (h e he).2⟩

/-- Settles O53: the request is acted on, and the checks pick the branch. -/
theorem linkOperations : Obligations.LinkOperations := by
  unfold Obligations.LinkOperations
  intro s mb r
  refine ⟨?devId, ?routeWrite, ?routeCommit, ?port, ?cut, ?span, ?group, ?tsync⟩
  case devId =>
    intro h hbusy
    refine (onReq_of_requests h _).trans ?_
    simp only [hbusy]
    rfl
  case routeWrite =>
    intro es bank h hpart hn hn' hend hes hok hold hbank
    subst hbank hes
    refine (onReq_of_requests h _).trans ?_
    obtain ⟨hres, hrange⟩ := routeEntries_ok hok
    have hin : ¬ (r.num 0 1 > 1 ∨ r.num 4 2 = 0 ∨ r.num 4 2 > 512 ∨ r.num 2 2 + r.num 4 2 > 512) := by omega
    simp only [hin, hres, hrange, hold]
    rfl
  case routeCommit => exact fun h => onReq_of_requests h _
  case port =>
    intro p hp h hlt hfen
    subst hp
    refine ⟨fun ha => ?_, fun ha => ?_, fun ha => ?_, fun ha => ?_, fun ha => ?_, fun ha => ?_⟩ <;>
    · refine (onReq_of_requests h _).trans ?_
      simp only [Nat.not_le.mpr hlt, ha, hfen]
      rfl
  case cut =>
    intro t p ht hp h htlt hplt hpres hcut
    subst ht hp
    have hin : ¬ (r.num 0 1 ≥ 76) := by omega
    refine ⟨fun ha => ?_, fun ha => ?_, fun ha => ?_, fun ha => ?_, fun ha => ?_⟩ <;>
    · refine (onReq_of_requests h _).trans ?_
      simp only [hin, htlt, ↓reduceIte, Nat.not_le.mpr hplt, ha, hpres, hcut]
      rfl
  case span =>
    intro b id hb hid h hb0 hb254 hact
    subst hb hid
    refine ⟨fun hz => (onReq_of_requests h _).trans ?_, fun hnz hid hle hhi hfree => (onReq_of_requests h _).trans ?_⟩
    · simp only [hb0, Nat.not_lt.mpr hb254, hz, hact]
      rfl
    · have hin : ¬ (r.num 0 1 = 0 ∨ r.num 0 1 > 254 ∨ r.num 4 4 ≥ 2 ^ 24 ∨ (r.num 4 4 ≠ 0 ∧
          (r.num 8 4 > r.num 12 4 ∨ r.num 12 4 ≥ 2 ^ 18))) := by omega
      have hsole : (s.erh.spans.any fun e => e.1 != r.num 0 1 && e.2.id == r.num 4 4) = false :=
        List.any_eq_false.mpr fun e he => by
          rcases hfree e he with h1 | h2
          · simp [h1]
          · simp [h2]
      simp only [hin, hact, hsole, hnz, Bool.false_eq_true, and_false]
      rfl
  case group =>
    intro n b g hn hb hg h hn1 hn2 hres hruns hvalid
    subst hn hb
    refine (onReq_of_requests h _).trans ?_
    have hin : ¬ (r.num 0 2 < 1 ∨ r.num 0 2 > 4095) := by omega
    simp only [← hg, hin, hres, hruns]
    rcases hvalid with hv | ⟨hrange, hact, harr, hrel⟩
    · simp only [hv]
      rfl
    · simp only [hrange, hact, List.all_cons, List.all_nil, harr, hrel]
      simp
  case tsync =>
    intro h hrole hup hpps hstep
    refine (onReq_of_requests h _).trans ?_
    simp only [Nat.not_lt.mpr hrole, Nat.not_le.mpr hup, Nat.not_lt.mpr hpps, Nat.not_lt.mpr hstep]
    rfl

end Sys2Proof.Machine
end

section
/-! PROOFS. Mailbox operations of maintenance, power, security (Tables 13.5, 13.7, 13.10), of reliability and observation
(Tables 13.6, 13.8). -/

namespace Sys2Proof.Machine

/-! ## Upkeep -/

/-- Four free words make a number below 2^256. -/
theorem freeWords_lt (f : Nat) : (Config.freeWord f).toNat + (Config.freeWord (f + 1)).toNat * 2 ^ 64 +
    (Config.freeWord (f + 2)).toNat * 2 ^ 128 + (Config.freeWord (f + 3)).toNat * 2 ^ 192 < 2 ^ 256 := by
  have h0 := (Config.freeWord f).isLt
  have h1 := (Config.freeWord (f + 1)).isLt
  have h2 := (Config.freeWord (f + 2)).isLt
  have h3 := (Config.freeWord (f + 3)).isLt
  omega

/-- Settles O54: the request is acted on, and the checks pick the branch. -/
theorem upkeepOperations : Obligations.UpkeepOperations := by
  unfold Obligations.UpkeepOperations
  intro s mb r
  refine ⟨?stage, ?activate, ?fwQuery, ?site, ?repair, ?cap, ?power, ?ratio, ?half, ?security, ?challenge, ?unlock⟩
  case stage =>
    intro data h hdata h0 hmax hlen
    subst hdata
    refine (onReq_of_requests h _).trans ?_
    simp only [h0, Nat.not_lt.mpr hmax, Nat.not_lt.mpr hlen]
    rfl
  case activate =>
    intro h hslot hbg himg
    have himg' : (s.slotImage (r.num 0 1)).isNone = false := by rw [← Option.not_isSome, himg]; rfl
    refine (onReq_of_requests h _).trans ?_
    simp only [Nat.not_lt.mpr hslot, hbg, himg']
    rfl
  case fwQuery =>
    intro h
    refine ⟨_, onReq_of_requests h _, ?_, ?_⟩
    · exact (rdLE_rspOf (v := s.fwVersion.toNat) (by simp [fieldsRise]) (by simp)).trans (Nat.mod_eq_of_lt s.fwVersion.isLt)
    · exact rdLE_rspOf (v := s.sec.fwState) (by simp [fieldsRise]) (by simp)
  case site =>
    intro n hout
    refine ⟨fun h => (onReq_of_requests h _).trans ?_, fun lower upper h hstk haxis => (onReq_of_requests h _).trans ?_⟩
    · simp only [hout]
      rfl
    · simp only [hout, Nat.not_lt.mpr hstk, Nat.not_lt.mpr haxis]
      rfl
  case repair =>
    intro d o n hd h hlt hsite hstandby hrep hbg
    subst hd
    refine (onReq_of_requests h _).trans ?_
    simp only [Nat.not_le.mpr hlt, hsite, hstandby, hrep, Nat.not_le.mpr hbg]
    rfl
  case cap =>
    intro h hw hw' hms hms'
    refine (onReq_of_requests h _).trans ?_
    simp only [Nat.not_lt.mpr hw, Nat.not_lt.mpr hw', Nat.not_lt.mpr hms, Nat.not_lt.mpr hms']
    rfl
  case power =>
    intro h
    refine ⟨_, onReq_of_requests h _, rdLE_rspOf (v := s.pwr.windowMs) (by simp [fieldsRise]) (by simp), fun hop => ?_⟩
    subst hop
    exact rdLE_rspOf (v := s.pwr.capW) (by simp [fieldsRise]) (by simp [mbBerth, mbKey])
  case ratio =>
    intro ds h hds hall hlo hhi
    subst hds
    refine (onReq_of_requests h _).trans ?_
    simp only [Nat.not_lt.mpr hlo, Nat.not_lt.mpr hhi, hall]
    rfl
  case half =>
    intro d hd h hlt hpres hwhich hval
    subst hd
    refine (onReq_of_requests h _).trans ?_
    simp only [Nat.not_le.mpr hlt, Nat.not_lt.mpr hwhich, Nat.not_lt.mpr hval, hpres]
    rfl
  case security =>
    intro h
    refine ⟨_, onReq_of_requests h _, ?_, ?_⟩
    · rw [rdLE_append_of_le _ (by rw [length_rspOf (by simp [fieldsRise])]; simp)]
      exact rdLE_rspOf (v := s.sec.fuses.level) (by simp [fieldsRise]) (by simp)
    · rw [rdLE_append_of_le _ (by rw [length_rspOf (by simp [fieldsRise])]; simp)]
      refine (rdLE_rspOf (v := if s.sec.alarmLock then 1 else 0) (by simp [fieldsRise]) (by simp)).trans (Nat.mod_eq_of_lt ?_)
      split <;> decide
  case challenge => exact fun h => ⟨_, freeWords_lt s.fresh, onReq_of_requests h _⟩
  case unlock =>
    intro rd m h hpol hlen hrd hw hst
    refine ⟨fun hbad => (onReq_of_requests h _).trans ?_, fun hok => (onReq_of_requests h _).trans ?_⟩
    · simp only [Nat.not_le.mpr hpol, hlen, hrd, hw, hst, hbad]
      rfl
    · simp only [Nat.not_le.mpr hpol, hlen, hrd, hw, hst, hok]
      rfl

/-! ## Watch -/

/-- Settles O55: the request is acted on, and the checks pick the branch. -/
theorem watchOperations : Obligations.WatchOperations := by
  unfold Obligations.WatchOperations
  intro s mb r
  refine ⟨?signatures, ?tallies, ?floor, ?selftest, ?repairs, ?counter, ?trace, ?snapshot, ?events, ?group⟩
  case signatures =>
    intro h hlo hhi
    refine (onReq_of_requests h _).trans ?_
    simp only [Nat.not_lt.mpr hlo, Nat.not_lt.mpr hhi]
    rfl
  case tallies =>
    intro u hu
    refine ⟨fun h => ?read, fun h hone => ?clear, fun h hbg => ?retire⟩
    case read =>
      have heq : exec (.tallyRead mb) s = _ := onReq_of_requests h _
      simp only [hu] at heq
      exact ⟨_, heq, rdLE_rspOf (v := (s.tallyTimes u).length) (by simp [fieldsRise]) (by simp)⟩
    case clear =>
      refine (onReq_of_requests h _).trans ?_
      simp only [hone, hu]
      rfl
    case retire =>
      refine (onReq_of_requests h _).trans ?_
      simp only [hu, Nat.not_le.mpr hbg]
      rfl
  case floor =>
    intro h
    refine ⟨fun hc => (onReq_of_requests h _).trans ?_, fun hc => (onReq_of_requests h _).trans ?_⟩
    · have hff : r.num 0 1 ≠ 0xFF := by omega
      simp only [Nat.not_lt.mpr hc, hff]
      rfl
    · simp only [hc]
      rfl
  case selftest =>
    intro h
    refine ⟨fun he => (onReq_of_requests h _).trans ?_, fun he => (onReq_of_requests h _).trans ?_⟩ <;>
    · simp only [he]
      rfl
  case repairs => exact fun h => onReq_of_requests h _
  case counter =>
    intro d k hd hk h hdlt hklt hpres hscope hevent
    subst hd hk
    refine (onReq_of_requests h _).trans ?_
    have hin : ¬ (r.num 0 1 ≥ 72 ∨ r.num 1 1 > 7) := by omega
    simp only [hin, hklt, hpres, Nat.not_lt.mpr hscope, hevent]
    rfl
  case trace =>
    intro d hd h hlt hpres
    subst hd
    refine ⟨fun hon => (onReq_of_requests h _).trans ?_, fun hon hn4 hnlo hnhi hva hend => (onReq_of_requests h _).trans ?_⟩
    · simp only [Nat.not_le.mpr hlt, hon, hpres]
      rfl
    · simp only [Nat.not_le.mpr hlt, hon, hpres, hn4, Nat.not_lt.mpr hnlo, Nat.not_lt.mpr hnhi, hva, Nat.not_lt.mpr hend]
      rfl
  case snapshot => exact fun h => onReq_of_requests h _
  case events =>
    intro h
    refine ⟨_, onReq_of_requests h _, ?_, ?_⟩
    · rw [List.append_assoc, rdLE_append_of_le _ (by rw [length_bytesOf]), rdLE_bytesOf]
      rfl
    · exact List.drop_left' (by rw [List.length_append, length_bytesOf, length_bytesOf])
  case group =>
    intro g h hlo hhi hg
    have heq : exec (.groupStatus .op) s = _ := onReq_of_requests h _
    have hin : ¬ (r.num 0 2 < 1 ∨ r.num 0 2 > 4095) := by omega
    simp only [hin, hg] at heq
    refine ⟨_, heq, ?_, ?_, ?_⟩
    · exact rdLE_rspOf (v := g.gen) (by simp [fieldsRise]) (by simp)
    · exact rdLE_rspOf (v := g.lastCount) (by simp [fieldsRise]) (by simp)
    · exact (rdLE_rspOf (v := g.lastStatus.toNat) (by simp [fieldsRise]) (by simp)).trans (Nat.mod_eq_of_lt g.lastStatus.isLt)

end Sys2Proof.Machine
end

section
/-! PROOFS. Mailbox pages (R330, R331, R345), how a request ends (R331, R334), and how a map changes (R337). -/

namespace Sys2Proof

/-! ## Maps with a default -/

section
variable {α : Type} [DecidableEq α] {d : α}

theorem NMap.sorted_set {m : NMap α} (h : NMap.sorted none m = true) (k : Nat) (v : α) :
    NMap.sorted none (NMap.set d m k v) = true := by
  unfold NMap.set
  split
  · exact NMap.sorted_erase k h
  · exact NMap.sorted_put v h (by simp)

/-- Reading after a write of one entry, the default being the entry that is not listed. -/
theorem NMap.getD_set {m : NMap α} (h : NMap.sorted none m = true) (k j : Nat) (v : α) :
    NMap.getD (NMap.set d m k v) j d = if j = k then v else NMap.getD m j d := by
  unfold NMap.set
  by_cases hv : v = d
  · rw [if_pos hv, NMap.getD, NMap.get?_erase h]
    by_cases hj : j = k
    · simp [hj, hv]
    · simp [hj, NMap.getD]
  · rw [if_neg hv, NMap.getD, NMap.get?_put]
    by_cases hj : j = k
    · simp [hj]
    · simp [hj, NMap.getD]

/-- A map with n entries set, from key a on. -/
def NMap.setRun (d : α) (m : NMap α) (a n : Nat) (f : Nat → α) : NMap α :=
  (List.range n).foldl (fun m i => NMap.set d m (a + i) (f i)) m

theorem NMap.sorted_setRun {m : NMap α} (h : NMap.sorted none m = true) (a n : Nat) (f : Nat → α) :
    NMap.sorted none (NMap.setRun d m a n f) = true := by
  induction n with
  | zero => exact h
  | succ n ih =>
    rw [NMap.setRun, List.range_succ, List.foldl_append]
    exact NMap.sorted_set ih _ _

/-- The run's entries read as set, all others as before. -/
theorem NMap.getD_setRun {m : NMap α} (h : NMap.sorted none m = true) (a n j : Nat) (f : Nat → α) :
    NMap.getD (NMap.setRun d m a n f) j d = if a ≤ j ∧ j < a + n then f (j - a) else NMap.getD m j d := by
  induction n with
  | zero => rw [if_neg (by omega)]; rfl
  | succ n ih =>
    rw [NMap.setRun, List.range_succ, List.foldl_append]
    refine (NMap.getD_set (NMap.sorted_setRun h a n f) (a + n) j (f n)).trans ?_
    rw [ih]
    by_cases hj : j = a + n
    · subst hj
      simp
    · rw [if_neg hj]
      by_cases hin : a ≤ j ∧ j < a + n
      · rw [if_pos hin, if_pos (by omega)]
      · rw [if_neg hin, if_neg (by omega)]

end

namespace Machine

/-! ## Bytes of a page -/

/-- A page whose bytes are in canonical order. -/
def MbPage.Ok (p : MbPage) : Prop := NMap.sorted none p.bytes = true

theorem MbPage.ok_set {p : MbPage} (h : p.Ok) (off : Nat) (l : List Byte) : (p.set off l).Ok :=
  NMap.sorted_setRun h off l.length (byteAt l)

/-- A page's byte after a write of bytes. -/
theorem MbPage.getD_set {p : MbPage} (h : p.Ok) (off j : Nat) (l : List Byte) :
    NMap.getD (p.set off l).bytes j 0 = if off ≤ j ∧ j < off + l.length then byteAt l (j - off) else NMap.getD p.bytes j 0 :=
  NMap.getD_setRun h off l.length j (byteAt l)

/-- Bytes written read back. -/
theorem MbPage.get_set_same {p : MbPage} (h : p.Ok) (off : Nat) (l : List Byte) : (p.set off l).get off l.length = l := by
  refine List.ext_getElem (by simp [MbPage.get]) fun i hi hl => ?_
  have hin : off ≤ off + i ∧ off + i < off + l.length := by omega
  simp only [MbPage.get, List.getElem_map, List.getElem_range]
  rw [MbPage.getD_set h, if_pos hin, Nat.add_sub_cancel_left, byteAt, List.getD_eq_getElem _ _ hl]

/-- Bytes apart from those written read as before. -/
theorem MbPage.get_set_apart {p : MbPage} (h : p.Ok) {off a n : Nat} {l : List Byte} (hap : a + n ≤ off ∨ off + l.length ≤ a) :
    (p.set off l).get a n = p.get a n := by
  refine List.map_congr_left fun i hi => ?_
  have hlt := List.mem_range.mp hi
  rw [MbPage.getD_set h, if_neg (by omega)]

/-- A number written reads back. -/
theorem MbPage.num_set_same {p : MbPage} (h : p.Ok) (off n v : Nat) : (p.set off (bytesOf n v)).num off n = v % 256 ^ n := by
  have hg := MbPage.get_set_same h off (bytesOf n v)
  rw [length_bytesOf] at hg
  rw [MbPage.num, hg, ofBytes_bytesOf]

theorem MbPage.num_set_apart {p : MbPage} (h : p.Ok) {off a n : Nat} {l : List Byte} (hap : a + n ≤ off ∨ off + l.length ≤ a) :
    (p.set off l).num a n = p.num a n := congrArg ofBytes (MbPage.get_set_apart h hap)

@[simp] theorem mbPage_modPage_self (s : State) (k : Nat) (f : MbPage → MbPage) : (s.modPage k f).mbPage k = f (s.mbPage k) := by
  simp [State.modPage, State.mbPage, State.modMbx]

/-- A notification leaves the mailboxes as they are. -/
theorem mbNotify_mbx (s : State) (mb : Mbox) (w : Word) (bg : Bool) : (s.mbNotify mb w bg).mbx = s.mbx :=
  State.mbNotify_does.mbx rfl rfl

/-! ## A caller's write to OWNER -/

/-- A write to a page that its firmware side has is discarded and counted (R331). -/
theorem mbWrite_of_owned {s : State} {k : Nat} (h : (s.mbPage k).owned = true) (off : Nat) (l : List Byte) :
    s.mbWrite k off l = s.modPage k fun p => p.set 0x2C (bytesOf 4 (satAdd 32 (p.num 0x2C 4) 1)) := by
  simp only [State.mbWrite, State.modPage, h, if_true]

/-- A berth's mailbox is there while the berth is. -/
theorem mailbox_there {s : State} {mb : Mbox} (h : mb = .op ∨ ∃ e, s.berth? (mbKey mb) = some e ∧ e.state ≠ .free) :
    ¬ (mb ≠ .op ∧ (s.berth? (mbKey mb)).all (·.state == .free) = true) := by
  rintro ⟨hne, hall⟩
  obtain ⟨e, he, hst⟩ := h.resolve_left hne
  rw [he] at hall
  exact hst (by simpa using hall)

/-- Settles O46: who has the page decides. -/
theorem mailboxPages : Obligations.MailboxPages := by
  unfold Obligations.MailboxPages
  intro s mb hex hgood
  refine ⟨fun hthere => ⟨fun m hown hm => ?free, fun hown hreq => ?busy⟩, fun hown hreq hsw hres => ?timeout⟩
  case free =>
    subst hm
    refine ⟨fun hrun => ?_, fun hrun => ?_⟩ <;>
    · refine Eq.trans (b := execMailboxOwnerSet mb s) rfl ?_
      rw [execMailboxOwnerSet, hex, need_true, hgood, need_true]
      simp only [mailbox_there hthere, hown, hrun]
      rfl
  case busy =>
    refine Eq.trans (b := execMailboxOwnerSet mb s) rfl ?_
    rw [execMailboxOwnerSet, hex, need_true, hgood, need_true]
    simp only [mailbox_there hthere, hown, hreq, mbWrite_of_owned hown]
    rfl
  case timeout =>
    refine Eq.trans (b := execMailboxAcceptTimeout mb s) rfl ?_
    simp only [execMailboxAcceptTimeout, hex, hgood, hown, hreq, hsw, hres]
    rfl

/-! ## How a request ends -/

/-- The bytes of a page once a request is answered (R331). -/
def MbPage.answerBytes (p : MbPage) (st : Status) (rsp : List Byte) (bg now : Nat) : MbPage :=
  (((((p.set 0x100 rsp).set 0x0E (bytesOf 2 rsp.length)).set 0x0A (bytesOf 2 st.toNat)).set 0x28 (bytesOf 4 bg)).set 0x20
    (bytesOf 8 now)).set 0 (bytesOf 4 0)

/-- A page with no request in progress. -/
def MbPage.freed (p : MbPage) : MbPage := { p with req := none, stage := false, work := [] }

@[simp] theorem MbPage.freed_get (p : MbPage) (off n : Nat) : p.freed.get off n = p.get off n := rfl

@[simp] theorem MbPage.freed_num (p : MbPage) (off n : Nat) : p.freed.num off n = p.num off n := rfl

@[simp] theorem MbPage.freed_owned (p : MbPage) : p.freed.owned = p.owned := rfl

theorem mbPage_mbAnswer (s : State) (mb : Mbox) (st : Status) (rsp : List Byte) (bg : Nat) :
    (s.mbAnswer mb st rsp bg).mbPage (mbKey mb) =
      ((s.mbPage (mbKey mb)).answerBytes st rsp bg s.clk.now).freed := by
  rw [State.mbAnswer, State.mbPage, mbNotify_mbx]
  exact mbPage_modPage_self s _ _

/-- What the fields of an answered page read. -/
theorem MbPage.answerBytes_reads {p : MbPage} (h : p.Ok) (st : Status) {rsp : List Byte} {bg : Nat} (now : Nat)
    (hlen : rsp.length < 0x1000) (hbg : bg < 2 ^ 32) :
    (p.answerBytes st rsp bg now).num 0x0A 2 = st.toNat ∧ (p.answerBytes st rsp bg now).num 0x0E 2 = rsp.length ∧
    (p.answerBytes st rsp bg now).num 0x28 4 = bg ∧ (p.answerBytes st rsp bg now).num 0 4 = 0 ∧
    (p.answerBytes st rsp bg now).get 0x100 rsp.length = rsp := by
  have h1 := MbPage.ok_set h 0x100 rsp
  have h2 := MbPage.ok_set h1 0x0E (bytesOf 2 rsp.length)
  have h3 := MbPage.ok_set h2 0x0A (bytesOf 2 st.toNat)
  have h4 := MbPage.ok_set h3 0x28 (bytesOf 4 bg)
  have h5 := MbPage.ok_set h4 0x20 (bytesOf 8 now)
  unfold MbPage.answerBytes
  refine ⟨?_, ?_, ?_, ?_, ?_⟩
  · rw [MbPage.num_set_apart h5 (by simp), MbPage.num_set_apart h4 (by simp), MbPage.num_set_apart h3 (by simp),
      MbPage.num_set_same h2]
    exact Nat.mod_eq_of_lt st.isLt
  · rw [MbPage.num_set_apart h5 (by simp), MbPage.num_set_apart h4 (by simp), MbPage.num_set_apart h3 (by simp),
      MbPage.num_set_apart h2 (by simp), MbPage.num_set_same h1]
    exact Nat.mod_eq_of_lt (by omega)
  · rw [MbPage.num_set_apart h5 (by simp), MbPage.num_set_apart h4 (by simp), MbPage.num_set_same h3]
    exact Nat.mod_eq_of_lt (by omega)
  · exact MbPage.num_set_same h5 0 4 0
  · rw [MbPage.get_set_apart h5 (by simp), MbPage.get_set_apart h4 (by simp), MbPage.get_set_apart h3 (by simp),
      MbPage.get_set_apart h2 (by simp), MbPage.get_set_apart h1 (by simp), MbPage.get_set_same h]

/-- A page whose first four bytes are 0 is the caller's. -/
theorem MbPage.owned_of_num {p : MbPage} (h : p.num 0 4 = 0) : p.owned = false := by
  have h0 : (NMap.getD p.bytes 0 0#8).toNat = 0 := by
    simp only [MbPage.num, MbPage.get, List.range, List.range.loop, List.map_cons, ofBytes] at h
    exact (Nat.add_eq_zero_iff.mp h).1
  simp [MbPage.owned, MbPage.num, MbPage.get, ofBytes, h0]

/-- A background operation that has ended with its result (R334). -/
def Bg.done (g : Bg) (st : Status) (rsp : List Byte) (now order : Nat) : Bg :=
  { g with ended := true, status := st, rsp := rsp, progress := 1000, tDone := now, endOrder := order }

/-- The operations of the device once `id` has ended, before old results are dropped. -/
def bgsDone (bgs : List Bg) (id : Nat) (st : Status) (rsp : List Byte) (now order : Nat) : List Bg :=
  bgs.map fun h => if h.id == id then h.done st rsp now order else h

theorem bgEnd_bgs {s : State} {id : Nat} {g : Bg} (hg : s.bg? id = some g) (hend : g.ended = false) (st : Status) (rsp : List Byte) :
    (s.bgEnd id st rsp).mbx.bgs = (bgsDone s.mbx.bgs id st rsp s.clk.now (s.mbx.ends + 1)).filter
      (keptBg (bgsDone s.mbx.bgs id st rsp s.clk.now (s.mbx.ends + 1))) := by
  simp only [State.bgEnd, hg, hend]
  exact congrArg MbSt.bgs (mbNotify_mbx _ _ _ _)

/-- The result of the operation that ended last is kept. -/
theorem keptBg_done {bgs : List Bg} {g : Bg} {n : Nat} (id : Nat) (st : Status) (rsp : List Byte) (now : Nat)
    (h : ∀ b ∈ bgs, b.endOrder ≤ n) : keptBg (bgsDone bgs id st rsp now (n + 1)) (g.done st rsp now (n + 1)) = true := by
  have hnone : ((bgsDone bgs id st rsp now (n + 1)).filter fun b => b.ended && b.mb == (g.done st rsp now (n + 1)).mb &&
      decide (b.endOrder > (g.done st rsp now (n + 1)).endOrder)) = [] := by
    refine List.filter_eq_nil_iff.mpr fun b hb => ?_
    have hle : b.endOrder ≤ n + 1 := by
      obtain ⟨c, hc, rfl⟩ := List.mem_map.mp hb
      split
      · exact le_refl _
      · exact (h c hc).trans (Nat.le_succ n)
    have hno : ¬ (b.endOrder > (g.done st rsp now (n + 1)).endOrder) := Nat.not_lt.mpr hle
    simp [hno]
  unfold keptBg
  rw [hnone]
  simp

theorem find?_bgsDone {bgs : List Bg} {id : Nat} {g : Bg} (hg : bgs.find? (fun b => b.id == id) = some g) (st : Status)
    (rsp : List Byte) (now order : Nat) :
    (bgsDone bgs id st rsp now order).find? (fun b => b.id == id) = some (g.done st rsp now order) := by
  induction bgs with
  | nil => cases hg
  | cons b t ih =>
    by_cases hb : (b.id == id) = true
    · rw [List.find?_cons_of_pos (p := fun b : Bg => b.id == id) hb] at hg
      cases hg
      rw [bgsDone, List.map_cons, if_pos hb]
      exact List.find?_cons_of_pos hb
    · rw [List.find?_cons_of_neg (p := fun b : Bg => b.id == id) hb] at hg
      rw [bgsDone, List.map_cons, if_neg hb]
      exact (List.find?_cons_of_neg (p := fun b : Bg => b.id == id) hb).trans (ih hg)

/-- What is found first and kept is found first among what is kept. -/
theorem find?_filter_of_kept {α : Type} {l : List α} {p q : α → Bool} {a : α} (h : l.find? p = some a) (hq : q a = true) :
    (l.filter q).find? p = some a := by
  rw [List.find?_filter]
  induction l with
  | nil => cases h
  | cons b t ih =>
    by_cases hb : p b = true
    · rw [List.find?_cons_of_pos hb] at h
      cases h
      exact List.find?_cons_of_pos (by simp [hb, hq])
    · rw [List.find?_cons_of_neg hb] at h
      rw [List.find?_cons_of_neg (by simp [hb])]
      exact ih h

/-- Settles O47: an answer writes the page's fields apart from each other; of the results that end, the last is kept; and a map
change goes by the bank that is ready. -/
theorem requestsEndAndMapsChange : Obligations.RequestsEndAndMapsChange := by
  unfold Obligations.RequestsEndAndMapsChange
  refine ⟨⟨?answer, ?begins, ?ends⟩, ?turn⟩
  case answer =>
    intro s mb st rsp bg hlen hbg hok p hp
    rw [hp, mbPage_mbAnswer, MbPage.freed_num, MbPage.freed_num, MbPage.freed_num, MbPage.freed_get, MbPage.freed_owned]
    obtain ⟨hst, hrlen, hid, howned, hrsp⟩ := MbPage.answerBytes_reads (p := s.mbPage (mbKey mb)) hok st s.clk.now hlen hbg
    exact ⟨hst, hrlen, hid, MbPage.owned_of_num howned, rfl, rfl, hrsp⟩
  case begins =>
    intro s mb r aux
    refine ⟨fun h => if_pos h, fun h => ?_⟩
    rw [State.bgBegin, if_neg (Nat.not_le.mpr h), State.bgStart]
    exact ⟨_, rfl, rfl, _, rfl, rfl, rfl, rfl, rfl, rfl⟩
  case ends =>
    intro s id st rsp g hg hend hnodup horder
    refine ⟨g.done st rsp s.clk.now (s.mbx.ends + 1), ?_, rfl, rfl, rfl, rfl⟩
    rw [State.bg?, bgEnd_bgs hg hend]
    exact find?_filter_of_kept (find?_bgsDone hg ..) (keptBg_done id st rsp _ horder)
  case turn =>
    intro s mb b change fin hstage
    refine ⟨fun hno => ?_, fun hready st m hm => ⟨fun hst => ?_, fun hst hfit => ?_, fun k t hst hk ht => ?_⟩⟩
    · simp only [State.mapTurn, hstage, hno]
      rfl
    · simp only [State.mapTurn, hstage, hready, hm]
      exact if_pos hst
    · simp only [State.mapTurn, hstage, hready, hm, hst, hfit]
      rfl
    · simp only [State.mapTurn, hstage, hready, hm, hst, hk, ht]
      rfl

end Machine
end Sys2Proof
end

section
/-! PROOFS. The CXL primary mailbox (R313, R327) and the SPDM responder (R398 to R402). -/

namespace Sys2Proof.Machine

/-! ## Vectors of the state -/

theorem getD_setIfInBounds_self {α : Type} {n : Nat} (v : Vector α n) {i : Nat} (a d : α) (h : i < n) :
    (v.setIfInBounds i a).toList.getD i d = a := by
  have hlen : i < (v.setIfInBounds i a).toList.length := by simpa using h
  rw [List.getD_eq_getElem _ _ hlen]
  simp

theorem setIfInBounds_getD_self {α : Type} {n : Nat} (v : Vector α n) (i : Nat) (d : α) :
    v.setIfInBounds i (v.toList.getD i d) = v := by
  refine Vector.ext fun j hj => ?_
  by_cases h : i = j
  · subst h
    simp [Vector.getElem?_eq_getElem hj]
  · simp [h]

theorem getD_setIfInBounds_ne {α : Type} {n : Nat} (v : Vector α n) {i k : Nat} (a d : α) (h : k ≠ i) :
    (v.setIfInBounds i a).toList.getD k d = v.toList.getD k d := by
  simp [List.getD_eq_getElem?_getD, Vector.getElem?_toList, h.symm]

/-! ## The primary mailbox -/

theorem CxlLog.num_lt (log : CxlLog) : CxlLog.num log < 4 := by cases log <;> decide

/-- A port that is up lets its command through. -/
theorem onPort_of_up {s : State} {port : Nat} (h : PortUp s port) (k : Out) : s.onPort port k = k := by
  obtain ⟨⟨hlt, hgh⟩, hup, hlost⟩ := h
  have hthere : (port == 1 && s.panel.fencedGh.contains 2) = false := by
    by_cases hp : port = 1
    · rw [hgh hp, Bool.and_false]
    · simp [hp]
  simp only [State.onPort, State.atPort, decide_eq_true hlt, hthere, hup, hlost]
  rfl

/-- A command of the primary mailbox answers. -/
theorem primary_of_up {s : State} (h : PortUp s 0) (r : Nat × List Byte × (CxlSt → CxlSt)) :
    s.primary r = .next (s.modCxl fun c => { r.2.2 c with reply := r.2.1, replyStatus := r.1 }) := onPort_of_up h _

/-- Settles O43: the port is up, so the mailbox answers, and each answer is the one that the table names. -/
theorem primaryMailbox : Obligations.PrimaryMailbox := by
  unfold Obligations.PrimaryMailbox
  intro s h
  refine ⟨⟨_, primary_of_up h _, rfl, by simp⟩, fun log => ⟨_, primary_of_up h _, rfl, rfl⟩, fun log handles => ?clear,
    ⟨_, primary_of_up h _, rfl⟩, fun pol hpol => ?policy, fun uuid offset len => ⟨_, primary_of_up h _, by simp⟩,
    ⟨_, primary_of_up h _, rfl⟩, fun ns => ⟨_, primary_of_up h _, rfl, rfl⟩⟩
  case clear =>
    refine ⟨fun hall => ?_, fun hall => ?_⟩
    · have heq : exec (.clearEventRecords log handles) s = _ := (if_pos hall).trans (primary_of_up h _)
      refine ⟨_, heq, rfl, ?_, getD_setIfInBounds_self _ _ _ (CxlLog.num_lt log), fun k hk => getD_setIfInBounds_ne _ _ _ hk⟩
      refine (getD_setIfInBounds_self _ _ _ (CxlLog.num_lt log)).trans ?_
      simp only [List.isEmpty_iff]
    · have heq : exec (.clearEventRecords log handles) s = _ := (if_neg (by rw [hall]; exact Bool.false_ne_true)).trans (primary_of_up h _)
      exact ⟨_, heq, rfl, rfl⟩
  case policy =>
    have heq : exec (.setEventInterruptPolicy pol) s = _ := (if_pos hpol).trans (primary_of_up h _)
    exact ⟨_, heq, rfl⟩

/-! ## The SPDM responder -/

/-- The state after a response (none for an error) on a connection, which goes on as `c`. -/
def State.spdmDone (s : State) (tr : SpdmTr) (r : Option (List Byte)) (c : Spdm) : State :=
  s.modSec fun x => { x with spdm := x.spdm.setIfInBounds (spdmNum tr) c, response := r.getD [], spdmError := r.isNone }

@[simp] theorem spdmDone_response (s : State) (tr : SpdmTr) (r : Option (List Byte)) (c : Spdm) :
    (s.spdmDone tr r c).sec.response = r.getD [] := rfl

@[simp] theorem spdmDone_error (s : State) (tr : SpdmTr) (r : Option (List Byte)) (c : Spdm) :
    (s.spdmDone tr r c).sec.spdmError = r.isNone := rfl

/-- A transport that carries requests to the responder. -/
structure SpdmLive (s : State) (tr : SpdmTr) : Prop where
  known : spdmNum tr < 3
  good : s.pwr.standbyGood = true
  up : ∀ p, tr = .doe p → (s.cport p).up = true

theorem spdmLive_of_up {s : State} {tr : SpdmTr} (h : ∀ p, tr = .doe p → p < 2 ∧ (s.cport p).up = true)
    (hgood : s.pwr.standbyGood = true) : SpdmLive s tr := by
  refine ⟨?_, hgood, fun p hp => (h p hp).2⟩
  cases tr with
  | mctp => decide
  | doe p => exact (h p rfl).1.trans (by decide)

theorem spdmDone_spdm {s : State} {tr : SpdmTr} (h : SpdmLive s tr) (r : Option (List Byte)) (c : Spdm) :
    (s.spdmDone tr r c).spdm? tr = c := getD_setIfInBounds_self _ _ _ h.known

/-- A request is answered by what its kind says with an identity, with an error without. -/
theorem spdmReq_of_live {s : State} {tr : SpdmTr} (h : SpdmLive s tr) (f : Spdm → Option (List Byte) × Spdm) :
    s.spdmReq tr f = .next (if s.sec.identity then s.spdmDone tr (f (s.spdm? tr)).1 (f (s.spdm? tr)).2
      else s.spdmDone tr none (s.spdm? tr)) := by
  obtain ⟨hknown, hgood, hup⟩ := h
  unfold State.spdmReq
  rw [decide_eq_true hknown, need_true, hgood]
  cases tr with
  | mctp => cases s.sec.identity <;> rfl
  | doe p =>
    simp only [hup p rfl]
    cases s.sec.identity <;> rfl

/-- Without an identity a request gives an error and leaves the connections as they are. -/
theorem spdmReq_gives_error {i : Instr} {s : State} {tr : SpdmTr} {f : Spdm → Option (List Byte) × Spdm} (h : SpdmLive s tr)
    (hid : s.sec.identity = false) (hi : exec i s = s.spdmReq tr f) :
    Gives i s fun n => n.sec.spdmError = true ∧ n.sec.spdm = s.sec.spdm := by
  rw [spdmReq_of_live h, hid] at hi
  exact ⟨_, hi, rfl, setIfInBounds_getD_self _ _ _⟩

/-- With an identity a request gives the response and the connection that its kind says. -/
theorem spdmReq_gives {i : Instr} {s : State} {tr : SpdmTr} {f : Spdm → Option (List Byte) × Spdm} {r : Option (List Byte)} {c : Spdm}
    {P : State → Prop} (h : SpdmLive s tr) (hid : s.sec.identity = true) (hi : exec i s = s.spdmReq tr f)
    (hf : f (s.spdm? tr) = (r, c))
    (hP : ∀ n : State, n.sec.response = r.getD [] → n.sec.spdmError = r.isNone → n.spdm? tr = c → P n) : Gives i s P := by
  rw [spdmReq_of_live h, hid, hf] at hi
  exact ⟨_, hi, hP _ rfl rfl (spdmDone_spdm h r c)⟩

/-- FINISH completes every session of its number. -/
theorem sessions_finished (session : Nat) (l : List (Nat × Bool × Nat)) :
    ∀ x ∈ l.map fun x => if x.1 == session then (x.1, true, x.2.2) else x, x.1 = session → x.2.1 = true := by
  intro x hx hnum
  obtain ⟨y, -, rfl⟩ := List.mem_map.mp hx
  by_cases hy : (y.1 == session) = true
  · rw [if_pos hy]
  · rw [if_neg hy] at hnum
    exact absurd (beq_iff_eq.mpr hnum) hy

/-- Settles O45: the request reaches the responder; each answer is read off. -/
theorem spdmAnswers : Obligations.SpdmAnswers := by
  unfold Obligations.SpdmAnswers
  refine ⟨fun s tr hup hgood hid i hi => ?silent, fun s tr hup hgood hid => ?_⟩
  case silent =>
    have hlive := spdmLive_of_up hup hgood
    rcases hi with rfl | rfl
    · exact spdmReq_gives_error hlive hid (by unfold exec; rfl)
    · exact spdmReq_gives_error hlive hid (by unfold exec; rfl)
  have hlive := spdmLive_of_up hup hgood
  refine ⟨?version, ?capabilities, fun rsa sha secp aes => ?algorithms, ?digests, fun slot offset len => ?certificate,
    fun slot nonce => ?challenge, fun op nonce hready => ?measurements, fun reqId hready hdhe => ?keyExchange,
    fun session hopen => ?finish, fun session both hopen => ?keyUpdate, fun session hopen => ?endSession⟩
  case version =>
    exact spdmReq_gives hlive hid (by unfold exec; rfl) (by rfl) fun n _ herr hc => by simp [herr, hc]
  case capabilities =>
    cases hv : (s.spdm? tr).version with
    | false => exact spdmReq_gives hlive hid (by unfold exec; rfl) (by simp only [hv]; rfl) fun n _ herr _ => by simp [herr]
    | true => exact spdmReq_gives hlive hid (by unfold exec; rfl) (by simp only [hv]; rfl) fun n _ herr hc => by simp [herr, hc]
  case algorithms =>
    cases hall : (s.spdm? tr).version && (s.spdm? tr).caps && rsa && sha with
    | false => exact spdmReq_gives hlive hid (by unfold exec; rfl) (by simp only [hall]; rfl) fun n _ herr _ => by simp [herr]
    | true => exact spdmReq_gives hlive hid (by unfold exec; rfl) (by simp only [hall]; rfl) fun n _ herr hc => by simp [herr, hc]
  case digests =>
    cases hready : (s.spdm? tr).ready with
    | false => exact spdmReq_gives hlive hid (by unfold exec; rfl) (by simp only [hready]; rfl) fun n _ herr _ => by simp [herr]
    | true => exact spdmReq_gives hlive hid (by unfold exec; rfl) (by simp only [hready]; rfl) fun n _ herr _ => by simp [herr]
  case certificate =>
    by_cases hok : (s.spdm? tr).ready = true ∧ slot < 2
    · exact spdmReq_gives hlive hid (by unfold exec; rfl) (by simp only [hok]; rfl) fun n hr herr _ => by simp [hr, herr, hok]
    · have hno : ((s.spdm? tr).ready && decide (slot < 2)) = false := Bool.eq_false_iff.mpr (by simpa using hok)
      exact spdmReq_gives hlive hid (by unfold exec; rfl) (by simp only [if_neg hok]; rfl) fun n hr herr _ => by
        rw [hr, herr, hno]; simp
  case challenge =>
    by_cases hok : (s.spdm? tr).ready = true ∧ slot < 2
    · exact spdmReq_gives hlive hid (by unfold exec; rfl) (by simp only [hok]; rfl) fun n _ herr hc => by simp [herr, hok, hc]
    · have hno : ((s.spdm? tr).ready && decide (slot < 2)) = false := Bool.eq_false_iff.mpr (by simpa using hok)
      exact spdmReq_gives hlive hid (by unfold exec; rfl) (by simp only [if_neg hok]; rfl) fun n _ herr hc => by
        rw [herr, hc, hno]; simp
  case measurements =>
    refine spdmReq_gives hlive hid (by unfold exec; rfl) (by simp only [hready]; rfl) fun n hr herr _ => ⟨fun h1 h7 => ?_, fun h0 => ?_,
      fun hall => ?_, fun h7 hff => ?_⟩
    · have h0 : op ≠ 0 := by omega
      have hff : op ≠ 0xFF := by omega
      simpa [h0, hff, h7] using hr
    · simpa [h0] using hr
    · simpa [hall] using hr
    · have h0 : op ≠ 0 := by omega
      simpa [h0, hff, Nat.not_le.mpr h7] using herr
  case keyExchange =>
    exact spdmReq_gives hlive hid (by unfold exec; rfl) (by simp only [hready, hdhe]; rfl) fun n _ herr hc => by simp [herr, hc]
  case finish =>
    refine ⟨?_, ?_⟩
    · exact spdmReq_gives hlive hid (by unfold exec; rfl) (by simp only [hopen]; rfl) fun n _ herr hc =>
        ⟨by simp [herr], by rw [hc]; exact sessions_finished session _⟩
    · exact spdmReq_gives hlive hid (by unfold exec; rfl) (by simp only [hopen]; rfl) fun n _ herr hc => by simp [herr, hc]
  case keyUpdate =>
    exact spdmReq_gives hlive hid (by unfold exec; rfl) (by simp only [hopen]; rfl) fun n _ herr hc => by simp [herr, hc]
  case endSession =>
    exact spdmReq_gives hlive hid (by unfold exec; rfl) (by simp only [hopen]; rfl) fun n _ herr hc => by simp [herr, hc]

end Sys2Proof.Machine
end

section
/-! PROOFS. What the root of trust does by itself (R393, R395, R397, R405 to R407). -/

namespace Sys2Proof.Machine

/-! ## Whether the lock-keepers take commands -/

@[simp] theorem addCtr_takes (s : State) (ctx j : Nat) (inc : Word) : (s.addCtr ctx j inc).lk.takes = s.lk.takes := by
  unfold State.addCtr
  split <;> rfl

@[simp] theorem mbNotify_takes (s : State) (mb : Mbox) (w : Word) (bg : Bool) : (s.mbNotify mb w bg).lk.takes = s.lk.takes := by
  unfold State.mbNotify
  split
  · split
    · rfl
    · split <;> rfl
  · dsimp only
    split
    · exact addCtr_takes ..
    · rfl

@[simp] theorem bgEnd_takes (s : State) (id : Nat) (st : Status) (rsp : List Byte) : (s.bgEnd id st rsp).lk.takes = s.lk.takes := by
  unfold State.bgEnd
  split
  · rfl
  · split
    · rfl
    · exact mbNotify_takes ..

@[simp] theorem switchStop_takes (s : State) (st : Status) : (s.switchStop st).lk.takes = s.lk.takes := by
  unfold State.switchStop
  split
  · exact bgEnd_takes ..
  · rfl

@[simp] theorem repairStop_takes (s : State) (st : Status) : (s.repairStop st).lk.takes = s.lk.takes := by
  unfold State.repairStop
  split
  · split
    · exact bgEnd_takes ..
    · rfl
  · rfl

@[simp] theorem debugEnd_takes (s : State) : s.debugEnd.lk.takes = s.lk.takes := by
  unfold State.debugEnd
  split <;> rfl

@[simp] theorem failCmd_takes (s : State) (ctx seq : Nat) (st : Status) : (s.failCmd ctx seq st).lk.takes = s.lk.takes := by
  unfold State.failCmd
  split
  · rfl
  · split <;> rfl

@[simp] theorem cxlEvent_takes (s : State) (log : Nat) (dram : Bool) (body : List Byte) :
    (s.cxlEvent log dram body).lk.takes = s.lk.takes :=
  congrArg LockSt.takes (State.cxlEvent_does.lk rfl rfl)

/-! ## Alarms -/

/-- The alarm as it is raised, before what it stops (R406). -/
def State.alarmed (s : State) (cause : Nat) : State :=
  ((s.modSec fun x => { x with alarmLock := true, alarmCause := cause, alarmLevel := 1 }).modPwr fun p => { p with
    alarmN := true, boot := if p.boot = .service ∨ p.boot = .stopped then p.boot else .locked }).modLk fun l => { l with takes := false }

/-- A command that has started ends with the alarm's status. -/
def State.alarmFails (s : State) (c : Cmd) : State := if c.phase.started then s.failCmd c.ctx c.seq 0x4B05 else s

/-- What an alarm stops: commands, the debug unlock, a firmware switch, a die repair. -/
def State.alarmStops (s : State) (cause : Nat) : State :=
  (((((s.lk.cmds.foldl State.alarmFails s).debugEnd.switchStop 0x4B05).repairStop 0x4B05).measured).cxlEvent 3 false (bytesOf 1 cause))

theorem raiseAlarm_of_unlocked {s : State} (h : s.sec.alarmLock = false) (cause : Nat) :
    s.raiseAlarm cause = (s.alarmed cause).alarmStops cause := if_neg (by rw [h]; exact Bool.false_ne_true)

theorem raiseAlarm_of_locked {s : State} (h : s.sec.alarmLock = true) (cause : Nat) : s.raiseAlarm cause = s := if_pos h

theorem alarmFails_does {s t : State} {c : Cmd} (h : Does 0x180700f6008 s t) : Does 0x180700f6008 s (t.alarmFails c) := by
  unfold State.alarmFails
  exact Does.ite (h.trans State.failCmd_does rfl) h

theorem alarmStops_does {s : State} {cause : Nat} : Does 0x180700f6008 s (s.alarmStops cause) := by
  have hfails : Does 0x180700f6008 s (s.lk.cmds.foldl State.alarmFails s) := Does.foldl Does.refl fun _ _ h => alarmFails_does h
  exact ((((hfails.trans State.debugEnd_does rfl).trans State.switchStop_does rfl).trans State.repairStop_does rfl).trans
    State.measured_does rfl).trans State.cxlEvent_does rfl

theorem foldl_alarmFails_takes (l : List Cmd) (s : State) : (l.foldl State.alarmFails s).lk.takes = s.lk.takes := by
  induction l generalizing s with
  | nil => rfl
  | cons c t ih =>
    rw [List.foldl_cons, ih, State.alarmFails]
    split
    · exact failCmd_takes ..
    · rfl

theorem alarmStops_takes (s : State) (cause : Nat) : (s.alarmStops cause).lk.takes = s.lk.takes := by
  rw [State.alarmStops, cxlEvent_takes, State.measured, modSec_lk, repairStop_takes, switchStop_takes, debugEnd_takes,
    foldl_alarmFails_takes]

/-- An alarm locks the device at level 1 with its cause, is shown at the pin, and the taking of commands stops (R406). -/
theorem raiseAlarm_locks {s : State} (h : s.sec.alarmLock = false) (cause : Nat) :
    (s.raiseAlarm cause).sec.alarmLock = true ∧ (s.raiseAlarm cause).sec.alarmCause = cause ∧
    (s.raiseAlarm cause).sec.alarmLevel = 1 ∧ (s.raiseAlarm cause).pwr.alarmN = true ∧ (s.raiseAlarm cause).lk.takes = false := by
  rw [raiseAlarm_of_unlocked h]
  have hdoes := alarmStops_does (s := s.alarmed cause) (cause := cause)
  obtain ⟨hlock, hcause, hlevel⟩ := hdoes.alarm rfl
  exact ⟨hlock, hcause, hlevel, congrArg PowerSt.alarmN (hdoes.pwr rfl), alarmStops_takes _ _⟩

/-! ## Firmware -/

theorem bgEnd_sec (s : State) (id : Nat) (st : Status) (rsp : List Byte) : (s.bgEnd id st rsp).sec = s.sec :=
  State.bgEnd_does.sec rfl rfl rfl rfl

theorem bgEnd_switching (s : State) (id : Nat) (st : Status) (rsp : List Byte) :
    (s.bgEnd id st rsp).mbx.switching = s.mbx.switching := by
  have h : Part.same s (s.bgEnd id st rsp) .mailboxes := State.bgEnd_does.only .mailboxes rfl
  simp only [Part.same, Prod.mk.injEq] at h
  exact h.2.1.symm

/-- The device once KILL has been blown and, where it took, reads back (R406). -/
def State.killed (s : State) (readBack : Bool) : State :=
  s.modSec fun x => { x with alarmLevel := 3, fuses := { x.fuses with kill := x.fuses.kill || readBack }, identity := false }

/-- The directives of an image reach the fuses alone, and not under an alarm (R397). -/
theorem directives_sec (s : State) (img : List Byte) :
    (s.directives img).sec = { s.sec with fuses := if s.sec.alarmLock then s.sec.fuses else s.sec.fuses.apply img } := by
  unfold State.directives
  split <;> rfl

/-- A PLDM update that passes in SERVICE: the image is staged whole, and the switch begins (R395, R407). -/
def State.pldmStaged (s : State) (image : List Byte) : State :=
  (s.modSec fun x => { x with
    staged := (List.range image.length).map fun i => (i, byteAt image i)
    stagedTotal := image.length, switchSlot := 0, switchBg := 0, fwState := 3 }).modMbx fun m => { m with switching := true }

theorem measured_alarmLock (s : State) : s.measured.sec.alarmLock = s.sec.alarmLock := rfl

/-- Settles O44: the root of trust acts where its condition holds. -/
theorem rootOfTrustActs : Obligations.RootOfTrustActs := by
  unfold Obligations.RootOfTrustActs
  intro s
  refine ⟨fun hgood => ⟨?reread, fun hunlocked => ?anomaly, fun cause hlo hhi => ⟨fun hunlocked => ?tamper, fun hlocked => ?again⟩⟩,
    fun hlock hlevel hpol => ?erase, fun hlock hlevel hpol readBack => ?kill, fun t ht hpast => ?debug, fun hsw img himg => ?switch,
    fun image hgood => ?pldm⟩
  case reread =>
    refine Eq.trans (b := execFuseReread false s) rfl ?_
    rw [execFuseReread, hgood, need_true]
    rfl
  case anomaly =>
    obtain ⟨hlock, hcause, hlevel, hpin, htakes⟩ := raiseAlarm_locks hunlocked 5
    refine ⟨_, Eq.trans (b := execFuseReread true s) rfl ?_, hlock, hcause, hlevel, hpin, htakes⟩
    rw [execFuseReread, hgood, need_true]
    rfl
  case tamper =>
    obtain ⟨hlock, hcause, hlevel, -, htakes⟩ := raiseAlarm_locks hunlocked cause
    refine ⟨_, Eq.trans (b := execTamperTrip cause s) rfl ?_, hlock, hcause, hlevel, htakes⟩
    rw [execTamperTrip, decide_eq_true hlo, decide_eq_true hhi, Bool.and_self, need_true, hgood, need_true]
  case again =>
    refine Eq.trans (b := execTamperTrip cause s) rfl ?_
    rw [execTamperTrip, decide_eq_true hlo, decide_eq_true hhi, Bool.and_self, need_true, hgood, need_true,
      raiseAlarm_of_locked hlocked]
  case erase =>
    have hcond : (s.sec.alarmLock && s.sec.alarmLevel == 1 && decide (2 ≤ s.sec.fuses.level)) = true := by simp [hlock, hlevel, hpol]
    refine ⟨_, Eq.trans (b := execAlarmErase s) rfl (by rw [execAlarmErase, hcond, need_true]), rfl, fun e he => ?_⟩
    simpa using (List.mem_filter.mp he).2
  case kill =>
    have hcond : (s.sec.alarmLock && s.sec.alarmLevel == 2 && decide (3 ≤ s.sec.fuses.level)) = true := by simp [hlock, hlevel, hpol]
    refine ⟨s.killed readBack, Eq.trans (b := execAlarmKill readBack s) rfl ?_, rfl, fun hread => ?_, rfl⟩
    · have hstill : (s.killed readBack).sec.alarmLock = true := hlock
      rw [execAlarmKill, hcond, need_true]
      change Host.Outcome.next (if readBack then s.killed readBack else (s.killed readBack).raiseAlarm 5) = _
      rw [raiseAlarm_of_locked hstill, ite_self]
    · rw [State.killed, modSec_sec, hread]
      exact Bool.or_true _
  case debug =>
    refine ⟨s.debugEnd, Eq.trans (b := execDebugUnlockExpire s) rfl ?_, ?_⟩
    · rw [execDebugUnlockExpire, ht, needSome_some, decide_eq_true hpast, need_true]
    · have hon : s.sec.debugUntil.isSome = true := by rw [ht]; rfl
      rw [State.debugEnd, if_pos hon]
      exact ⟨rfl, rfl, rfl⟩
  case switch =>
    refine ⟨_, Eq.trans (b := execFwSwitchEnd s) rfl (by rw [execFwSwitchEnd, hsw, need_true, ← himg]), ?_⟩
    beta_reduce
    rw [bgEnd_sec, bgEnd_switching, modMbx_sec, directives_sec]
    exact ⟨rfl, rfl, rfl, rfl, fun hunlocked => if_neg (by rw [measured_alarmLock, modSec_sec, hunlocked]; exact Bool.false_ne_true)⟩
  case pldm =>
    refine ⟨fun hok hunlocked hboot => ?_, fun hok hunlocked hboot hbg hsw => ?_, fun hbad => ?_⟩
    · refine Eq.trans (b := execPldmFirmwareUpdate image s) rfl ?_
      rw [execPldmFirmwareUpdate, hgood, need_true]
      exact congrArg Host.Outcome.next (if_pos ⟨⟨hok, by rw [hunlocked]; rfl⟩, hboot⟩)
    · refine ⟨s.pldmStaged image, Eq.trans (b := execPldmFirmwareUpdate image s) rfl ?_, rfl, rfl, rfl, rfl⟩
      · rw [execPldmFirmwareUpdate, hgood, need_true]
        refine congrArg Host.Outcome.next ((if_neg ?_).trans (if_pos ⟨⟨hok, ?_⟩, hboot, ?_, ?_⟩))
        · rw [hboot]
          simp
        · rw [hunlocked]; rfl
        · rw [hbg]; rfl
        · rw [hsw]; rfl
    · have hno : ¬ (s.sec.fuses.checkImage image = 0 ∧ (!s.sec.alarmLock) = true) := by
        rintro ⟨hok, hunlocked⟩
        rcases hbad with hbad | hlocked
        · exact hbad hok
        · rw [hlocked] at hunlocked
          exact absurd hunlocked (by decide)
      refine Eq.trans (b := execPldmFirmwareUpdate image s) rfl ?_
      rw [execPldmFirmwareUpdate, hgood, need_true]
      exact congrArg Host.Outcome.next ((if_neg fun h => hno h.1).trans (if_neg fun h => hno h.1))

end Sys2Proof.Machine
end

section
/-! PROOFS. Synchronized time (R305 to R307, R388, R444), energy and the I3C address (R385, R386, R445), bring-up (R408 to R415),
restarts and die repair (R413, R416 to R422). -/

namespace Sys2Proof.Machine

/-! ## Time -/

/-- A packet that goes out leaves the counts of missed exchanges. -/
theorem erhSend_missed (s : State) (p : Nat) (k : ErhPkt) :
    (s.erhSend p k).erh.missed = s.erh.missed ∧ (s.erhSend p k).erh.pendingT = s.erh.pendingT := by
  have h : Part.same s (s.erhSend p k) .sync := State.erhSend_does.only .sync rfl
  simp only [Part.same, Prod.mk.injEq] at h
  obtain ⟨-, -, -, -, -, -, -, hmissed, hpend, -⟩ := h
  exact ⟨hmissed.symm, hpend.symm⟩

theorem erhSend_if_missed (s : State) (c : Bool) (p : Nat) (k : ErhPkt) :
    (if c then s.erhSend p k else s).erh.missed = s.erh.missed ∧ (if c then s.erhSend p k else s).erh.pendingT = s.erh.pendingT := by
  split
  · exact erhSend_missed s p k
  · exact ⟨rfl, rfl⟩

/-- Whether an edge comes within 1 ms of its second (R307). -/
theorem ppsGood_iff (t stamp : Nat) : (decide (stamp + 1000000 ≥ t + 1000000000) && decide (stamp ≤ t + 1000000000 + 1000000)) =
    decide (t + 999000000 ≤ stamp ∧ stamp ≤ t + 1001000000) := by
  rw [Bool.eq_iff_iff]
  simp only [Bool.and_eq_true, decide_eq_true_eq]
  omega

/-- A step is taken while no berth but the operator's is ACTIVE (R306). -/
theorem timeStep_of_idle {s : State} (hrole : s.erh.role ≠ 0) (hstep : s.erh.stepAllowed = true)
    (hidle : ∀ e ∈ s.bth.berths, e.1 = 0 ∨ e.2.state ≠ .active) (ns : Int) : exec (.timeCorrection true ns) s =
      .next (s.modClk fun c => if ns ≥ 0 then { c with now := c.now + ns.toNat } else { c with hold := c.hold + ns.natAbs }) := by
  have hon : (s.erh.role != 0) = true := by simpa using hrole
  have hall : (s.erh.stepAllowed && s.bth.berths.all fun e => e.1 == 0 || e.2.state != .active) = true := by
    simpa [hstep] using hidle
  refine Eq.trans (b := execTimeCorrection true ns s) rfl ?_
  rw [execTimeCorrection, hon, need_true, if_pos rfl, hall, need_true]

/-- An edge of PPS_IN at a device that follows it is taken where it comes in time, or after three that did not (R307). -/
theorem ppsIn_of_last {s : State} {t : Nat} (hrole : s.erh.role = 1) (hen : s.erh.ppsEn = true) (hlast : s.erh.ppsLast = some t)
    (stamp : Nat) : exec (.ppsIn stamp) s = .next (
      if (t + 999000000 ≤ stamp ∧ stamp ≤ t + 1001000000) ∨ s.erh.ppsIgnored ≥ 3 then
        s.modErh fun e => { e with
          ppsLast := some stamp, ppsIgnored := 0
          offset := (((stamp + 500000000) / 1000000000 * 1000000000 : Nat) : Int) - (stamp : Int) }
      else s.modErh fun e => { e with ppsIgnored := e.ppsIgnored + 1 }) := by
  have hon : ¬ (s.erh.role ≠ 1 ∨ (!s.erh.ppsEn) = true) := by simp [hrole, hen]
  refine Eq.trans (b := execPpsIn stamp s) rfl ?_
  rw [execPpsIn, if_neg hon]
  simp only [hlast, ppsGood_iff, decide_eq_true_eq]

/-- Settles O39: the role and the state of synchronization pick the branch. -/
theorem timeIsKept : Obligations.TimeIsKept := by
  unfold Obligations.TimeIsKept
  refine ⟨fun s ok hrole => ?tsync, fun s t1 t2 t3 t4 aux hrole hpend => ?resp, fun s hsync hmiss => ?holdover,
    fun s ns hrole => ⟨fun hns hslew => ?slew, fun hstep hidle => ⟨fun hns => ?forward, fun hns => ?backward⟩⟩,
    fun s stamp hoff => ?off, fun s stamp t hrole hen hlast => ⟨fun hgood => ?good, fun hbad hign => ?bad⟩⟩
  case tsync =>
    have hrole' : (s.erh.role == 2) = true := by rw [hrole]; rfl
    refine ⟨_, Eq.trans (b := execTsync ok s) rfl (by rw [execTsync, hrole', need_true]), ?_⟩
    obtain ⟨hmissed, hpend⟩ := erhSend_if_missed
      (s.modErh fun e => { e with missed := s.erh.missed + (if s.erh.pendingT then 1 else 0) + (if ok then 0 else 1), pendingT := ok })
      (ok && s.erhState s.erh.upstream == 2) s.erh.upstream _
    exact ⟨hpend, hmissed⟩
  case resp =>
    have heq : exec (.tsyncResp t1 t2 t3 t4 aux) s = _ :=
      Eq.trans (b := execTsyncResp t1 t2 t3 t4 aux s) rfl (by rw [execTsyncResp, hrole, hpend])
    refine ⟨_, heq, rfl, rfl, rfl, ?_, ?_, ?_, ?_⟩
    · simp
    · rintro (h | h) <;> simp [h]
    · intro h
      simp [h]
    · intro h
      simp [h]
  case holdover =>
    have hon : (s.erh.sync == .locking || s.erh.sync == .locked) = true := by rcases hsync with h | h <;> simp [h]
    refine Eq.trans (b := execTsyncHoldover s) rfl ?_
    rw [execTsyncHoldover, hon, need_true, decide_eq_true hmiss, need_true]
  case slew =>
    have hon : (s.erh.role != 0) = true := by simpa using hrole
    refine Eq.trans (b := execTimeCorrection false ns s) rfl ?_
    rw [execTimeCorrection, hon, need_true, if_neg Bool.false_ne_true, decide_eq_true hns, hslew]
    rfl
  case forward =>
    refine (timeStep_of_idle hrole hstep hidle ns).trans ?_
    simp only [ge_iff_le, hns, if_true]
  case backward =>
    refine (timeStep_of_idle hrole hstep hidle ns).trans ?_
    simp only [ge_iff_le, Int.not_le.mpr hns, if_false]
  case off =>
    have hno : s.erh.role ≠ 1 ∨ (!s.erh.ppsEn) = true := hoff.imp_right fun h => by rw [h]; rfl
    exact congrArg Host.Outcome.next (if_pos hno)
  case good => exact (ppsIn_of_last hrole hen hlast stamp).trans (congrArg Host.Outcome.next (if_pos hgood))
  case bad =>
    refine (ppsIn_of_last hrole hen hlast stamp).trans (congrArg Host.Outcome.next (if_neg ?_))
    rintro (hin | hthree)
    · exact hbad hin
    · omega

/-! ## Energy -/

/-- What the operator's account holds, in nJ (R386). -/
theorem opCredit_total (s : State) (nJ : Nat) : (s.opCredit nJ).bth.opAccount.energyUJ * 1000 + (s.opCredit nJ).bth.opEnergyNJ =
    s.bth.opAccount.energyUJ * 1000 + s.bth.opEnergyNJ + nJ := by
  change (s.bth.opAccount.energyUJ + (s.bth.opEnergyNJ + nJ) / 1000) * 1000 + (s.bth.opEnergyNJ + nJ) % 1000 = _
  omega

theorem opCredit_lt (s : State) (nJ : Nat) : (s.opCredit nJ).bth.opEnergyNJ < 1000 := Nat.mod_lt _ (by decide)

theorem opCredit_cmds (s : State) (nJ : Nat) : (s.opCredit nJ).lk.cmds = s.lk.cmds := rfl

/-- Crediting commands leaves as many as there were. -/
theorem foldl_credit_cmds (share : Cmd → Nat) (l : List Cmd) (s : State) :
    (l.foldl (fun (s : State) c => (s.credit c (share c)).modCmd c.ctx c.seq fun q => { q with remoteAt := q.counts.remoteBytes })
      s).lk.cmds.length = s.lk.cmds.length := by
  induction l generalizing s with
  | nil => rfl
  | cons c t ih => rw [List.foldl_cons, ih]; simp [State.credit, State.modCmd]

/-- Settles O60: what is left goes to the operator's account, whose total grows by it. -/
theorem energyAndAddress : Obligations.EnergyAndAddress := by
  unfold Obligations.EnergyAndAddress
  refine ⟨fun s die nJ hdie hboot => ?interval, fun s nJ hboot => ?gather, fun s setdasa addr hgood haddr hfree hkind => ?address⟩
  case interval =>
    have hthere : (s.present die || (decide (72 ≤ die) && decide (die < 76))) = true := by simpa using hdie
    have hup : (s.pwr.boot != .stopped) = true := by simpa using hboot
    have heq : exec (.energyInterval die nJ) s = execEnergyInterval die nJ s := rfl
    rw [execEnergyInterval, hthere, need_true, hup, need_true] at heq
    refine ⟨_, heq, opCredit_lt _ _, fun hnone => ?_⟩
    rw [opCredit_total]
    simp [hnone, sumNat]
  case gather =>
    have hup : (s.pwr.boot == .service) = true := by rw [hboot]; rfl
    have heq : exec (.remoteEnergyGather nJ) s = execRemoteEnergyGather nJ s := rfl
    rw [execRemoteEnergyGather, hup, need_true] at heq
    refine ⟨_, heq, opCredit_lt _ _, ?_⟩
    rw [opCredit_cmds]
    exact foldl_credit_cmds _ _ _
  case address =>
    refine Eq.trans (b := execI3cDynamicAddress setdasa addr s) rfl ?_
    have hfit : (s.pwr.dynAddr.isNone && setdasa == decide (s.pwr.modId.toNat < 48)) = true := by simp [hfree, hkind]
    rw [execI3cDynamicAddress, hgood, need_true, decide_eq_true haddr, need_true, hfit, need_true]

end Sys2Proof.Machine
end

section
/-! PROOFS. Bring-up (R408 to R415), restarts and die repair (R413, R416 to R422). -/

namespace Sys2Proof.Machine

/-! ## Bring-up -/

/-- A bring-up in ROM or WAIT_TRAY goes on while standby is good and no trip stands. -/
theorem fullBringUp_of_good {s : State} (env : BringUpIn) (hgood : s.pwr.standbyGood = true) (htrip : s.pwr.thermTrip = false) :
    (s.pwr.boot = .rom → exec (.fullBringUp env) s = .next (
      if (s.bringUpRom env).pwr.boot = .waitTray ∧ (s.bringUpRom env).pwr.flow ∧ (s.bringUpRom env).pwr.pwrGood then
        (s.bringUpRom env).bringUpMap env else s.bringUpRom env)) ∧
    (s.pwr.boot = .waitTray → exec (.fullBringUp env) s = .next (
      if s.pwr.flow ∧ s.pwr.pwrGood then s.bringUpMap env else s)) := by
  refine ⟨fun hboot => ?_, fun hboot => ?_⟩
  · refine Eq.trans (b := execFullBringUp env s) rfl ?_
    unfold execFullBringUp
    rw [hgood, htrip, hboot]
    exact (need_true _ _)
  · refine Eq.trans (b := execFullBringUp env s) rfl ?_
    unfold execFullBringUp
    rw [hgood, htrip, hboot]
    simp [hboot]

/-- ROM once the fuses have been read: an accepted image is taken (R395, R413). -/
def State.romImage (s : State) (env : BringUpIn) : State :=
  if !decide (s.sec.fuses.checkImage s.sec.active = 0) ∧ s.sec.fuses.checkImage s.sec.previous ≠ 0 then
    s.modPwr fun p => { p with boot := .recovery }
  else
    let s := if s.sec.fuses.checkImage s.sec.active = 0 then s
      else (s.modSec fun x => { x with active := x.previous, previous := x.active }).cxlEvent 2 false []
    (s.directives s.sec.active).modPwr fun p => { p with
      boot := if env.badGatehouses.contains 0 ∨ env.clusters < 2 then .failed else .waitTray }

/-- The fuses as ROM reads them. -/
def State.fusesRead (s : State) : State := s.modSec fun x => { x with published := x.fuses.publish }

theorem bringUpRom_of_unlocked {s : State} {env : BringUpIn} (hlock : s.sec.alarmLock = false) (hfuse : env.fuseAnomaly = false) :
    s.bringUpRom env = s.fusesRead.romImage env := by
  unfold State.bringUpRom
  rw [if_neg (by rw [hlock]; exact Bool.false_ne_true), if_neg (by rw [hfuse]; exact Bool.false_ne_true)]
  rfl

/-- Both images rejected end in RECOVERY. -/
theorem romImage_of_rejected {s : State} (env : BringUpIn) (hact : s.sec.fuses.checkImage s.sec.active ≠ 0)
    (hprev : s.sec.fuses.checkImage s.sec.previous ≠ 0) : s.romImage env = s.modPwr fun p => { p with boot := .recovery } :=
  if_pos ⟨by rw [decide_eq_false hact]; rfl, hprev⟩

/-- The active image, where it is accepted, is taken, with its directives (R397). -/
theorem romImage_of_accepted {s : State} {env : BringUpIn} (hact : s.sec.fuses.checkImage s.sec.active = 0)
    (hgh : env.badGatehouses.contains 0 = false) (hcl : 2 ≤ env.clusters) :
    s.romImage env = (s.directives s.sec.active).modPwr fun p => { p with boot := .waitTray } := by
  have hno : ¬ (env.badGatehouses.contains 0 = true ∨ env.clusters < 2) := by
    rw [hgh]
    simp only [Bool.false_eq_true, false_or]
    omega
  unfold State.romImage
  rw [if_neg (by rw [decide_eq_true hact]; exact fun h => Bool.false_ne_true h.1), if_pos hact]
  simp only [if_neg hno]

theorem fusesRead_sec (s : State) : s.fusesRead.sec = { s.sec with published := s.sec.fuses.publish } := by
  rw [State.fusesRead, modSec_sec]

theorem fusesRead_active (s : State) : s.fusesRead.sec.active = s.sec.active := by rw [fusesRead_sec]

theorem fusesRead_fuses (s : State) : s.fusesRead.sec.fuses = s.sec.fuses := by rw [fusesRead_sec]

theorem fusesRead_pwr (s : State) : s.fusesRead.pwr = s.pwr := by rw [State.fusesRead, modSec_pwr]

/-- ROM with an image accepted: its directives reach the fuses, and the tray is awaited. -/
theorem trayAwaited {s : State} (hlock : s.sec.alarmLock = false) (img : List Byte) :
    ((s.directives img).modPwr fun p => { p with boot := .waitTray }).pwr.boot = .waitTray ∧
    ((s.directives img).modPwr fun p => { p with boot := .waitTray }).sec.active = s.sec.active ∧
    ((s.directives img).modPwr fun p => { p with boot := .waitTray }).sec.fuses = s.sec.fuses.apply img := by
  rw [modPwr_sec, directives_sec, if_neg (by rw [hlock]; exact Bool.false_ne_true)]
  exact ⟨rfl, rfl, rfl⟩

/-- An answer of a mailbox reaches neither the boot state, nor trust, nor whether the lock-keepers take entries. -/
theorem mbAnswer_keeps (s : State) (mb : Mbox) (st : Status) (rsp : List Byte) (bg : Nat) :
    (s.mbAnswer mb st rsp bg).pwr = s.pwr ∧ (s.mbAnswer mb st rsp bg).sec = s.sec ∧
    (s.mbAnswer mb st rsp bg).lk.takes = s.lk.takes ∧ (s.mbAnswer mb st rsp bg).mbx.resetting = s.mbx.resetting := by
  have hdoes : Does 0x300c0000 s (s.mbAnswer mb st rsp bg) := State.mbAnswer_does
  refine ⟨hdoes.pwr rfl, hdoes.sec rfl rfl rfl rfl, ?_, ?_⟩
  · exact mbNotify_takes ..
  · rw [State.mbAnswer, mbNotify_mbx]
    rfl

/-- The identity is there or its absence is logged (R399). -/
def State.withIdentity (s : State) (ident : Bool) : State :=
  if ident then s.modSec fun x => { x with identity := ident }
  else (s.modSec fun x => { x with identity := ident }).cxlEvent 2 false (bytesOf 1 5)

/-- SERVICE, before a DEVICE_RESET that waits is answered (R413). -/
def State.inService (s : State) (ident : Bool) : State :=
  ((s.withIdentity ident).modPwr fun p => { p with boot := .service, romRestarts := 0 }).modLk fun l =>
    { l with takes := !(s.withIdentity ident).sec.alarmLock }

theorem withIdentity_sec (s : State) (ident : Bool) : (s.withIdentity ident).sec = { s.sec with identity := ident } := by
  unfold State.withIdentity
  split
  · rfl
  · exact State.cxlEvent_does.sec rfl rfl rfl rfl

theorem inService_sec (s : State) (ident : Bool) : (s.inService ident).sec = { s.sec with identity := ident } := by
  rw [State.inService, modLk_sec, modPwr_sec, withIdentity_sec]

theorem inService_takes (s : State) (ident : Bool) : (s.inService ident).lk.takes = !s.sec.alarmLock := by
  rw [State.inService, modLk_lk, withIdentity_sec]

theorem identityDerived_of_links {s : State} (ok : Bool) (hboot : s.pwr.boot = .links) (hstop : s.pwr.stopping = false) :
    exec (.identityDerived ok) s = .next (if (s.inService (ok && !s.sec.fuses.kill)).mbx.resetting then
      ((s.inService (ok && !s.sec.fuses.kill)).modMbx fun m => { m with resetting := false }).mbAnswer .op 0 [] 0
      else s.inService (ok && !s.sec.fuses.kill)) := by
  refine Eq.trans (b := execIdentityDerived ok s) rfl ?_
  unfold execIdentityDerived
  rw [hboot, hstop]
  rfl

/-- Settles O56: the boot state and what ROM finds pick the branch. -/
theorem bringUpRuns : Obligations.BringUpRuns := by
  unfold Obligations.BringUpRuns
  refine ⟨fun s env hgood htrip => ⟨fun hboot hlock => ?locked, fun hboot hlock hfuse hact hprev => ?recovery,
    fun hboot hlock hfuse hact htray hgh hcl => ?accepted, fun hboot => ⟨fun hflow hpg => ?goes, fun htray => ?waits⟩⟩,
    fun s ok hboot hstop => ?identity⟩
  case locked =>
    refine ((fullBringUp_of_good env hgood htrip).1 hboot).trans ?_
    rw [State.bringUpRom, if_pos hlock]
    exact congrArg Host.Outcome.next (if_neg fun h => Boot.noConfusion h.1)
  case recovery =>
    refine ⟨_, (fullBringUp_of_good env hgood htrip).1 hboot, ?_⟩
    have hrom : s.bringUpRom env = s.fusesRead.modPwr fun p => { p with boot := .recovery } := by
      rw [bringUpRom_of_unlocked hlock hfuse]
      exact romImage_of_rejected env (by rw [fusesRead_sec]; exact hact) (by rw [fusesRead_sec]; exact hprev)
    rw [hrom, if_neg (fun h => Boot.noConfusion h.1)]
    refine ⟨rfl, ?_⟩
    rw [modPwr_sec, fusesRead_sec]
    exact ⟨rfl, rfl⟩
  case accepted =>
    refine ⟨_, (fullBringUp_of_good env hgood htrip).1 hboot, ?_⟩
    have hrom : s.bringUpRom env = (s.fusesRead.directives s.sec.active).modPwr fun p => { p with boot := .waitTray } := by
      rw [bringUpRom_of_unlocked hlock hfuse, ← fusesRead_active s]
      exact romImage_of_accepted (by rw [fusesRead_fuses, fusesRead_active]; exact hact) hgh hcl
    have hpwr : (s.fusesRead.directives s.sec.active).pwr = s.pwr := (State.directives_does.pwr rfl).trans (fusesRead_pwr s)
    rw [hrom, if_neg]
    · have hres := trayAwaited (s := s.fusesRead) (by rw [fusesRead_sec]; exact hlock) s.sec.active
      rw [fusesRead_active, fusesRead_fuses] at hres
      exact hres
    · rintro ⟨-, hf, hp⟩
      rw [modPwr_pwr, hpwr] at hf hp
      rcases htray with h | h
      · exact absurd (hf.symm.trans h) (by decide)
      · exact absurd (hp.symm.trans h) (by decide)
  case goes => exact ((fullBringUp_of_good env hgood htrip).2 hboot).trans (congrArg Host.Outcome.next (if_pos ⟨hflow, hpg⟩))
  case waits =>
    refine ((fullBringUp_of_good env hgood htrip).2 hboot).trans (congrArg Host.Outcome.next (if_neg ?_))
    rintro ⟨hf, hp⟩
    rcases htray with h | h
    · exact absurd (hf.symm.trans h) (by decide)
    · exact absurd (hp.symm.trans h) (by decide)
  case identity =>
    refine ⟨_, identityDerived_of_links ok hboot hstop, ?_⟩
    have hsec := inService_sec s (ok && !s.sec.fuses.kill)
    have htakes := inService_takes s (ok && !s.sec.fuses.kill)
    have hserv : (s.inService (ok && !s.sec.fuses.kill)).pwr.boot = .service := rfl
    split
    · obtain ⟨hpwr, hsec', htakes', hres⟩ := mbAnswer_keeps
        ((s.inService (ok && !s.sec.fuses.kill)).modMbx fun m => { m with resetting := false }) .op 0 [] 0
      beta_reduce
      rw [hpwr, hsec', htakes', hres, modMbx_pwr, modMbx_sec, modMbx_lk, hsec, htakes]
      exact ⟨hserv, rfl, rfl, rfl⟩
    · next hno =>
      beta_reduce
      rw [hsec, htakes]
      exact ⟨hserv, rfl, rfl, Bool.eq_false_iff.mpr hno⟩

/-! ## Restarts -/

/-- A signature reaches neither power nor trust, commands or threads. -/
theorem sign_keeps (s : State) (g : Sig) : (s.sign g).pwr = s.pwr ∧ (s.sign g).sec = s.sec ∧ (s.sign g).lk = s.lk ∧
    (s.sign g).thr = s.thr := by
  have h : Does 0x90000010 s (s.sign g) := State.sign_does
  exact ⟨h.pwr rfl, h.sec rfl rfl rfl rfl, h.lk rfl rfl, h.thr rfl rfl⟩

/-- Signatures are numbered in order. -/
theorem sign_sigNext (s : State) (g : Sig) : (s.sign g).rel.sigNext = s.rel.sigNext + 1 := by
  unfold State.sign
  extract_lets k m t
  have hrel : m.rel = s.rel := by
    unfold m
    split <;> rfl
  have hev : Part.same t (t.cxlEvent k.severity (k.mech == 8 || k.mech == 9 || k.mech == 10) (k.bytes.take 80)) .signatures :=
    State.cxlEvent_does.only .signatures rfl
  simp only [Part.same, Prod.mk.injEq] at hev
  obtain ⟨-, -, -, -, -, hnext⟩ := hev
  rw [← hnext, ← hrel]
  rfl

/-- What a management restart writes of itself. -/
def restartSig : Sig := { Sig.blank with mech := 0x15, unitKind := 8, site := 80, severity := 1 }

/-- A restart that is due is due no more. -/
def State.restartTaken (s : State) : State := s.modPwr fun p => { p with restartDue := false }

/-- The restart of a module in SERVICE, signed. -/
def State.restarted (s : State) : State :=
  (s.modPwr fun p => { p with
    restarts := s.clk.now :: s.pwr.restarts.filter fun t => decide (s.clk.now ≤ t + 3600000000000) }).sign restartSig

theorem managementRestart_of_service {s : State} (hdue : s.pwr.restartDue = true) (hboot : s.pwr.boot = .service)
    (hfew : (s.pwr.restarts.filter fun t => decide (s.clk.now ≤ t + 3600000000000)).length < 3) :
    exec .managementRestart s = .next s.restartTaken.restarted := by
  refine Eq.trans (b := execManagementRestart s) rfl ?_
  unfold execManagementRestart
  rw [hdue, need_true]
  refine congrArg Host.Outcome.next ((if_pos (Or.inl hboot)).trans (if_neg ?_))
  rintro ⟨hmany, -⟩
  exact absurd hmany (Nat.not_le.mpr hfew)

/-- A restart during bring-up, signed. -/
def State.bringUpAgain (s : State) : State :=
  if (s.sign restartSig).pwr.romRestarts + 1 ≥ 3 then
    (s.sign restartSig).modPwr fun p => { p with romRestarts := (s.sign restartSig).pwr.romRestarts + 1, boot := .failed }
  else (s.sign restartSig).bringUpStart.modPwr fun p => { p with romRestarts := (s.sign restartSig).pwr.romRestarts + 1 }

theorem managementRestart_of_dram {s : State} (hdue : s.pwr.restartDue = true) (hboot : s.pwr.boot = .dram) :
    exec .managementRestart s = .next s.restartTaken.bringUpAgain := by
  have hboot' : s.restartTaken.pwr.boot = .dram := hboot
  refine Eq.trans (b := execManagementRestart s) rfl ?_
  unfold execManagementRestart
  rw [hdue, need_true]
  refine congrArg Host.Outcome.next ((if_neg ?_).trans (if_neg ?_))
  · change ¬ (s.restartTaken.pwr.boot = .service ∨ s.restartTaken.pwr.boot = .stopped)
    simp [hboot']
  · change ¬ (s.restartTaken.pwr.boot = .recovery ∨ s.restartTaken.pwr.boot = .locked ∨ s.restartTaken.pwr.boot = .failed)
    simp [hboot']

/-! ## Die repair -/

/-- The end of a repair leaves the sites as they are. -/
theorem repairDone_sites (s : State) (st : Status) (rsp : List Byte) : (s.repairDone st rsp).panel.sites = s.panel.sites := by
  have h : Part.same s (s.repairDone st rsp) .sites := State.repairDone_does.only .sites rfl
  simp only [Part.same, Prod.mk.injEq] at h
  exact h.1.symm

theorem putRowMap_panel (s : State) (r : Nat) : (s.putRowMap r).panel.sites = s.panel.sites := by
  have h : Part.same s (s.putRowMap r) .sites := State.putRowMap_does.only .sites rfl
  simp only [Part.same, Prod.mk.injEq] at h
  exact h.1.symm

/-- A repair after a pass that left pages dirty (R419). -/
def Repair.passed (r : Repair) (dirty : List Nat) : Repair :=
  { r with
    phase := if r.phase = 4 ∨ (if r.phase = 4 then [] else dirty).length ≤ dirtyMax then 3 else if r.passes + 1 ≥ 4 then 4 else 2
    passes := r.passes + 1, dirty := if r.phase = 4 then [] else dirty }

/-- The repair's operation, where one asked for it, shows how far it is. -/
def State.withProgress (s : State) (bg : Option Nat) (phase : Nat) : State :=
  match bg with | some g => s.modBg g fun b => { b with progress := if phase = 3 then 999 else 500 } | none => s

theorem withProgress_repair (s : State) (q : Repair) (bg : Option Nat) (phase : Nat) :
    ((s.modPanel fun p => { p with repair := some q }).withProgress bg phase).panel.repair = some q := by
  cases bg <;> rfl

theorem repairPassEnd_of_copying {s : State} {r : Repair} (dirty : List Nat) (hr : s.panel.repair = some r)
    (hphase : r.phase = 2 ∨ r.phase = 4) : exec (.repairPassEnd dirty) s =
      .next ((s.modPanel fun p => { p with repair := some (r.passed dirty) }).withProgress r.bg (r.passed dirty).phase) := by
  have hsome : (s.panel.repair.filter fun r => r.phase == 2 || r.phase == 4) = some r := by
    rcases hphase with h | h <;> simp [hr, h]
  refine Eq.trans (b := execRepairPassEnd dirty s) rfl ?_
  rw [execRepairPassEnd, hsome, needSome_some]
  rfl

/-- The die frozen and, where the old site can be read, written back; its stack and router at the new site (R420). -/
def State.dieCopied (s : State) (r : Repair) (readable : Bool) : State :=
  let s := s.freezeDie r.die
  let s := if readable then
      let s := (s.cores r.die).foldl (fun s g => (s.l1Flush (r.die * 32 + g) 0 allMem).2) s
      ((s.cleanFar r.die none).drainSlices r.die none).flushHome r.die none
    else s
  (s.copyStack r.die fun p => !readable && (r.passes == 0 || r.dirty.contains p)).moveRouter r.die r.oldSite r.newSite

/-- The die has its new site, and the old one is FAILED and retired (R420). -/
def State.siteSwapped (s : State) (r : Repair) : State :=
  (s.modPanel fun p => { p with sites := NMap.put (NMap.put p.sites r.oldSite .failed) r.newSite (.inService r.die) }).modRel fun x =>
    { x with
      retired := x.retired ++ [(2, r.oldSite, 0)]
      retiring := x.retiring.filter fun q => q.1 != r.die
      tallies := tallyMove r.die r.oldSite r.newSite x.tallies
      testing := NMap.erase x.testing r.die }

/-- The maps, routes and caches of a die that has been switched, to the end of the repair. -/
def State.dieSwitched (s : State) (r : Repair) : State :=
  let s := ((s.putRowMap (r.die / 9)).mapUnits [] [] r.die).routeSwap r.die
  let s := s.modBasin fun b => { b with
    l1 := NMap.keep b.l1 fun k _ => keyUnit k / 32 != r.die
    far := NMap.keep b.far fun k _ => keyUnit k != r.die
    farLines := NMap.keep b.farLines fun k _ => keyUnit k != r.die
    home := NMap.keep b.home fun a _ => homeOf a != r.die
    homeLines := NMap.keep b.homeLines fun a _ => homeOf a != r.die
    pend := b.pend.filter fun p => p.die != r.die }
  (s.effSet r.die).repairDone 0 (bytesOf 1 r.newSite)

theorem dieSwitched_does {s : State} {r : Repair} : Does 0x500c0f18 s (s.dieSwitched r) := by
  unfold State.dieSwitched
  exact ((Does.modBasin (((Does.refl.trans State.putRowMap_does rfl).trans State.mapUnits_does rfl).trans State.routeSwap_does rfl)).trans
    State.effSet_does rfl).trans State.repairDone_does rfl

/-- After the switch the sites stand as swapped, and the old one stays retired. -/
theorem dieSwitched_keeps (s : State) (r : Repair) :
    (r.oldSite ≠ r.newSite → NMap.get? ((s.siteSwapped r).dieSwitched r).panel.sites r.newSite = some (.inService r.die) ∧
      NMap.get? ((s.siteSwapped r).dieSwitched r).panel.sites r.oldSite = some .failed) ∧
    (2, r.oldSite, 0) ∈ ((s.siteSwapped r).dieSwitched r).rel.retired := by
  have hdoes := dieSwitched_does (s := s.siteSwapped r) (r := r)
  have hsites := hdoes.only .sites rfl
  simp only [Part.same, Prod.mk.injEq] at hsites
  refine ⟨fun hne => ?_, hdoes.grows (List.mem_append_right _ (List.mem_singleton_self _))⟩
  rw [← hsites.1]
  exact ⟨NMap.get?_put_self _ _ _, (NMap.get?_put_ne _ _ hne).trans (NMap.get?_put_self _ _ _)⟩

/-- Settles O57: the boot state and the phase of the repair pick the branch. -/
theorem repairsRun : Obligations.RepairsRun := by
  unfold Obligations.RepairsRun
  refine ⟨fun s gh hgh hfen hgood => ?watchdog, fun s hdue => ⟨fun hboot hfew => ?restart, fun hboot => ?idle, fun hboot hn => ?third,
    fun hboot hn => ?again⟩, fun s r hr => ⟨fun hphase => ⟨?passed, ?failed⟩, fun dirty hphase => ?copying,
    fun dirty hphase => ?frozen, fun readable hphase hsites => ?switched⟩⟩
  case watchdog =>
    refine Eq.trans (b := execKiltorWatchdog gh s) rfl ?_
    have hthere : (decide (gh < 4) && !s.panel.fencedGh.contains gh) = true := by rw [hfen, decide_eq_true hgh]; rfl
    rw [execKiltorWatchdog, hthere, need_true, hgood, need_true]
  case restart =>
    refine ⟨_, managementRestart_of_service hdue hboot hfew, ?_⟩
    obtain ⟨hpwr, hsec, hlk, hthr⟩ := sign_keeps (s.restartTaken.modPwr fun p => { p with
      restarts := s.restartTaken.clk.now ::
        s.restartTaken.pwr.restarts.filter fun t => decide (s.restartTaken.clk.now ≤ t + 3600000000000) }) restartSig
    rw [State.restarted, hpwr, hsec, hlk, hthr, sign_sigNext]
    exact ⟨rfl, rfl, rfl, rfl, rfl⟩
  case idle =>
    refine Eq.trans (b := execManagementRestart s) rfl ?_
    unfold execManagementRestart
    rw [hdue, need_true]
    refine congrArg Host.Outcome.next ((if_neg ?_).trans (if_pos hboot))
    change ¬ (s.pwr.boot = .service ∨ s.pwr.boot = .stopped)
    rcases hboot with h | h | h <;> simp [h]
  case third =>
    refine ⟨_, managementRestart_of_dram hdue hboot, ?_⟩
    have hcount : (s.restartTaken.sign restartSig).pwr.romRestarts + 1 ≥ 3 := by
      rw [(sign_keeps _ _).1]
      exact (congrArg (· + 1) hn).ge
    rw [State.bringUpAgain, if_pos hcount]
    rfl
  case again =>
    refine ⟨_, managementRestart_of_dram hdue hboot, ?_⟩
    have hcount : ¬ ((s.restartTaken.sign restartSig).pwr.romRestarts + 1 ≥ 3) := by
      rw [(sign_keeps _ _).1]
      exact Nat.not_le.mpr (Nat.succ_lt_succ hn)
    rw [State.bringUpAgain, if_neg hcount]
    beta_reduce
    rw [modPwr_pwr, (sign_keeps _ _).1]
    exact ⟨rfl, rfl⟩
  case passed =>
    have hsome : s.panel.repair.filter (·.phase == 1) = some r := by simp [hr, hphase]
    refine Eq.trans (b := execRepairPhaseADone true s) rfl ?_
    rw [execRepairPhaseADone, hsome, needSome_some]
    rfl
  case failed =>
    have hsome : s.panel.repair.filter (·.phase == 1) = some r := by simp [hr, hphase]
    refine ⟨_, Eq.trans (b := execRepairPhaseADone false s) rfl
      (by rw [execRepairPhaseADone, hsome, needSome_some, if_neg Bool.false_ne_true]), ?_⟩
    beta_reduce
    rw [repairDone_sites, putRowMap_panel]
    exact NMap.get?_put_self _ _ _
  case copying =>
    refine ⟨_, repairPassEnd_of_copying dirty hr (Or.inl hphase), _, withProgress_repair .., rfl, rfl, rfl, ?_⟩
    have hne : r.phase ≠ 4 := by omega
    simp only [Repair.passed, hne, if_false, false_or]
    exact ⟨trivial, rfl⟩
  case frozen =>
    refine ⟨_, repairPassEnd_of_copying dirty hr (Or.inr hphase), _, withProgress_repair .., ?_⟩
    simp only [Repair.passed, hphase, if_true, true_or]
    exact ⟨trivial, trivial⟩
  case switched =>
    have hsome : (s.panel.repair.filter fun r => r.phase == 3 || (decide (r.phase ≥ 2) && !readable)) = some r := by
      rcases hphase with h | ⟨h, h'⟩ <;> simp [hr, h]
      simp [h']
    have heq : exec (.repairSwitch readable) s = .next (((s.dieCopied r readable).siteSwapped r).dieSwitched r) := by
      refine Eq.trans (b := execRepairSwitch readable s) rfl ?_
      rw [execRepairSwitch, hsome, needSome_some]
      rfl
    obtain ⟨hswapped, hretired⟩ := dieSwitched_keeps (s.dieCopied r readable) r
    obtain ⟨hnew, hold⟩ := hswapped hsites
    exact ⟨_, heq, hnew, hold, hretired⟩

end Sys2Proof.Machine
end

section
/-! PROOFS. The messages of the basin protocol at the home, at a holder and at the requester (Tables 7.5 to 7.7, R183 to R200). -/

namespace Sys2Proof.Machine

/-! ## Where a message is -/

theorem atHome_of {s : State} {req : Req} {line : Nat} (h : AtHome s req line) (k : Out) : s.atHome req line k = k := by
  obtain ⟨⟨hdram, haligned⟩, hnode, hup⟩ := h
  have hok : (isDram line && line % 128 == 0 && (decide (req.node < 74) || (decide (76 ≤ req.node) && decide (req.node < 80)))) = true := by
    simpa [hdram, haligned] using hnode
  rw [State.atHome, hok, need_true, hup, need_true]

theorem atDie_of {s : State} {die line : Nat} (h : AtDie s die line) (k : Out) : s.atDie die line k = k := by
  obtain ⟨⟨hdie, haligned⟩, hup⟩ := h
  rw [State.atDie, decide_eq_true hdie, decide_eq_true haligned, Bool.and_self, need_true, hup, need_true]

theorem parityGate_of_sound {u : Upset} (h : u.dirParity = false) (s : State) (req : Req) (line : Nat) (k : State) :
    s.parityGate req line u k = k := by
  rw [State.parityGate, h]
  rfl

/-! ## Tracked requests (Table 7.5) -/

section
variable {s : State} {req : Req} {line : Nat} (h : AtHome s req line) (hnode : req.node < 72)
include h hnode

theorem rdS_atHome (starve : Bool) {u : Upset} (hu : u.dirParity = false) :
    exec (.rdS req line starve u) s = .next (s.homeRdS req line (starve || s.isStarving req.node line) u) := by
  refine Eq.trans (b := execRdS req line starve u s) rfl ?_
  rw [execRdS, atHome_of h, decide_eq_true hnode, need_true, parityGate_of_sound hu]

theorem rdX_atHome (starve : Bool) {u : Upset} (hu : u.dirParity = false) :
    exec (.rdX req line starve u) s = .next (s.homeRdX req line false (starve || s.isStarving req.node line) u) := by
  refine Eq.trans (b := execRdX req line starve u s) rfl ?_
  rw [execRdX, atHome_of h, decide_eq_true hnode, need_true, parityGate_of_sound hu]

theorem upg_atHome (starve : Bool) :
    exec (.upg req line starve) s = .next (s.homeRdX req line true (starve || s.isStarving req.node line) {}) := by
  refine Eq.trans (b := execUpg req line starve s) rfl ?_
  rw [execUpg, atHome_of h, decide_eq_true hnode, need_true]

end

theorem homeRdS_of_gated {s m : State} {r : Req} {line : Nat} {starve : Bool} (u : Upset) (h : s.gate r line false starve = some m) :
    s.homeRdS r line starve u = m := by
  rw [State.homeRdS, h]

theorem homeRdX_of_gated {s m : State} {r : Req} {line : Nat} {starve : Bool} (upg : Bool) (u : Upset)
    (h : s.gate r line true starve = some m) : s.homeRdX r line upg starve u = m := by
  rw [State.homeRdX, h]

section
variable {s r : State} {req : Req} {line : Nat} {starve : Bool}

theorem homeRdS_of_absent {room : Bool} {m : State} (u : Upset) (hg : s.gate req line false starve = none)
    (hr : r = s.attrCheck req line) (hd : NMap.get? r.basin.dir line = none) (hroom : r.dirRoom line = (room, m)) :
    s.homeRdS req line starve u = if room then (m.sendData .dataS line req.node u).grantS line DirEnt.empty [req.node] req.node
      else m.nackTo line req.node := by
  simp only [State.homeRdS, hg, ← hr, hd, hroom]

theorem homeRdS_of_shared {e : DirEnt} (u : Upset) (hg : s.gate req line false starve = none) (hr : r = s.attrCheck req line)
    (hd : NMap.get? r.basin.dir line = some e) (he : e.state = .shared) :
    s.homeRdS req line starve u = (r.sendData .dataS line req.node u).grantS line e [req.node] req.node := by
  simp only [State.homeRdS, hg, ← hr, hd, he]

theorem homeRdS_of_owned {e : DirEnt} {n : Nat} (u : Upset) (hg : s.gate req line false starve = none) (hr : r = s.attrCheck req line)
    (hd : NMap.get? r.basin.dir line = some e) (he : e.state = .owned n) (hn : n ≠ req.node) :
    s.homeRdS req line starve u = r.startFwd line e req 0 n .fwdS req.node := by
  simp only [State.homeRdS, hg, ← hr, hd, he, hn, if_false]

theorem homeRdX_of_absent {m : State} (upg : Bool) (u : Upset) (hg : s.gate req line true starve = none)
    (hr : r = s.attrCheck req line) (hd : NMap.get? r.basin.dir line = none) (hroom : r.dirRoom line = (true, m)) :
    s.homeRdX req line upg starve u = (m.sendData .dataX line req.node u).grantX line DirEnt.empty req.node := by
  simp only [State.homeRdX, hg, ← hr, hd, hroom, if_true]

theorem homeRdX_of_shared {e : DirEnt} (upg : Bool) (u : Upset) (hg : s.gate req line true starve = none)
    (hr : r = s.attrCheck req line) (hd : NMap.get? r.basin.dir line = some e) (he : e.state = .shared) :
    s.homeRdX req line upg starve u = if e.holders.filter (· != req.node) = [] then
        (if upg && e.sharers.contains req.node then r.send (Msg.bare .gntX req.node (homeOf line) line)
          else r.sendData .dataX line req.node u).grantX line e req.node
      else r.startInv line e req (if upg && e.sharers.contains req.node then 2 else 1) (e.holders.filter (· != req.node)) := by
  simp only [State.homeRdX, hg, ← hr, hd, he]

theorem homeRdX_of_owned {e : DirEnt} {n : Nat} (upg : Bool) (u : Upset) (hg : s.gate req line true starve = none)
    (hr : r = s.attrCheck req line) (hd : NMap.get? r.basin.dir line = some e) (he : e.state = .owned n) (hn : n ≠ req.node)
    (hlease : e.lease = false) : s.homeRdX req line upg starve u = r.startFwd line e req 1 n .fwdX req.node := by
  simp only [State.homeRdX, hg, ← hr, hd, he, hn, hlease, if_false]
  rfl

end

/-- Settles O27: the gate, then the entry's state. -/
theorem trackedRequests : Obligations.TrackedRequests := by
  unfold Obligations.TrackedRequests
  intro s req line starve u h hnode hu
  rw [rdS_atHome h hnode starve hu, rdX_atHome h hnode starve hu, upg_atHome h hnode starve]
  refine ⟨fun m hm => ?gatedS, fun m hm => ?gatedX, fun r hr hg => ?reads, fun r hr hg => ?owns⟩
  case gatedS => rw [homeRdS_of_gated u hm]
  case gatedX => rw [homeRdX_of_gated false u hm, homeRdX_of_gated true {} hm]; exact ⟨rfl, rfl⟩
  case reads =>
    refine ⟨fun m hd hroom => ?_, fun m hd hroom => ?_, fun e hd he => ?_, fun e n hd he hn => ?_⟩
    · rw [homeRdS_of_absent u hg hr hd hroom, if_pos rfl]
    · rw [homeRdS_of_absent u hg hr hd hroom, if_neg Bool.false_ne_true]
    · rw [homeRdS_of_shared u hg hr hd he]
    · rw [homeRdS_of_owned u hg hr hd he hn]
  case owns =>
    refine ⟨fun m hd hroom => ?_, fun e hd he hsole => ?_, fun e hd he hothers => ?_, fun e n hd he hn hlease => ?_⟩
    · rw [homeRdX_of_absent false u hg hr hd hroom, homeRdX_of_absent true {} hg hr hd hroom]
      exact ⟨rfl, rfl⟩
    · rw [homeRdX_of_shared false u hg hr hd he, homeRdX_of_shared true {} hg hr hd he, if_pos hsole, if_pos hsole]
      refine ⟨rfl, fun hin => ?_⟩
      rw [hin]
      rfl
    · rw [homeRdX_of_shared false u hg hr hd he, homeRdX_of_shared true {} hg hr hd he, if_neg hothers, if_neg hothers]
      refine ⟨rfl, fun hin => ?_⟩
      rw [hin]
      rfl
    · rw [homeRdX_of_owned false u hg hr hd he hn hlease, homeRdX_of_owned true {} hg hr hd he hn hlease]
      exact ⟨rfl, rfl⟩

/-! ## Untracked requests (R183, R192, R193, R196, R200) -/

/-- An RD_U or a Look answers with what the home has read. -/
theorem homeRdU_of_read {s m : State} {req : Req} {line : Nat} {secs : BitVec 4} {alloc : Bool} {u : Upset} {rd : Rd}
    {bs : List (Nat × Byte)} {pz : List Nat} (h : (s.attrCheck req line).readSecs req line secs alloc u = (rd, bs, pz, m)) :
    s.homeRdU req line secs alloc u =
      if rd.wait then
        if rd.st = 0x3301 then m.modMem fun k => { k with
          stopReads := k.stopReads ++ [{ die := homeOf line, node := req.node, tid := 0, uid := 0, ticket := 0, sector := line
                                         since := m.clk.now }] }
        else m.reply (Msg.bare .nack req.node (homeOf line) line)
      else if rd.st ≠ 0 then m.reply { Msg.bare .err req.node (homeOf line) line with status := rd.st }
      else m.reply { Msg.bare .dataU req.node (homeOf line) line with
        bytes := bs, poison := pz, fwdTo := if alloc then 0 else 1, status := if pz = [] then 0 else 0x3701 } := by
  simp only [State.homeRdU, h]

theorem untrackedRead_atHome {s : State} {req : Req} {line : Nat} (h : AtHome s req line) (secs : BitVec 4) {u : Upset}
    (hu : u.dirParity = false) (alloc : Bool) : exec (if alloc then .rdU req line secs u else .look req line secs u) s =
      .next (s.homeRdU req line secs alloc u) := by
  cases alloc with
  | true =>
    refine Eq.trans (b := execRdU req line secs u s) rfl ?_
    rw [execRdU, atHome_of h, parityGate_of_sound hu]
  | false =>
    refine Eq.trans (b := execLook req line secs u s) rfl ?_
    rw [execLook, atHome_of h, parityGate_of_sound hu]

/-- An element within its line is aligned as its offset is. -/
theorem amo_aligned {line off : Nat} (width : AmoWidth) (hline : line % 128 = 0) (hal : off % amoBytes width = 0) :
    (line + off) % amoBytes width = 0 := by
  cases width <;> simp only [amoBytes] at hal ⊢ <;> omega

/-- Settles O28: what the home reads, writes or queues decides the answer. -/
theorem untrackedRequests : Obligations.UntrackedRequests := by
  unfold Obligations.UntrackedRequests
  intro s req line secs u h hu
  refine ⟨fun alloc rd bs pz m hread => ?reads, fun off op width operand comparand old m hoff hal hline hamo => ?atomic,
    fun redOp bytes m hbytes hm => ?reduce, fun hown => ?writes, fun hown m hm => ?refused⟩
  case reads =>
    rw [untrackedRead_atHome h secs hu, homeRdU_of_read hread]
    refine ⟨fun hw hst => ?_, fun hw hst => ?_, fun hw hst => ?_⟩
    · rw [if_neg (by rw [hw]; exact Bool.false_ne_true), if_neg (not_not.mpr hst)]
    · rw [if_neg (by rw [hw]; exact Bool.false_ne_true), if_pos hst]
    · rw [if_pos hw, if_neg hst]
  case atomic =>
    refine Eq.trans (b := execAtN req (line + off) op width operand comparand u s) rfl ?_
    have hmod : (line + off) % 128 = off := by have := h.dram.2; omega
    unfold execAtN
    rw [hline, atHome_of h, beq_iff_eq.mpr (amo_aligned width h.dram.2 hal), need_true, parityGate_of_sound hu, hamo, hmod]
    rfl
  case reduce =>
    subst hm
    have heq : exec (.redU req line redOp bytes) s = execRedU req line redOp bytes s := rfl
    rw [execRedU, atHome_of h, hbytes, need_true] at heq
    refine ⟨fun hop hfull => heq.trans (congrArg Host.Outcome.next (if_pos ⟨hop, decide_eq_true hfull⟩)), fun hroom st n hred => ?_⟩
    refine heq.trans (congrArg Host.Outcome.next ((if_neg ?_).trans ?_))
    · rintro ⟨-, hfull⟩
      exact absurd (of_decide_eq_true hfull) (Nat.not_le.mpr hroom)
    · rw [hred]
      by_cases hst : st = 0
      · rw [if_pos hst]
        exact if_neg (not_not.mpr hst)
      · rw [if_neg hst]
        exact if_pos hst
  case writes =>
    refine ⟨?_, fun bytes w m hbytes hrec => ?_⟩
    · refine Eq.trans (b := execSpd req line secs s) rfl ?_
      rw [execSpd, atHome_of h, if_neg (not_not.mpr hown)]
    · refine Eq.trans (b := execWbU req line bytes s) rfl ?_
      rw [execWbU, atHome_of h, hbytes, need_true, if_neg (not_not.mpr hown)]
      simp only [hrec]
  case refused =>
    subst hm
    refine ⟨?_, fun bytes hbytes => ?_⟩
    · refine Eq.trans (b := execSpd req line secs s) rfl ?_
      rw [execSpd, atHome_of h, if_pos hown]
    · refine Eq.trans (b := execWbU req line bytes s) rfl ?_
      rw [execWbU, atHome_of h, hbytes, need_true, if_pos hown]

/-! ## Owners' write-backs and holders (R186, R189, R190) -/

/-- A forward or a snoop at a die is held while the die awaits its own ownership (Table 7.7). -/
theorem fwdAt_of_msg {s : State} {die line : Nat} {kind : MsgKind} {m : Msg} (h : AtDie s die line) (hm : s.msg? kind die line = some m) :
    s.fwdAt die line kind = .next (if (match (s.dropMsg m).pend? die line with | some p => p.kind == 1 || p.kind == 2 | none => false) &&
        !(s.dropMsg m).farOwned die line && kind != .snpCur then (s.dropMsg m).holdMsg die line m else (s.dropMsg m).serveFwd die m) := by
  rw [State.fwdAt, atDie_of h, hm, needSome_some] <;> rfl

/-- Settles O29: whether the die awaits its own data decides. -/
theorem holdersServe : Obligations.HoldersServe := by
  unfold Obligations.HoldersServe
  intro s die line h
  refine ⟨fun hdram hown => ⟨?drop, ?keep⟩, fun m hm => ⟨fun hfree => ?inv, fun hpend hcoming => ?invHeld⟩,
    fun m kind i hi hm => ?fwd⟩
  case drop =>
    refine Eq.trans (b := execWbD die line s) rfl ?_
    rw [execWbD, atDie_of h, hdram, hown]
    rfl
  case keep =>
    refine Eq.trans (b := execWbK die line s) rfl ?_
    rw [execWbK, atDie_of h, hdram, hown]
    rfl
  case inv =>
    refine Eq.trans (b := execInv die line s) rfl ?_
    rw [execInv, atDie_of h, hm, needSome_some]
    simp only [hfree]
    rfl
  case invHeld =>
    refine Eq.trans (b := execInv die line s) rfl ?_
    rw [execInv, atDie_of h, hm, needSome_some]
    simp only [hpend, hcoming]
    rfl
  case fwd =>
    have hexec : exec i s = s.fwdAt die line kind := by
      rcases hi with hi | hi | hi <;> cases hi <;> rfl
    rw [hexec, fwdAt_of_msg h hm]
    refine ⟨fun hserve => ?_, fun p hp hkind hfar hsnp => ?_⟩
    · refine congrArg Host.Outcome.next (if_neg ?_)
      rcases hserve with hfree | rfl
      · rw [hfree]
        simp
      · simp
    · refine congrArg Host.Outcome.next (if_pos ?_)
      rw [hp]
      simp [hfar, hsnp, hkind]

/-! ## Answers at the home (R186, R189, R191) -/

/-- Settles O30: an entry that is being rebuilt takes bytes only. -/
theorem answersAtHome : Obligations.AnswersAtHome := by
  unfold Obligations.AnswersAtHome
  intro s die line h
  refine ⟨fun m hm => ?invAck, fun m hm => ?fwdAck⟩
  case invAck =>
    refine Eq.trans (b := execInvAck die line s) rfl ?_
    rw [execInvAck, atDie_of h, hm, needSome_some]
  case fwdAck =>
    have heq : exec (.fwdAck die line) s = execFwdAck die line s := rfl
    rw [execFwdAck, atDie_of h, hm, needSome_some] at heq
    refine ⟨fun e t he ht hkind => ?_, fun e t he ht hkind => ?_⟩
    · simp only [he, Option.bind_some, ht] at heq
      exact heq.trans (congrArg Host.Outcome.next (if_pos (beq_iff_eq.mpr hkind)))
    · simp only [he, Option.bind_some, ht] at heq
      exact heq.trans (congrArg Host.Outcome.next (if_neg fun hk => hkind (beq_iff_eq.mp hk)))

/-! ## Answers at the requester (R183, R186, R188) -/

/-- Settles O31: the message is taken, and the waiting access goes on, waits or fails. -/
theorem answersAtRequester : Obligations.AnswersAtRequester := by
  unfold Obligations.AnswersAtRequester
  intro s die line h
  refine ⟨fun m hm => ⟨fun hnot => ?look, fun n hfwd hfar hal => ?untracked⟩, fun m kind own i hi hm n hn => ?data,
    fun m hm hhas => ?grant, fun m hm => ?wbAck, fun m jitter hm => ?nack, fun p hp hnack hdue => ?retry, fun m p hm hp => ?err⟩
  case look =>
    refine Eq.trans (b := execDataU die line s) rfl ?_
    rw [execDataU, atDie_of h, hm, needSome_some]
    exact congrArg Host.Outcome.next (if_pos hnot)
  case untracked =>
    refine Eq.trans (b := execDataU die line s) rfl ?_
    have hno : ¬ (m.fwdTo ≠ 0 ∨ homeOf line = die) := by
      rintro (hf | hf)
      · exact hf hfwd
      · exact hfar hf
    rw [execDataU, atDie_of h, hm, needSome_some]
    simp only [if_neg hno, hal]
    rfl
  case data =>
    have hexec : exec i s = s.dataAt die line kind own := by
      rcases hi with hi | hi <;> cases hi <;> rfl
    rw [hexec, State.dataAt, atDie_of h, hm, needSome_some, hn]
    refine ⟨fun hfree => ?_, fun p hp => ?_⟩
    · simp only [State.served, hfree]
    · simp only [State.served, hp, if_true]
  case grant =>
    refine Eq.trans (b := execGntX die line s) rfl ?_
    rw [execGntX, atDie_of h, hm, needSome_some]
    exact congrArg Host.Outcome.next (if_pos hhas)
  case wbAck =>
    refine Eq.trans (b := execWbAck die line s) rfl ?_
    rw [execWbAck, atDie_of h, hm, needSome_some]
  case nack =>
    refine Eq.trans (b := execNack die line jitter s) rfl ?_
    rw [execNack, atDie_of h, hm, needSome_some]
  case retry =>
    refine Eq.trans (b := execNackRetry die line s) rfl ?_
    rw [execNackRetry, atDie_of h, hp, needSome_some, hnack, decide_eq_true hdue]
    rfl
  case err =>
    refine Eq.trans (b := execErr die line s) rfl ?_
    rw [execErr, atDie_of h, hm, needSome_some]
    simp only [hp]

end Sys2Proof.Machine
end

section
/-! PROOFS. Register rows (R6 to R10), what a pending change brings (R178, R199, R222, R236), cuts (R225 to R230, R239, R240) and
Erhar ports (R276 to R280, R289, R308). -/

namespace Sys2Proof.Machine

/-! ## Where a row is -/

theorem onDie_of_present {s : State} {d : Nat} (hd : d < 72) (hp : s.present d = true) (k : State) : s.onDie d k = .next k := by
  rw [State.onDie, decide_eq_true hd, need_true, hp, need_true]

theorem onRouter_of_present {s : State} {r : Nat} (hr : r < 76) (hp : 72 ≤ r ∨ s.present r = true) (k : State) :
    s.onRouter r k = .next k := by
  have hup : (decide (72 ≤ r) || s.present r) = true := by simpa using hp
  rw [State.onRouter, decide_eq_true hr, Bool.true_or, need_true, hup, need_true]

theorem onCut_of_cut {s : State} {r p : Nat} (hr : r < 76) (hup : 72 ≤ r ∨ s.present r = true) (hp : p < 10)
    (hcut : s.hasCut r p = true) (k : State) : s.onCut r p k = .next k := by
  rw [State.onCut, decide_eq_true hp, hcut, Bool.and_self, need_true, onRouter_of_present hr hup]

theorem atCut_of_cut {s : State} {r p : Nat} (hr : r < 76) (hp : p < 10) (hcut : s.hasCut r p = true) (k : Out) :
    s.atCut r p k = k := by
  rw [State.atCut, decide_eq_true hr, decide_eq_true hp, hcut]
  rfl

theorem atErh_of_port {s : State} {p : Nat} (hp : p < 36) (hgh : s.panel.fencedGh.contains (p / 9) = false) (k : Out) :
    s.atErh p k = k := by
  rw [State.atErh, decide_eq_true hp, hgh]
  rfl

theorem maintRow_of_slice {s : State} {die slice : Nat} (hd : die < 72) (hp : s.present die = true) (hslice : slice < 64) (op : Nat) :
    s.maintRow die op (some slice) = .next (s.poke .firmware (dieBase die + 0x3008) 8 (op * 2 ^ 60 + slice * 2 ^ 53)) := by
  rw [State.maintRow, onDie_of_present hd hp]
  simp only [decide_eq_true hslice, need_true]

theorem maintRow_of_all {s : State} {die : Nat} (hd : die < 72) (hp : s.present die = true) (op : Nat) :
    s.maintRow die op none = .next (s.poke .firmware (dieBase die + 0x3008) 8 (op * 2 ^ 60 + 2 ^ 59)) := by
  rw [State.maintRow, onDie_of_present hd hp, need_true]

/-! ## Register rows -/

/-- Settles O32: each row's unit is there, so the row writes. -/
theorem registerRowsWrite : Obligations.RegisterRowsWrite := by
  unfold Obligations.RegisterRowsWrite
  refine ⟨fun s die hd hp src value => ⟨fun slice v hslice op i hi hv => ?maintSlice, fun op i hi => ?maintAll, fun slice hslice => ?quota,
    fun w hw => ?window, fun set hset => ?spread, onDie_of_present hd hp _, onDie_of_present hd hp _, onDie_of_present hd hp _,
    onDie_of_present hd hp _⟩, fun s src => ⟨fun site hsite => ?margin, fun r hr hup => ⟨onRouter_of_present hr hup _,
      fun p hp hcut => ⟨onCut_of_cut hr hup hp hcut _, onCut_of_cut hr hup hp hcut _, fun on => onCut_of_cut hr hup hp hcut _⟩⟩,
      fun berth bank value hberth => ⟨fun hbank => ?root, ?bmap⟩, rfl,
      fun port hport => ⟨?retrain, ?restore, fun on => ?force⟩, fun addr bytes value hreg hlo hhi => ?write⟩⟩
  case maintSlice =>
    subst hv
    rcases hi with hi | hi | hi <;> cases hi <;> exact maintRow_of_slice hd hp hslice _
  case maintAll => rcases hi with hi | hi | hi <;> cases hi <;> exact maintRow_of_all hd hp _
  case quota =>
    refine Eq.trans (b := execFarQuotaWrite src die slice value s) rfl ?_
    rw [execFarQuotaWrite, decide_eq_true hslice, need_true, onDie_of_present hd hp]
  case window =>
    refine Eq.trans (b := execWindowCommit src die w s) rfl ?_
    rw [execWindowCommit, decide_eq_true hw, need_true, onDie_of_present hd hp]
  case spread =>
    refine Eq.trans (b := execSpreadCommit src die set s) rfl ?_
    rw [execSpreadCommit, decide_eq_true hset, need_true, onDie_of_present hd hp]
  case margin =>
    refine Eq.trans (b := execDramMgnStart src site s) rfl ?_
    rw [execDramMgnStart, decide_eq_true hsite, need_true]
  case root =>
    refine Eq.trans (b := execBmapRootWrite src berth bank value s) rfl ?_
    rw [execBmapRootWrite, decide_eq_true hberth, decide_eq_true hbank, Bool.and_self, need_true]
  case bmap =>
    refine Eq.trans (b := execBmapCommit src berth s) rfl ?_
    rw [execBmapCommit, decide_eq_true hberth, need_true]
  case retrain =>
    refine Eq.trans (b := execErhRetrain src port s) rfl ?_
    rw [execErhRetrain, decide_eq_true hport, need_true]
  case restore =>
    refine Eq.trans (b := execErhRestore src port s) rfl ?_
    rw [execErhRestore, decide_eq_true hport, need_true]
  case force =>
    refine Eq.trans (b := execErhForceDown src port on s) rfl ?_
    rw [execErhForceDown, decide_eq_true hport, need_true]
  case write =>
    refine Eq.trans (b := execRegisterWrite src addr bytes value s) rfl ?_
    rw [execRegisterWrite, hreg, decide_eq_true hlo, decide_eq_true hhi, Bool.and_self, Bool.and_self, need_true]

/-! ## Pending changes -/

@[simp] theorem reg_setReg_self (s : State) (a : Nat) (w : Word) : (s.setReg a w).reg a = w := NMap.getD_put_self _ _ _ _

/-- A margining step's register after its end: the errors, and RUNNING clear (Table 8.8). -/
theorem marginDone_fields (w : Word) {v : Nat} (hv : v < 2 ^ 24) :
    Word.fld (Word.setFld (Word.setFld w 55 32 v) 62 62 0) 55 32 = v ∧ Word.bit (Word.setFld (Word.setFld w 55 32 v) 62 62 0) 62 = false := by
  have hw := w.isLt
  simp only [Word.fld, Word.bit, Word.setFld, Sys2Proof.fld, Sys2Proof.setFld, BitVec.toNat_ofNat, Nat.shiftRight_eq_div_pow,
    Nat.testBit_eq_decide_div_mod_eq, decide_eq_false_iff_not, Nat.reduceAdd, Nat.reduceSub, Nat.reducePow] at hw hv ⊢
  omega

/-- A margining step has ended: its errors stand in the register, and RUNNING is clear (R222). -/
def State.marginDone (s : State) (site errs : Nat) : State :=
  ((s.modMem fun m => { m with margining := m.margining.filter (· != site) }).setRfld (s.canon (siteBase site + 0x6000)) 55 32
    (Nat.min errs 0xFFFFFF)).setRbit (s.canon (siteBase site + 0x6000)) 62 false

theorem marginDone_margining (s : State) (site errs : Nat) :
    (s.marginDone site errs).mem.margining = s.mem.margining.filter (· != site) := rfl

theorem marginDone_canon (s : State) (site errs a : Nat) : (s.marginDone site errs).canon a = s.canon a := rfl

theorem marginDone_reg (s : State) (site errs : Nat) : (s.marginDone site errs).reg (s.canon (siteBase site + 0x6000)) =
    Word.setFld (Word.setFld (s.reg (s.canon (siteBase site + 0x6000))) 55 32 (Nat.min errs 0xFFFFFF)) 62 62 0 := by
  rw [State.marginDone, State.setRbit, State.setRfld, reg_setReg_self, State.setRfld, reg_setReg_self]
  rfl

/-- Settles O33: what is pending takes effect. -/
theorem pendingChangesApply : Obligations.PendingChangesApply := by
  unfold Obligations.PendingChangesApply
  refine ⟨fun s die hd hp => ⟨fun hbusy => ?maint, fun slice q hq => ?quota⟩, fun s site errs hsite hrun => ?margin, fun s => rfl⟩
  case maint =>
    refine Eq.trans (b := execBasinMaintDone die s) rfl ?_
    rw [execBasinMaintDone, hbusy, need_true, onDie_of_present hd hp]
  case quota =>
    refine Eq.trans (b := execFarQuotaApply die slice s) rfl ?_
    rw [execFarQuotaApply, hq, needSome_some, onDie_of_present hd hp]
  case margin =>
    have hready : (decide (site < 80) && s.mem.margining.contains site) = true := by rw [hrun, decide_eq_true hsite]; rfl
    have hlt : Nat.min errs 0xFFFFFF < 2 ^ 24 := lt_of_le_of_lt (Nat.min_le_right _ _) (by decide)
    obtain ⟨herrs, hidle⟩ := marginDone_fields (s.reg (s.canon (siteBase site + 0x6000))) hlt
    refine ⟨s.marginDone site errs, Eq.trans (b := execDramMgnDone site errs s) rfl ?_, ?_, ?_, ?_⟩
    · rw [execDramMgnDone, hready, need_true]
      rfl
    · simp [marginDone_margining]
    · rw [marginDone_canon, State.rfld, marginDone_reg]
      exact herrs
    · rw [marginDone_canon, State.rbit, marginDone_reg]
      exact hidle

/-! ## Cuts -/

theorem cutPort_modCutPort_self (s : State) (r p : Nat) (f : CutPort → CutPort) :
    (s.modCutPort r p f).cutPort r p = f (s.cutPort r p) := NMap.getD_put_self _ _ _ _

/-- A side that trains or is frozen. -/
theorem cutTrains {s : State} {r p : Nat} (h : s.cutState r p = 1 ∨ s.cutState r p = 3) :
    decide (s.cutState r p = 1 ∨ s.cutState r p = 3) = true := decide_eq_true h

/-- A packet injected at a router is checked, and takes the active epoch (R233, R236). -/
theorem cutPacketForward_injected {s : State} {r : Nat} (hr : r < 76) (pkt : CutPkt) : exec (.cutPacketForward r 0 pkt) s =
    .next (if pkt.reserved || !cutTypeOk pkt.typ.toNat || decide (pkt.len.toNat > 64) then s.cutMalformed r pkt
      else s.cutForward r 0 { pkt with epoch := s.rbit (routerBase r + 0x7600) 16, detour := false, hopCount := 0, hops := [] }) := by
  have hthere : ((decide (r < 76) || (decide (80 ≤ r) && decide (r < 160))) && decide (0 ≤ 10)) = true := by simp [hr]
  refine Eq.trans (b := execCutPacketForward r 0 pkt s) rfl ?_
  rw [execCutPacketForward, hthere, need_true]
  rfl

/-- Settles O34: the port's state and what arrives pick the branch. -/
theorem cutsRun : Obligations.CutsRun := by
  unfold Obligations.CutsRun
  intro s r p hr hp hcut
  refine ⟨fun f hact => ⟨fun hgood => ⟨fun hseq => ?outOfSequence, fun hseq => ?frame⟩, fun bad hbad hne => ?bad⟩, fun q hq => ?replay,
    fun htrain => ⟨fun x v w used hres hconf hw hall => ?train, fun x v w used htr hx hres => ?done, fun q => ?timeout⟩,
    fun q hon hdown => ?down, fun m hm => ⟨fun hon => ?reset, fun hoff => ?resetDown⟩, fun pkt hbad => ?malformed,
    fun pkt hres htyp hlen => ⟨?injected, fun hon => ?forwarded⟩⟩
  case outOfSequence =>
    refine Eq.trans (b := execCutFrame r p f s) rfl ?_
    rw [execCutFrame, atCut_of_cut hr hp hcut, hact]
    simp only [hgood]
    exact congrArg Host.Outcome.next (if_pos hseq)
  case frame =>
    refine Eq.trans (b := execCutFrame r p f s) rfl ?_
    rw [execCutFrame, atCut_of_cut hr hp hcut, hact]
    simp only [hgood]
    exact congrArg Host.Outcome.next (if_neg (not_not.mpr hseq))
  case bad =>
    refine Eq.trans (b := execCutFrame r p f s) rfl ?_
    rw [execCutFrame, atCut_of_cut hr hp hcut, hact]
    refine congrArg Host.Outcome.next ((if_pos ?_).trans (by rw [hbad]))
    rw [← hbad]
    cases bad with
    | nil => exact absurd rfl hne
    | cons b t => rfl
  case replay =>
    refine Eq.trans (b := execCutReplay r p s) rfl ?_
    rw [execCutReplay, atCut_of_cut hr hp hcut, hq, needSome_some]
  case train =>
    have heq : exec (.cutTrain r p x) s = execCutTrain r p x s := rfl
    rw [execCutTrain, atCut_of_cut hr hp hcut, cutTrains htrain, need_true] at heq
    simp only [hres, hconf, if_neg hw] at heq
    refine ⟨_, heq, ?_⟩
    beta_reduce
    rw [if_neg (by decide), cutPort_modCutPort_self]
    exact ⟨rfl, rfl, rfl⟩
  case done =>
    refine Eq.trans (b := execCutTrainDone r p s) rfl ?_
    rw [execCutTrainDone, atCut_of_cut hr hp hcut]
    simp only [htr, hx, cutTrains htrain, Bool.and_self, need_true, needSome_some, hres]
  case timeout =>
    refine Eq.trans (b := execCutFreezeTimeout r p q s) rfl ?_
    rw [execCutFreezeTimeout, atCut_of_cut hr hp hcut, cutTrains htrain, need_true]
  case down =>
    refine Eq.trans (b := execCutDown r p q s) rfl ?_
    have hcond : (s.cutFailedEnd r p || s.rbit (cutCtlA r p) 62 || decide (s.rfld (cutStatA r p) 25 24 = 3)) = true := by
      simpa [or_assoc] using hdown
    rw [execCutDown, atCut_of_cut hr hp hcut, bne_iff_ne.mpr hon, need_true, hcond, need_true]
  case reset =>
    subst hm
    refine Eq.trans (b := execCutPortReset r p s) rfl ?_
    rw [execCutPortReset, atCut_of_cut hr hp hcut]
    exact congrArg Host.Outcome.next (if_neg hon)
  case resetDown =>
    subst hm
    refine Eq.trans (b := execCutPortReset r p s) rfl ?_
    rw [execCutPortReset, atCut_of_cut hr hp hcut]
    exact congrArg Host.Outcome.next (if_pos hoff)
  case malformed =>
    refine (cutPacketForward_injected hr pkt).trans (congrArg Host.Outcome.next (if_pos ?_))
    rcases hbad with h | h | h <;> simp [h]
  case injected =>
    have hok : (pkt.reserved || !cutTypeOk pkt.typ.toNat || decide (pkt.len.toNat > 64)) = false := by
      simp [hres, htyp, Nat.not_lt.mpr hlen]
    exact (cutPacketForward_injected hr pkt).trans (congrArg Host.Outcome.next (if_neg (by rw [hok]; exact Bool.false_ne_true)))
  case forwarded =>
    have hok : (pkt.reserved || !cutTypeOk pkt.typ.toNat || decide (pkt.len.toNat > 64)) = false := by
      simp [hres, htyp, Nat.not_lt.mpr hlen]
    have hthere : ((decide (r < 76) || (decide (80 ≤ r) && decide (r < 160))) && decide (p + 1 ≤ 10)) = true := by simp [hr, hp]
    refine Eq.trans (b := execCutPacketForward r (p + 1) pkt s) rfl ?_
    rw [execCutPacketForward, hthere, need_true, Nat.add_sub_cancel, bne_iff_ne.mpr hon, Bool.or_true, need_true,
      if_neg (by rw [hok]; exact Bool.false_ne_true), if_neg (Nat.succ_ne_zero p)]

/-! ## Erhar ports -/

/-- A port that trains or is frozen takes the commands of training. -/
theorem erhTrains {s : State} {p : Nat} (h : s.erhState p = 1 ∨ s.erhState p = 3) :
    (decide (1 ≤ s.erhState p) && decide (s.erhState p ≤ 3)) = true ∧ s.erhState p ≠ 2 := by
  rcases h with h | h <;> simp [h]

/-- Settles O35: the port's state and what arrives pick the branch. -/
theorem erharPortsRun : Obligations.ErharPortsRun := by
  unfold Obligations.ErharPortsRun
  refine ⟨fun s p hp hgh => ⟨fun f m hact hm => ⟨fun hcrc => ?badCrc, fun hcrc hseq => ?outOfSequence, fun hcrc hseq => ?frame⟩,
    fun x m htrain hm => ⟨fun w lanes hl hid hhi hlo hconf => ?trained, fun hl => ?noLanes⟩, fun q htrain => ?timeout,
    fun q hon hon' hdown => ?down, fun m hm => ⟨fun h0 h4 => ?reset, fun hoff => ?resetDown⟩,
    fun pkt hact => ⟨fun hbad => ⟨?badRoute, fun htyp => ?badLink, fun htyp => ?badFw⟩,
      fun hgood => ⟨fun htyp => ?link, fun htyp => ?fw, fun hdst htyp => ?forward, fun hdst htyp => ?deliver⟩⟩⟩,
    fun s hbusy hlate hnone => ?clear⟩
  case badCrc =>
    subst hm
    refine Eq.trans (b := execErhFrame p f s) rfl ?_
    rw [execErhFrame, atErh_of_port hp hgh, hact, hcrc]
    rfl
  case outOfSequence =>
    subst hm
    refine Eq.trans (b := execErhFrame p f s) rfl ?_
    rw [execErhFrame, atErh_of_port hp hgh, hact, hcrc]
    exact congrArg Host.Outcome.next (if_pos hseq)
  case frame =>
    subst hm
    refine Eq.trans (b := execErhFrame p f s) rfl ?_
    rw [execErhFrame, atErh_of_port hp hgh, hact, hcrc]
    exact congrArg Host.Outcome.next (if_neg (not_not.mpr hseq))
  case trained =>
    subst hm
    obtain ⟨hstate, hne⟩ := erhTrains htrain
    refine Eq.trans (b := execErhTrain p x s) rfl ?_
    rw [execErhTrain, atErh_of_port hp hgh, hstate, need_true, if_neg hne]
    have hclash : ¬ ((x.peerValid && ((s.setRfld (erhStatA p) 45 28 x.peerDev.toNat).modErhPort p fun k =>
        { k with training := some x }).ownDev == some x.peerDev.toNat) = true) := by
      rintro h
      obtain ⟨hvalid, hsame⟩ := Bool.and_eq_true_iff.mp h
      rcases hid with hno | hdiff
      · exact absurd (hno.symm.trans hvalid) (by decide)
      · exact hdiff (beq_iff_eq.mp hsame)
    simp only [hl, if_neg hclash, decide_eq_true hhi, decide_eq_true hlo, hconf]
    rfl
  case noLanes =>
    subst hm
    obtain ⟨hstate, hne⟩ := erhTrains htrain
    refine Eq.trans (b := execErhTrain p x s) rfl ?_
    rw [execErhTrain, atErh_of_port hp hgh, hstate, need_true, if_neg hne]
    simp only [hl]
  case timeout =>
    obtain ⟨hstate, hne⟩ := erhTrains htrain
    refine Eq.trans (b := execErhFreezeTimeout p q s) rfl ?_
    rw [execErhFreezeTimeout, atErh_of_port hp hgh, hstate, need_true, if_neg hne]
  case down =>
    have hon2 : (s.erhState p != 0 && s.erhState p != 4) = true := by simp [hon, hon']
    have hcond : (s.rbit (erhCtlA p) 62 || s.rfld (erhStatA p) 47 46 == 3) = true := by simpa using hdown
    refine Eq.trans (b := execErhPortDown p q s) rfl ?_
    rw [execErhPortDown, atErh_of_port hp hgh, hon2, need_true, hcond, need_true]
  case reset =>
    subst hm
    refine Eq.trans (b := execErhPortReset p s) rfl ?_
    rw [execErhPortReset, atErh_of_port hp hgh]
    exact congrArg Host.Outcome.next (if_neg (not_or.mpr ⟨h0, h4⟩))
  case resetDown =>
    subst hm
    refine Eq.trans (b := execErhPortReset p s) rfl ?_
    rw [execErhPortReset, atErh_of_port hp hgh]
    exact congrArg Host.Outcome.next (if_pos hoff)
  case badRoute =>
    refine Eq.trans (b := execErhPacketRoute p pkt s) rfl ?_
    rw [execErhPacketRoute, atErh_of_port hp hgh, hact, hbad]
    rfl
  case badLink =>
    refine Eq.trans (b := execLinkMgmt p pkt s) rfl ?_
    rw [execLinkMgmt, atErh_of_port hp hgh, hact, htyp, hbad]
    rfl
  case badFw =>
    refine Eq.trans (b := execFwMgmt p pkt s) rfl ?_
    rw [execFwMgmt, atErh_of_port hp hgh, hact, htyp, hbad]
    rfl
  case link =>
    refine Eq.trans (b := execLinkMgmt p pkt s) rfl ?_
    rw [execLinkMgmt, atErh_of_port hp hgh, hact, htyp, hgood]
    rfl
  case fw =>
    refine Eq.trans (b := execFwMgmt p pkt s) rfl ?_
    rw [execFwMgmt, atErh_of_port hp hgh, hact, htyp, hgood]
    rfl
  case forward =>
    refine Eq.trans (b := execErhPacketRoute p pkt s) rfl ?_
    rw [execErhPacketRoute, atErh_of_port hp hgh, hact, hgood, if_neg hdst, if_neg htyp]
    rfl
  case deliver =>
    refine Eq.trans (b := execErhPacketRoute p pkt s) rfl ?_
    rw [execErhPacketRoute, atErh_of_port hp hgh, hact, hgood, if_pos hdst, if_neg htyp]
    rfl
  case clear =>
    refine Eq.trans (b := execErhOldBusyClear s) rfl ?_
    rw [execErhOldBusyClear, hbusy, need_true, decide_eq_true hlate, hnone]
    rfl

end Sys2Proof.Machine
end

section
/-! PROOFS. Remote operations at both ends (R291 to R297, R360) and collectives (R298 to R304). -/

namespace Sys2Proof.Machine

/-! ## Requests of other devices -/

/-- A well-formed request at an active port is served for the berth whose span accepts it, and answered otherwise (R291). -/
theorem erhServe_of_active {s : State} {p : Nat} {k : ErhPkt} {typ : BitVec 8} (hp : p < 36)
    (hgh : s.panel.fencedGh.contains (p / 9) = false) (hact : s.erhState p = 2) (hdst : s.ownDev = some k.dst.toNat)
    (hgood : erhMalformed k = false) (htyp : k.typ = typ) (f : Nat → State → State) :
    s.erhServe p k typ f = .next (if s.sec.alarmLock then s.erhAnswer k 0x07 0x4B05 []
      else match s.spanBerth k with
        | none => (s.gcnt (p / 9) 5 1).erhAnswer k 0x07 0x4801 []
        | some b => f b s) := by
  have hok : (s.erhState p == 2 && k.typ == typ && s.ownDev == some k.dst.toNat) = true := by simp [hact, htyp, hdst]
  rw [State.erhServe, atErh_of_port hp hgh, hok, need_true, if_neg (by rw [hgood]; exact Bool.false_ne_true)] <;> rfl

theorem erhServe_of_alarm {s : State} {p : Nat} {k : ErhPkt} {typ : BitVec 8} (hp : p < 36)
    (hgh : s.panel.fencedGh.contains (p / 9) = false) (hact : s.erhState p = 2) (hdst : s.ownDev = some k.dst.toNat)
    (hgood : erhMalformed k = false) (htyp : k.typ = typ) (f : Nat → State → State) (h : s.sec.alarmLock = true) :
    s.erhServe p k typ f = .next (s.erhAnswer k 0x07 0x4B05 []) :=
  (erhServe_of_active hp hgh hact hdst hgood htyp f).trans (congrArg Host.Outcome.next (if_pos h))

theorem erhServe_of_unaccepted {s : State} {p : Nat} {k : ErhPkt} {typ : BitVec 8} (hp : p < 36)
    (hgh : s.panel.fencedGh.contains (p / 9) = false) (hact : s.erhState p = 2) (hdst : s.ownDev = some k.dst.toNat)
    (hgood : erhMalformed k = false) (htyp : k.typ = typ) (f : Nat → State → State) (h : s.sec.alarmLock = false)
    (hspan : s.spanBerth k = none) : s.erhServe p k typ f = .next ((s.gcnt (p / 9) 5 1).erhAnswer k 0x07 0x4801 []) := by
  rw [erhServe_of_active hp hgh hact hdst hgood htyp f, if_neg (by rw [h]; exact Bool.false_ne_true), hspan]

theorem erhServe_of_span {s : State} {p b : Nat} {k : ErhPkt} {typ : BitVec 8} (hp : p < 36)
    (hgh : s.panel.fencedGh.contains (p / 9) = false) (hact : s.erhState p = 2) (hdst : s.ownDev = some k.dst.toNat)
    (hgood : erhMalformed k = false) (htyp : k.typ = typ) (f : Nat → State → State) (h : s.sec.alarmLock = false)
    (hspan : s.spanBerth k = some b) : s.erhServe p k typ f = .next (f b s) := by
  rw [erhServe_of_active hp hgh hact hdst hgood htyp f, if_neg (by rw [h]; exact Bool.false_ne_true), hspan]

/-- The three requests are served alike. -/
theorem erhServed_of_request {s : State} {p : Nat} {k : ErhPkt} {u : Upset} {i : Instr}
    (hi : (i = .put p k ∧ k.typ = 0x01) ∨ (i = .get p k u ∧ k.typ = 0x03) ∨ (i = .atomic p k u ∧ k.typ = 0x05)) :
    ∃ typ f, k.typ = typ ∧ exec i s = s.erhServe p k typ f := by
  rcases hi with ⟨rfl, htyp⟩ | ⟨rfl, htyp⟩ | ⟨rfl, htyp⟩
  · exact ⟨_, _, htyp, Eq.trans (b := execPut p k s) rfl rfl⟩
  · exact ⟨_, _, htyp, Eq.trans (b := execGet p k u s) rfl rfl⟩
  · exact ⟨_, _, htyp, Eq.trans (b := execAtomic p k u s) rfl rfl⟩

/-- Settles O36: the alarm, the span, then the access decide the answer. -/
theorem erharRequestsServed : Obligations.ErharRequestsServed := by
  unfold Obligations.ErharRequestsServed
  intro s p k u hp hgh hact hdst hgood
  refine ⟨fun i hi => ⟨fun halarm => ?alarm, fun hunlocked hspan => ?unaccepted⟩, fun b hunlocked hspan hreg =>
    ⟨fun st m htyp hput => ?put, fun rd m htyp hget hwait => ?get, fun op wd pa st old m htyp hop hal hpa hamo => ?atomic⟩⟩
  case alarm =>
    obtain ⟨typ, f, htyp, hexec⟩ := erhServed_of_request (s := s) hi
    exact hexec.trans (erhServe_of_alarm hp hgh hact hdst hgood htyp f halarm)
  case unaccepted =>
    obtain ⟨typ, f, htyp, hexec⟩ := erhServed_of_request (s := s) hi
    exact hexec.trans (erhServe_of_unaccepted hp hgh hact hdst hgood htyp f hunlocked hspan)
  case put =>
    refine Eq.trans (b := execPut p k s) rfl ((erhServe_of_span hp hgh hact hdst hgood htyp _ hunlocked hspan).trans ?_)
    rw [hreg, if_neg Bool.false_ne_true, hput]
  case get =>
    refine Eq.trans (b := execGet p k u s) rfl ((erhServe_of_span hp hgh hact hdst hgood htyp _ hunlocked hspan).trans ?_)
    simp only [hreg, hget, hwait]
    rfl
  case atomic =>
    refine Eq.trans (b := execAtomic p k u s) rfl ((erhServe_of_span hp hgh hact hdst hgood htyp _ hunlocked hspan).trans ?_)
    simp only [hop, hal, hreg, hpa, hamo]
    rfl

/-! ## Answers to this device's requests -/

/-- A well-formed answer meets the open operation that it names, or none (R297). -/
theorem erhAnswered_of_sound {s : State} {k : ErhPkt} {typ : BitVec 8} (hdst : s.ownDev = some k.dst.toNat)
    (hgood : erhMalformed k = false) (htyp : k.typ = typ) (kind : Nat) (f : ErhOpen → State → State) :
    s.erhAnswered k typ kind f = .next (match s.openOf k kind with
      | none => s
      | some o => f o (s.modErh fun e => { e with opens := removeFirst (· == o) e.opens })) := by
  have hok : (s.ownDev == some k.dst.toNat && k.typ == typ) = true := by simp [hdst, htyp]
  rw [State.erhAnswered, hok, need_true, if_neg (by rw [hgood]; exact Bool.false_ne_true)] <;> rfl

theorem erhAnswered_of_open {s m : State} {k : ErhPkt} {typ : BitVec 8} {kind : Nat} {o : ErhOpen} (hdst : s.ownDev = some k.dst.toNat)
    (hgood : erhMalformed k = false) (htyp : k.typ = typ) (ho : s.openOf k kind = some o)
    (hm : m = s.modErh fun e => { e with opens := removeFirst (· == o) e.opens }) (f : ErhOpen → State → State) :
    s.erhAnswered k typ kind f = .next (f o m) := by
  rw [erhAnswered_of_sound hdst hgood htyp, ho, hm]

theorem erhAnswered_of_late {s : State} {k : ErhPkt} {typ : BitVec 8} {kind : Nat} (hdst : s.ownDev = some k.dst.toNat)
    (hgood : erhMalformed k = false) (htyp : k.typ = typ) (ho : s.openOf k kind = none) (f : ErhOpen → State → State) :
    s.erhAnswered k typ kind f = .next s := by
  rw [erhAnswered_of_sound hdst hgood htyp, ho]

/-- An ERH_ERR fails the operation that it names. -/
theorem erhErr_of_sound {s : State} {k : ErhPkt} (hdst : s.ownDev = some k.dst.toNat) (hgood : erhMalformed k = false)
    (htyp : k.typ = 0x07) : exec (.erhErr k) s = .next (match s.erh.opens.find? fun o => o.txn == k.txn.toNat with
      | none => s
      | some o => s.openFail o k.status) := by
  have hok : (s.ownDev == some k.dst.toNat && k.typ == 0x07) = true := by simp [hdst, htyp]
  refine Eq.trans (b := execErhErr k s) rfl ?_
  rw [execErhErr, hok, need_true, if_neg (by rw [hgood]; exact Bool.false_ne_true)] <;> rfl

/-- Settles O37: the open operation that the answer names decides. -/
theorem erharAnswers : Obligations.ErharAnswers := by
  unfold Obligations.ErharAnswers
  refine ⟨fun s k hdst hgood => ⟨fun typ kind i hi htyp ho => ?late, fun kind o m ho hm => ?answer, fun htyp ho => ?errLate,
    fun o htyp ho => ?err⟩, fun s txn o ho hdue => ?timeout⟩
  case late =>
    rcases hi with hi | hi | hi <;> cases hi
    · exact Eq.trans (b := execPutAck k s) rfl (erhAnswered_of_late hdst hgood htyp ho _)
    · exact Eq.trans (b := execGetData k s) rfl (erhAnswered_of_late hdst hgood htyp ho _)
    · exact Eq.trans (b := execAtomicResp k s) rfl (erhAnswered_of_late hdst hgood htyp ho _)
  case answer =>
    refine ⟨fun hkind htyp hmore => ?_, fun hkind htyp hlast => ?_, fun hkind htyp htick => ?_, fun n hkind htyp htick => ?_,
      fun op wd rd va a c t hkind htyp hacc hthr huid hwait => ?_⟩ <;> subst hkind
    · refine Eq.trans (b := execPutAck k s) rfl ((erhAnswered_of_open hdst hgood htyp ho hm _).trans ?_)
      rw [if_pos hmore]
    · refine Eq.trans (b := execPutAck k s) rfl ((erhAnswered_of_open hdst hgood htyp ho hm _).trans ?_)
      rw [if_neg (by rw [hlast]; exact Bool.false_ne_true)]
    · refine Eq.trans (b := execGetData k s) rfl ((erhAnswered_of_open hdst hgood htyp ho hm _).trans ?_)
      simp only [htick, Option.getD_none]
    · refine Eq.trans (b := execGetData k s) rfl ((erhAnswered_of_open hdst hgood htyp ho hm _).trans ?_)
      simp only [htick, Option.getD_some]
    · refine Eq.trans (b := execAtomicResp k s) rfl ((erhAnswered_of_open hdst hgood htyp ho hm _).trans ?_)
      simp only [hacc, hthr, if_pos (And.intro huid hwait)]
      rfl
  case errLate => rw [erhErr_of_sound hdst hgood htyp, ho]
  case err => rw [erhErr_of_sound hdst hgood htyp, ho]
  case timeout =>
    refine Eq.trans (b := execErhRequestTimeout txn s) rfl ?_
    rw [execErhRequestTimeout, ho, needSome_some, decide_eq_true hdue, need_true]

/-! ## Collectives -/

/-- With ARRIVE reached, the generation starts or goes on (R299). -/
theorem collArrive_of_arrived {s : State} {n : Nat} {g : Group} {c : Nat × Nat} {x : Context} (u : Upset) (hlo : 1 ≤ n)
    (hhi : n ≤ 4095) (hg : s.group? n = some g) (hc : counterId g.arrive = some c) (hx : s.ctx? c.1 = some x)
    (hreach : (g.gen + 1) * g.localCnt ≤ (x.ctr c.2).toNat) : exec (.collArrive n u) s = match NMap.get? s.erh.runs n with
      | some r => need ((List.range (dChunks r.desc)).all fun c => NMap.has r.result c) .notPending (.next (s.collPush n g r))
      | none => .next (s.collRead n g u) := by
  have hv : ((counterId g.arrive).bind fun p => (s.ctx? p.1).map fun c => (c.ctr p.2).toNat) = some (x.ctr c.2).toNat := by
    simp [hc, hx]
  refine Eq.trans (b := execCollArrive n u s) rfl ?_
  rw [execCollArrive, decide_eq_true hlo, decide_eq_true hhi, Bool.and_self, need_true, hg, needSome_some, hv, needSome_some,
    decide_eq_true hreach, need_true] <;> rfl

/-- A well-formed collective packet of a valid group takes effect for the generation after GEN, and is discarded otherwise. -/
theorem onColl_of_sound {s : State} {k : ErhPkt} {typ : BitVec 8} {g : Group} (hdst : s.ownDev = some k.dst.toNat)
    (hgood : erhMalformed k = false) (hg : s.group? k.group.toNat = some g) (htyp : k.typ = typ) (f : Group → State) :
    s.onColl k typ f = .next (if k.gen.toNat = g.gen + 1 then f g else s) := by
  have hok : (s.ownDev == some k.dst.toNat && k.typ == typ) = true := by simp [hdst, htyp]
  rw [State.onColl, hok, need_true, if_neg (by rw [hgood]; exact Bool.false_ne_true), hg]

/-- Settles O38: what is read, and what comes from the tree, decide. -/
theorem collectivesRun : Obligations.CollectivesRun := by
  unfold Obligations.CollectivesRun
  refine ⟨fun s n g c x u hlo hhi hg hc hx hreach => ⟨fun r hr hall => ?push, fun rd m hnone hrd hwait => ?read⟩,
    fun s k g hdst hgood hg => ⟨fun hgen => ⟨fun htyp hchild => ⟨fun hnone => ?early, fun r hr => ?up⟩,
      fun r htyp hr hroot hparent => ?down, fun htyp => ?fail⟩, fun hgen i hi => ?stale⟩⟩
  case push =>
    rw [collArrive_of_arrived u hlo hhi hg hc hx hreach, hr]
    simp only [hall, need_true]
  case read =>
    have hexec : exec (.collArrive n u) s = .next (s.collRead n g u) := by
      rw [collArrive_of_arrived u hlo hhi hg hc hx hreach, hnone]
    rw [hexec, State.collRead, hrd]
    refine ⟨fun hst hbad => ?_, fun hst hok => ⟨fun hgives => ?_, fun src k hgives hsrc hsw => ⟨fun hss => ?_, fun hss => ?_⟩⟩⟩
    · simp only [hwait, hst, hbad]
      rfl
    · simp only [hwait, hst, hok, hgives]
      rfl
    · simp only [hwait, hst, hok, hgives, hsrc, hsw, hss]
      rfl
    · simp only [hwait, hst, hok, hgives, hsrc, hsw]
      exact congrArg Host.Outcome.next (if_pos hss)
  case early =>
    refine Eq.trans (b := execCollUp k s) rfl ((onColl_of_sound hdst hgood hg htyp _).trans ?_)
    rw [if_pos hgen, hchild, hnone]
    rfl
  case up =>
    refine Eq.trans (b := execCollUp k s) rfl ((onColl_of_sound hdst hgood hg htyp _).trans ?_)
    rw [if_pos hgen, hchild, hr]
    rfl
  case down =>
    refine Eq.trans (b := execCollDown k s) rfl ((onColl_of_sound hdst hgood hg htyp _).trans ?_)
    rw [if_pos hgen, hr]
    exact congrArg Host.Outcome.next (if_neg (by rw [hroot]; rintro (h | h); exacts [Bool.false_ne_true h, h hparent]))
  case fail =>
    refine Eq.trans (b := execCollFail k s) rfl ((onColl_of_sound hdst hgood hg htyp _).trans ?_)
    rw [if_pos hgen]
  case stale =>
    rcases hi with ⟨rfl, htyp⟩ | ⟨rfl, htyp⟩ | ⟨rfl, htyp⟩
    · exact Eq.trans (b := execCollUp k s) rfl ((onColl_of_sound hdst hgood hg htyp _).trans (congrArg Host.Outcome.next (if_neg hgen)))
    · exact Eq.trans (b := execCollDown k s) rfl ((onColl_of_sound hdst hgood hg htyp _).trans (congrArg Host.Outcome.next (if_neg hgen)))
    · exact Eq.trans (b := execCollFail k s) rfl ((onColl_of_sound hdst hgood hg htyp _).trans (congrArg Host.Outcome.next (if_neg hgen)))

end Sys2Proof.Machine
end

section
/-! PROOFS. Host ports, host accesses and host memory (R311 to R328). -/

namespace Sys2Proof.Machine

/-! ## Host ports -/

/-- A port that exists lets its command through, up or not. -/
theorem atPort_of_there {s : State} {port : Nat} (hlt : port < 2) (hgh : port = 1 → s.panel.fencedGh.contains 2 = false) (k : Out) :
    s.atPort port k = k := by
  have hthere : (port == 1 && s.panel.fencedGh.contains 2) = false := by
    by_cases hp : port = 1
    · rw [hgh hp, Bool.and_false]
    · simp [hp]
  simp only [State.atPort, decide_eq_true hlt, hthere]
  rfl

theorem cport_modPort_self {s : State} {port : Nat} (hlt : port < 2) (f : CxlPort → CxlPort) :
    (s.modPort port f).cport port = f (s.cport port) := getD_setIfInBounds_self _ _ _ hlt

/-- Settles O40: the guards pass, and the decoder, the port and the boot state decide. -/
theorem hostPorts : Obligations.HostPorts := by
  unfold Obligations.HostPorts
  refine ⟨fun s port h => ⟨fun n base size ways hdmDb ok hn hfree hunlocked hok => ?commit, fun n d hd hcom hunlocked hheld => ?uncommit,
    onPort_of_up h _, fun line m hm => ?snoop, fun hopen => ?request, fun i skid hi hrun => ?integrity⟩,
    fun s port hlt hgh => ⟨fun m hm => ?perst, fun width rate flit m hw hr hf hgood hdown hm => ?train,
      fun offset hlim hal => ⟨fun hlinks hservice => ?down, fun hup => ?config⟩⟩⟩
  case commit =>
    refine Eq.trans (b := execHdmDecoderCommit port n base size ways hdmDb s) rfl ?_
    rw [execHdmDecoderCommit, onPort_of_up h, decide_eq_true hn, hfree, hok]
    exact congrArg Host.Outcome.next (if_neg (by rw [hunlocked]; exact Bool.false_ne_true))
  case uncommit =>
    refine Eq.trans (b := execHdmDecoderUncommit port n s) rfl ?_
    rw [execHdmDecoderUncommit, onPort_of_up h, hd, Option.filter_some, if_pos hcom, needSome_some,
      if_neg (by rw [hunlocked]; exact Bool.false_ne_true)]
    simp only [hheld]
    rfl
  case snoop =>
    refine Eq.trans (b := execBisnpTimeout port line s) rfl ?_
    rw [execBisnpTimeout, onPort_of_up h, hm, needSome_some]
  case request =>
    have hany : (!(s.cport port).hreqs.isEmpty || !(s.cport port).atsReqs.isEmpty) = true := by simpa using hopen
    refine Eq.trans (b := execHostRequestTimeout port s) rfl ?_
    rw [execHostRequestTimeout, onPort_of_up h, hany, need_true]
  case integrity =>
    refine Eq.trans (b := execIdeIntegrityFailure port skid s) rfl ?_
    rw [execIdeIntegrityFailure, onPort_of_up h]
    simp only [hi, hrun]
    rfl
  case perst =>
    subst hm
    exact atPort_of_there hlt hgh _
  case train =>
    have hshape : ([1, 2, 4, 8, 16].contains width && [8, 16, 32, 64].contains rate && (flit || decide (rate ≤ 32))) = true := by
      simpa [hw, hr] using hf
    subst hm
    refine Eq.trans (b := execCxlLinkTrain port width rate flit s) rfl ?_
    rw [execCxlLinkTrain, atPort_of_there hlt hgh, hshape, hgood, hdown]
    rfl
  case down =>
    have hdown : s.linksUp = false := by simp [State.linksUp, hlinks, hservice]
    refine Eq.trans (b := execConfigRequest port offset s) rfl ?_
    rw [execConfigRequest, atPort_of_there hlt hgh, decide_eq_true hlim, beq_iff_eq.mpr hal, hdown]
    rfl
  case config =>
    have hup : s.linksUp = true := by simpa [State.linksUp] using hup
    have heq : exec (.configRequest port offset) s = execConfigRequest port offset s := rfl
    rw [execConfigRequest, atPort_of_there hlt hgh, decide_eq_true hlim, beq_iff_eq.mpr hal, hup] at heq
    refine ⟨_, heq, ?_⟩
    simp only [Bool.not_true, Bool.false_eq_true, if_false, State.hostRsp, cport_modPort_self hlt]
    refine ⟨trivial, ?_, fun h8 => by rw [if_pos h8]; rfl⟩
    split <;> simp

/-! ## Host accesses -/

/-- A read that may own the line hands out its data once nothing keeps it waiting. -/
theorem hostMemRd_of_allowed {s m : State} {port addr pa : Nat} {want : HostWant} {tee : Bool} {r : Req} (u : Upset)
    (h : PortUp s port) (hway : s.hostWay port addr tee = .go pa r) (hown : s.hostOwn r pa (want == .any) = .allow)
    (hrd : (match want with
      | .none => s.snoopCur (lineOf pa) r
      | .shared => s.hostShared port (lineOf pa) r
      | .any => s.hostAny port (lineOf pa) r) = (false, m)) :
    exec (.hostMemRd port addr want tee u) s = .next (m.hostData port pa u) := by
  refine Eq.trans (b := execHostMemRd port addr want tee u s) rfl ?_
  rw [execHostMemRd, onPort_of_up h, hway]
  simp only [hown]
  cases want <;> simp only [hrd] <;> rfl

/-- A window access of the host is refused, or answers what the counter held. -/
theorem counterFetchadd_of_host {s : State} {port berth offset : Nat} {tee : Bool} (bytes : Nat) (kind : WinOp) (value : BitVec 64)
    (h : PortUp s port) (hb : berth < 255) (hlo : 0x1000 ≤ offset) (hhi : offset < 0x3000) (htee : s.teeBreaks berth tee = false) :
    exec (.counterFetchadd (.host port tee) berth offset bytes kind value) s =
      .next (match if kind = .add ∧ bytes = 8 then s.winAdd berth offset value else (none, s.winRefused berth) with
        | (some v, s) => s.hostRsp port (bytesOf 8 v.toNat) false false
        | (none, s) => s.hostRsp port [] false true) := by
  refine Eq.trans (b := execCounterFetchadd (.host port tee) berth offset bytes kind value s) rfl ?_
  simp only [execCounterFetchadd, decide_eq_true hb, decide_eq_true hlo, decide_eq_true hhi, onPort_of_up h, htee]
  rfl

/-- A window access of a thread or a device goes to the counter only within its own berth. -/
theorem counterFetchadd_of_device {s : State} {src : WinSrc} {b berth offset : Nat} (bytes : Nat) (kind : WinOp) (value : BitVec 64)
    (hsrc : src = .thread b ∨ src = .erhar b) (hb : berth < 255) (hlo : 0x1000 ≤ offset) (hhi : offset < 0x3000) :
    exec (.counterFetchadd src berth offset bytes kind value) s = .next (if b = berth then
      (if kind = .add ∧ bytes = 8 then s.winAdd berth offset value else (none, s.winRefused berth)).2 else s.winRefused berth) := by
  rcases hsrc with rfl | rfl
  · refine Eq.trans (b := execCounterFetchadd (.thread b) berth offset bytes kind value s) rfl ?_
    simp only [execCounterFetchadd, decide_eq_true hb, decide_eq_true hlo, decide_eq_true hhi]
    rfl
  · refine Eq.trans (b := execCounterFetchadd (.erhar b) berth offset bytes kind value s) rfl ?_
    simp only [execCounterFetchadd, decide_eq_true hb, decide_eq_true hlo, decide_eq_true hhi]
    rfl

/-- Settles O41: the decoder, the owner and the directory decide. -/
theorem hostAccesses : Obligations.HostAccesses := by
  unfold Obligations.HostAccesses
  refine ⟨fun s port h => ⟨fun addr want tee u n hway => ?refused, fun addr want tee u pa r m hway =>
      ⟨fun hown => ?notOwned, fun hown hnone hshared hany => ?read⟩,
    fun addr bytes keep tee hin => ⟨fun n hway => ?writeRefused, fun pa r e hway he hstate => ⟨?keep, ?give⟩,
      fun pa r hway hnone => ?ungranted⟩,
    fun line bytes m hm hin => ?birsp,
    fun tee berth offset value hb hlo hhi htee => ⟨fun old m hadd => ?add, fun bytes kind hbad => ?bad⟩⟩,
    fun s berth offset value hb hlo hhi => ⟨fun src hsrc => ?own, fun src b hsrc hne bytes kind => ?foreign⟩⟩
  case refused =>
    refine Eq.trans (b := execHostMemRd port addr want tee u s) rfl ?_
    rw [execHostMemRd, onPort_of_up h, hway]
  case notOwned =>
    refine Eq.trans (b := execHostMemRd port addr want tee u s) rfl ?_
    rw [execHostMemRd, onPort_of_up h, hway]
    simp only [hown]
  case read =>
    refine hostMemRd_of_allowed u h hway hown ?_
    cases want with
    | none => exact hnone rfl
    | shared => exact hshared rfl
    | any => exact hany rfl
  case writeRefused =>
    refine Eq.trans (b := execHostMemWr port addr bytes keep tee s) rfl ?_
    rw [execHostMemWr, onPort_of_up h, hin, need_true, hway]
  case keep =>
    refine Eq.trans (b := execHostMemWr port addr bytes true tee s) rfl ?_
    rw [execHostMemWr, onPort_of_up h, hin, need_true, hway]
    simp only [he, hstate]
    rfl
  case give =>
    refine Eq.trans (b := execHostMemWr port addr bytes false tee s) rfl ?_
    rw [execHostMemWr, onPort_of_up h, hin, need_true, hway]
    simp only [he, hstate]
    rfl
  case ungranted =>
    refine Eq.trans (b := execHostMemWr port addr bytes keep tee s) rfl ?_
    rw [execHostMemWr, onPort_of_up h, hin, need_true, hway]
    simp only [hnone]
  case birsp =>
    refine Eq.trans (b := execBirsp port line bytes s) rfl ?_
    rw [execBirsp, onPort_of_up h, hm, needSome_some, hin, need_true]
  case add => rw [counterFetchadd_of_host 8 .add value h hb hlo hhi htee, if_pos ⟨rfl, rfl⟩, hadd]
  case bad =>
    rw [counterFetchadd_of_host bytes kind value h hb hlo hhi htee,
      if_neg fun hok => hbad.elim (fun hk => hk hok.1) (fun h8 => h8 hok.2)]
  case own => rw [counterFetchadd_of_device 8 .add value hsrc hb hlo hhi, if_pos rfl, if_pos ⟨rfl, rfl⟩]
  case foreign => rw [counterFetchadd_of_device bytes kind value hsrc hb hlo hhi, if_neg hne]

/-! ## Host memory -/

/-- Making room in the host cache leaves the open requests of the port as they are. -/
theorem CxlPort.room_hreqs (p : CxlPort) (line : Nat) : (p.room line).hreqs = p.hreqs := by
  unfold CxlPort.room
  by_cases hroom : NMap.has p.hcache line = true ∨ (p.hcache.filter fun e => e.1 / 64 % 2048 == line / 64 % 2048).length < 16
  · rw [if_pos hroom]
  · rw [if_neg hroom]
    split <;> rfl

/-- Settles O42: the port is up, and what the request, the snoop or the message names decides. -/
theorem hostMemoryUse : Obligations.HostMemoryUse := by
  unfold Obligations.HostMemoryUse
  refine fun s port h => ⟨fun pasid iova len hfree => ?invalidate, fun pasid iova write m hreq hm => ⟨fun hpa => ?translated, ?refused⟩,
    fun line data ok own hreq => ?response, fun line l hl => ⟨?shared, fun hown => ?exclusive⟩,
    fun stream i hlt hsess hi => ⟨?program, fun hkey => ?go, fun hkey hrun => ?refresh, ?stop⟩,
    fun berth e he htrust => ⟨fun hopen => ?lock, fun hlock hidle => ?start, ?release⟩⟩
  case invalidate =>
    refine Eq.trans (b := execAtsInvalidation port pasid iova len s) rfl ?_
    rw [execAtsInvalidation, onPort_of_up h]
    exact congrArg Host.Outcome.next (if_neg (by rw [hfree]; exact Bool.false_ne_true))
  case translated =>
    refine Eq.trans (b := execAtsCompletion port pasid iova (some hpa) write s) rfl ?_
    simp only [execAtsCompletion, onPort_of_up h, hreq, need_true, hm]
  case refused =>
    refine Eq.trans (b := execAtsCompletion port pasid iova none write s) rfl ?_
    simp only [execAtsCompletion, onPort_of_up h, hreq, need_true, hm]
  case response =>
    have heq : exec (.cxlCacheResponse port line data ok own) s = execCxlCacheResponse port line data ok own s := rfl
    rw [execCxlCacheResponse, onPort_of_up h, hreq, need_true] at heq
    refine ⟨_, heq, _, rfl, ?_, ?_⟩
    · rw [cport_modPort_self h.there.1]
      exact congrArg _ (CxlPort.room_hreqs _ _)
    · rw [cport_modPort_self h.there.1]
      exact ⟨_, NMap.get?_put_self _ _ _, rfl⟩
  case shared =>
    refine Eq.trans (b := execHostCacheSnoop port line false s) rfl ?_
    rw [execHostCacheSnoop, onPort_of_up h, hl, needSome_some]
    rfl
  case exclusive =>
    refine Eq.trans (b := execHostCacheSnoop port line true s) rfl ?_
    rw [execHostCacheSnoop, onPort_of_up h, hl, needSome_some, hown]
    rfl
  case program =>
    refine Eq.trans (b := execIdeKm port stream .program s) rfl ?_
    rw [execIdeKm, onPort_of_up h, decide_eq_true hlt, hsess, hi]
    rfl
  case go =>
    refine Eq.trans (b := execIdeKm port stream .go s) rfl ?_
    rw [execIdeKm, onPort_of_up h, decide_eq_true hlt, hsess, ← hi]
    simp only [hkey]
    rfl
  case refresh =>
    refine Eq.trans (b := execIdeKm port stream .refresh s) rfl ?_
    rw [execIdeKm, onPort_of_up h, decide_eq_true hlt, hsess, ← hi]
    simp only [hkey, hrun]
    rfl
  case stop =>
    refine Eq.trans (b := execIdeKm port stream .stop s) rfl ?_
    rw [execIdeKm, onPort_of_up h, decide_eq_true hlt, hsess]
    rfl
  case lock =>
    refine Eq.trans (b := execTdisp port berth .lock s) rfl ?_
    rw [execTdisp, onPort_of_up h, he, Option.filter_some, if_pos htrust, needSome_some]
    simp only [hopen]
    rfl
  case start =>
    refine Eq.trans (b := execTdisp port berth .start s) rfl ?_
    rw [execTdisp, onPort_of_up h, he, Option.filter_some, if_pos htrust, needSome_some]
    simp only [hlock, hidle]
    rfl
  case release =>
    refine Eq.trans (b := execTdisp port berth .stop s) rfl ?_
    rw [execTdisp, onPort_of_up h, he, Option.filter_some, if_pos htrust, needSome_some]

end Sys2Proof.Machine
end

section
/-! PROOFS. Tiles and transfers (R56 to R151, R349, R353), upkeep of units (R150, R364 to R371) and of DRAM (R216 to R220). -/

namespace Sys2Proof.Machine

/-! ## Records that no bit of a mask reaches -/

theorem Does.mem {w : Nat} {s t : State} (h : Does w s t) (hdram : w.testBit Part.dram.ctorIdx = false)
    (hpages : w.testBit Part.pages.ctorIdx = false) (hstacks : w.testBit Part.stacks.ctorIdx = false) : t.mem = s.mem := by
  have h1 := h.only .dram hdram
  have h2 := h.only .pages hpages
  have h3 := h.only .stacks hstacks
  simp only [Part.same, Prod.mk.injEq] at h1 h2 h3
  cases hs : s.mem
  cases ht : t.mem
  simp_all

theorem Does.basin {w : Nat} {s t : State} (h : Does w s t) (hcaches : w.testBit Part.caches.ctorIdx = false)
    (hdir : w.testBit Part.directory.ctorIdx = false) (hresv : w.testBit Part.reservations.ctorIdx = false)
    (hslices : w.testBit Part.slices.ctorIdx = false) : t.basin = s.basin := by
  have h1 := h.only .caches hcaches
  have h2 := h.only .directory hdir
  have h3 := h.only .reservations hresv
  have h4 := h.only .slices hslices
  simp only [Part.same, Prod.mk.injEq] at h1 h2 h3 h4
  cases hs : s.basin
  cases ht : t.basin
  simp_all

/-! ## Tiles and transfers -/

/-- What an engine that ends its run in drain comes to, the tile no re-run and no fault injected. -/
theorem tileComplete_of_drain {s m : State} {die te : Nat} {r : EngRun} (det : Option Detect) (defect : List (Nat × BitVec 8))
    (hr : s.inDrain die te = some r) (hkind : r.tile.kind ≠ 1) (hinject : r.inject = 0)
    (hm : m = ((s.modEng fun e => { e with eng := NMap.erase e.eng (drnKey die te) }).regionWork die te).countRun r.tile
      (descOf r.tile.desc) false r.uncovered) :
    exec (.tileComplete die te det defect) s = .next (State.tileBoundary (match det with
      | some x => (m.drawn 2).runFailed r te x
      | none => m.runPassed r te defect) die) := by
  have hend : s.endingRun die te = some r := by rw [State.endingRun, hr]
  have hno : (r.inject = 1 ∨ r.inject = 2) = False := eq_false (by omega)
  have hexec : exec (.tileComplete die te det defect) s = execTileComplete die te det defect s := by unfold exec; rfl
  rw [hexec, execTileComplete, hend, needSome_some, hm]
  cases det with
  | none => simp only [hr, Option.isSome_some, if_true, decide_eq_false hkind, Bool.false_eq_true, if_false, hno]
  | some x => simp only [hr, Option.isSome_some, if_true, decide_eq_false hkind, Bool.false_eq_true, if_false]

/-- Settles O23: the engine, the queues and the run decide. -/
theorem tilesMoveOn : Obligations.TilesMoveOn := by
  unfold Obligations.TilesMoveOn
  refine ⟨fun s die te draw u q hup hcalm hq => ⟨fun hidle hacc => ?idle, fun r hr hdrain hacc => ?drain⟩,
    fun s die te defect r m hr hkind hinject hm => ⟨?passed, fun x => ?failed⟩,
    fun s die te u q hup hidle hq => ?rerun, fun s die te det defect u w hup hidle hw => ?copy,
    fun s die te src u q c hup hidle hne hhop hcalm hnone hq hc => ?steal,
    fun s t ticket u x k st x' m hx hrun hfree hthere hon halive hslot hloop => ?transfer⟩
  case idle =>
    have hdrain : (!((descOf q.desc).accInit && (s.inDrain die te).isSome)) = true := by
      rcases hacc with h | h <;> simp [h]
    refine Eq.trans (b := execTileDispatch die te draw u s) rfl ?_
    rw [execTileDispatch, hup, need_true, hcalm, Bool.not_false, need_true, hq, needSome_some, hidle]
    simp only [hdrain, need_true]
  case drain =>
    refine Eq.trans (b := execTileDispatch die te draw u s) rfl ?_
    rw [execTileDispatch, hup, need_true, hcalm, Bool.not_false, need_true, hq, needSome_some, hr]
    simp only [hdrain, hacc]
    rfl
  case passed => exact tileComplete_of_drain none defect hr hkind hinject hm
  case failed => exact tileComplete_of_drain (some x) defect hr hkind hinject hm
  case rerun =>
    refine Eq.trans (b := execReRun die te u s) rfl ?_
    rw [execReRun, hup, hidle, Option.isNone_none, Bool.and_self, need_true, hq, needSome_some]
  case copy =>
    refine Eq.trans (b := execCuppingCopy die te det defect u s) rfl ?_
    rw [execCuppingCopy, hup, hidle, Option.isNone_none, Bool.and_self, need_true, hw, needSome_some]
  case steal =>
    have hfree : (die != src && s.oneHop die src && !s.urgent die te && (s.nextTile die te).isNone) = true := by
      simp [hne, hhop, hcalm, hnone]
    refine Eq.trans (b := execTileSteal die te src u s) rfl ?_
    rw [execTileSteal, hup, hidle, Option.isNone_none, Bool.and_self, need_true, hfree, need_true]
    simp only [hq, needSome_some, hc]
  case transfer =>
    have hboot : (s.pwr.boot != .stopped) = true := by simpa using hon
    refine Eq.trans (b := execTransferComplete t ticket u s) rfl ?_
    rw [execTransferComplete, hx, needSome_some, hrun, hfree, hthere, hboot]
    simp only [halive, hslot, hloop]
    rfl

/-! ## Units -/

/-- A write of a unit's position leaves every part but the registers. -/
theorem setUnitPos_does (s : State) (d : Nat) (core : Bool) (lunit pos : Nat) : Does 0x10 s (s.setUnitPos d core lunit pos) := by
  unfold State.setUnitPos
  exact Does.ite State.setRfld_does State.setRfld_does

/-- The state after a unit's number has moved to the slot at `pos`, the number's old slot key `old`. -/
def State.unitMoved (s : State) (die : Nat) (core : Bool) (lunit pos : Nat) (old : Option Nat) : State :=
  let s := s.setUnitPos die core lunit pos
  if core then s.thawCore die lunit
  else State.regrade (match old, s.slotKey die lunit with
    | some a, some b => s.moveHold a b
    | _, _ => s) die (decide (lunit ≥ 8))

theorem unitMoved_does (s : State) (die : Nat) (core : Bool) (lunit pos : Nat) (old : Option Nat) :
    Does 0x11010 s (s.unitMoved die core lunit pos old) := by
  have hset : Does 0x11010 s (s.setUnitPos die core lunit pos) := Does.refl.trans (setUnitPos_does s die core lunit pos) rfl
  refine Does.ite (hset.trans State.thawCore_does rfl) (Does.trans ?_ State.regrade_does rfl)
  split
  · exact hset.trans State.moveHold_does rfl
  · exact hset

theorem retiring_of_does {w : Nat} {s t : State} (h : Does w s t) (hw : w.testBit Part.retired.ctorIdx = false := by rfl) :
    t.rel.retiring = s.rel.retiring := by
  have hpart := h.only .retired hw
  simp only [Part.same, Prod.mk.injEq] at hpart
  exact hpart.2.symm

/-- What an ended retirement comes to. -/
theorem unitRetirementDone_of_retiring {s : State} {die lunit : Nat} {core : Bool} {q : Nat × Bool × Nat × Nat}
    (hq : (s.rel.retiring.find? fun q => q.1 == die && q.2.1 == core && q.2.2.1 == lunit) = some q)
    (hfree : core = true ∨ s.engineRuns die lunit = false) : exec (.unitRetirementDone die core lunit) s =
      .next ((s.modRel fun r => { r with retiring := r.retiring.filter (· != q) }).unitMoved die core lunit q.2.2.2
        (s.slotKey die lunit)) := by
  have hgo : (core || !s.engineRuns die lunit) = true := by rcases hfree with h | h <;> simp [h]
  refine Eq.trans (b := execUnitRetirementDone die core lunit s) rfl ?_
  rw [execUnitRetirementDone, hq, needSome_some, hgo, need_true]
  rfl

/-- Settles O24: the guards pass, and the answer is read off. -/
theorem unitsUpkeep : Obligations.UnitsUpkeep := by
  unfold Obligations.UnitsUpkeep
  refine ⟨fun s die east hthere hon hidle htest hdue => ?idleStop, fun s die rates hthere => ?slack,
    fun s die core lunit q hq hfree => ?retired, fun s die core slot hthere hen hnone hslot hleast => ?start,
    fun s die x hx => ⟨fun hmore => ?chunk, fun hlast => ?last, ?abandon⟩⟩
  case idleStop =>
    refine Eq.trans (b := execArithIdleStop die east s) rfl ?_
    rw [execArithIdleStop]
    simp only [hthere, hon, hidle, htest, decide_eq_true hdue]
    rfl
  case slack =>
    refine Eq.trans (b := execSlackWindow die rates s) rfl ?_
    rw [execSlackWindow, hthere, need_true]
    rfl
  case retired =>
    refine ⟨_, unitRetirementDone_of_retiring hq hfree, ?_, ?_⟩
    · rw [retiring_of_does (unitMoved_does _ die core lunit q.2.2.2 _)]
      simp [State.modRel]
    · rintro rfl
      rfl
  case start =>
    refine Eq.trans (b := execSelftestStart die core slot s) rfl ?_
    rw [execSelftestStart, hthere, need_true]
    simp only [hen, hnone, hslot, hleast]
    rfl
  case chunk =>
    refine Eq.trans (b := execSelftestChunkEnd die true s) rfl ?_
    rw [execSelftestChunkEnd, hx, needSome_some]
    simp only [decide_eq_false (Nat.not_le.mpr hmore), ge_iff_le]
    rfl
  case last =>
    refine Eq.trans (b := execSelftestChunkEnd die true s) rfl ?_
    rw [execSelftestChunkEnd, hx, needSome_some]
    simp only [decide_eq_true hlast.ge]
    rfl
  case abandon =>
    have hhas : NMap.has s.rel.testing die = true := by rw [NMap.has, hx, Option.isSome_some]
    refine Eq.trans (b := execSelftestAbandon die s) rfl ?_
    rw [execSelftestAbandon, hhas, need_true]

/-! ## DRAM -/

/-- The state that a sample enters, or stays in, by its bounds (Table 8.7). -/
theorem heatNext_of_bounds {old : DramHeat} {q : Int} {up stay : Nat}
    (hup : (if q ≥ 440 then 3 else if q ≥ 420 then 2 else if q ≥ 380 then 1 else 0) = up)
    (hstay : (if q ≥ 428 then 3 else if q ≥ 408 then 2 else if q ≥ 368 then 1 else 0) = stay) :
    heatNext old q = heatOf (Nat.max up (Nat.min old.rank stay)) := by rw [← hup, ← hstay, heatNext]

/-- What the scrub reports of a sector that it read with outcome `o`, and counts. -/
def State.scrubDone (s : State) (sector : Nat) (o : Decode) : State :=
  let wrote (s : State) : State := (s.cnt (homeOf sector) 11 1).pmc (homeOf sector) 0x31 1 none
  match o with
  | .dataFixed p _ => wrote (s.dramReport sector 8 p true)
  | .zerosFixed p => wrote (s.dramReport sector 8 p true)
  | .detected => wrote (s.dramReport sector (if (s.pot (sector / 0x10000)).guard then 0x0A else 9) 0x7F true)
  | _ => s

/-- What the scrub does with a sector that it reads. -/
theorem patrolScrub_of_running {s m : State} {die sector : Nat} (u : Upset) (hthere : s.present die = true)
    (hdram : isDram sector = true) (hhome : homeOf sector = die) (hal : sector % 32 = 0) (hrun : s.stopHeat die = false)
    (hm : m = (s.cnt die 10 1).pmc die 0x30 1 none) :
    exec (.patrolScrub die sector u) s = .next ((m.sectRewrite sector u.dram).2.scrubDone sector (m.sectRewrite sector u.dram).1) := by
  have hsector : (s.present die && isDram sector && homeOf sector == die && sector % 32 == 0) = true := by
    simp [hthere, hdram, hhome, hal]
  refine Eq.trans (b := execPatrolScrub die sector u s) rfl ?_
  simp only [execPatrolScrub, hsector, hrun, Bool.not_false, need_true, ← hm]
  rw [← hhome]
  rfl

theorem contains_filter_ne {α : Type} [BEq α] [LawfulBEq α] (l : List α) (a : α) : (l.filter (· != a)).contains a = false := by
  simp

theorem rowFree_blocked (s : State) (b : Nat × Nat × Nat × Nat × Nat) : (s.rowFree b).mem.blocked = s.mem.blocked.filter (· != b) := rfl

/-- The row that is repaired blocks no more. -/
theorem rowSpared_blocked (s : State) (die chan layer bank row k : Nat) (u : Upset) :
    (s.rowSpared die chan layer bank row k u).mem.blocked.contains (die, chan, layer, bank, row) = false := by
  rw [State.rowSpared, rowFree_blocked, contains_filter_ne]

/-- The row that is repaired is listed last, with its spare. -/
theorem rowSpared_repairs (s : State) (die chan layer bank row k : Nat) (u : Upset) :
    ∃ fixed poisoned, (s.rowSpared die chan layer bank row k u).mem.repairs =
      s.mem.repairs ++ [.mk die (s.siteNum die) chan layer bank row k false s.clk.now fixed poisoned] := by
  have hrow : Part.same s (s.rowRewrite (rowSectors die chan layer bank row) u).2 .stacks := State.rowRewrite_does.only .stacks rfl
  simp only [Part.same, Prod.mk.injEq] at hrow
  obtain ⟨-, -, -, hrepairs, -⟩ := hrow
  rw [State.rowSpared, hrepairs]
  generalize s.rowRewrite (rowSectors die chan layer bank row) u = r
  exact ⟨r.1.1, r.1.2, rfl⟩

/-- Settles O25: the state's tables, and the bounds of the sample, decide. -/
theorem dramUpkeep : Obligations.DramUpkeep := by
  unfold Obligations.DramUpkeep
  refine ⟨fun s die chan layer bank row hthere hc hl hb hr => ?refresh, fun s die q hthere hrun hsorted => ?sample,
    fun old q => ?heat, fun s die idx r hr hdue => ⟨fun huid => ?untracked, fun huid htick => ?transfer⟩,
    fun s die sector u m hthere hdram hhome hal hrun hm => ⟨fun hdata => ?clean, fun p v hfix => ?fixed⟩,
    fun s die chan layer bank row u k hblocked hk => ?row⟩
  case refresh =>
    refine Eq.trans (b := execDramRefresh die chan layer bank row s) rfl ?_
    rw [execDramRefresh, hthere, decide_eq_true ⟨hc, hl, hb, hr⟩]
    rfl
  case sample =>
    have heq : exec (.dramThermalSample die q) s = execDramThermalSample die q s := rfl
    rw [execDramThermalSample, hthere, need_true] at heq
    simp only [hrun, false_and, if_false] at heq
    refine ⟨_, heq, ?_, ?_⟩
    · rw [(Does.ite State.event_does Does.refl).mem rfl rfl rfl]
      exact (NMap.getD_set hsorted _ _ _).trans (if_pos rfl)
    · rw [(Does.ite State.event_does Does.refl).basin rfl rfl rfl rfl]
      rfl
  case heat =>
    refine ⟨fun h => ?_, fun h1 h2 => ?_, fun h1 h2 => ?_, fun h => ?_, fun h => ?_, fun h1 h2 => ?_, fun h1 h2 => ?_⟩
    · rw [heatNext_of_bounds (up := 3) (stay := 3) (by split_ifs <;> omega) (by split_ifs <;> omega)]
      cases old <;> rfl
    · exact heatNext_of_bounds (up := 2) (by split_ifs <;> omega) rfl
    · exact heatNext_of_bounds (up := 1) (by split_ifs <;> omega) rfl
    · rw [heatNext_of_bounds (up := 0) (stay := 0) (by split_ifs <;> omega) (by split_ifs <;> omega)]
      cases old <;> rfl
    · rw [heatNext_of_bounds (stay := 3) rfl (by split_ifs <;> omega)]
      split_ifs <;> rfl
    · rw [heatNext_of_bounds (stay := 2) rfl (by split_ifs <;> omega)]
      rw [if_neg (by omega)]
      split_ifs <;> rfl
    · exact heatNext_of_bounds (up := 0) (stay := 1) (by split_ifs <;> omega) (by split_ifs <;> omega)
  case untracked =>
    refine Eq.trans (b := execStopReadTimeout die idx s) rfl ?_
    rw [execStopReadTimeout, hr, needSome_some, decide_eq_true hdue, need_true]
    exact congrArg Host.Outcome.next (if_pos huid)
  case transfer =>
    have heq : exec (.stopReadTimeout die idx) s = execStopReadTimeout die idx s := rfl
    rw [execStopReadTimeout, hr, needSome_some, decide_eq_true hdue, need_true] at heq
    simp only [huid, htick, if_false] at heq
    refine ⟨_, heq, fun x hx hxuid hxtick => ?_⟩
    obtain ⟨y, -, rfl⟩ := List.mem_map.mp hx
    split at hxuid <;> split at hxtick <;> simp_all
  case clean =>
    rw [patrolScrub_of_running u hthere hdram hhome hal hrun hm, hdata]
    rfl
  case fixed =>
    rw [patrolScrub_of_running u hthere hdram hhome hal hrun hm, hfix, ← hhome]
    rfl
  case row =>
    have heq : exec (.rowRetireDone die chan layer bank row u) s = .next (s.rowSpared die chan layer bank row k u) := by
      refine Eq.trans (b := execRowRetireDone die chan layer bank row u s) rfl ?_
      rw [execRowRetireDone, hblocked, need_true, hk]
    obtain ⟨fixed, poisoned, hrepairs⟩ := rowSpared_repairs s die chan layer bank row k u
    exact ⟨_, heq, rowSpared_blocked s die chan layer bank row k u, _, hrepairs, rfl, rfl, rfl, rfl, rfl, rfl, rfl, rfl⟩

end Sys2Proof.Machine
end

section
/-! PROOFS. Watched control blocks (R127 to R131), and commands that start and end (R134 to R157, R264, R265, R302, R358). -/

namespace Sys2Proof

/-- A look-up that finds something finds an entry. -/
theorem NMap.mem_of_get? {α : Type} {m : NMap α} {k : Nat} {v : α} (h : NMap.get? m k = some v) : (k, v) ∈ m := by
  induction m with
  | nil => simp at h
  | cons e t ih =>
    obtain ⟨a, b⟩ := e
    by_cases ha : a = k
    · simp only [NMap.get?, ha, if_true, Option.some.injEq] at h
      rw [ha, h]
      exact List.mem_cons_self
    · simp only [NMap.get?, ha, if_false] at h
      exact List.mem_cons_of_mem _ (ih h)

theorem NMap.of_get?_keep {α : Type} {m : NMap α} {p : Nat → α → Bool} {k : Nat} {v : α}
    (h : NMap.get? (NMap.keep m p) k = some v) : p k v = true := (List.mem_filter.mp (NMap.mem_of_get? h)).2

end Sys2Proof

namespace Sys2Proof.Machine

/-! ## Watched control blocks -/

/-- A watch of an active context of an active berth takes effect while the lock-keepers take entries. -/
theorem onWatch_of_active {s : State} {ctx : Nat} {x : Context} (hx : s.ctx? ctx = some x) (hstate : x.state = 1)
    (hberth : s.berthActive x.berth = true) (htakes : s.lk.takes = true) (k : Context → Out) : s.onWatch ctx k = k x := by
  rw [State.onWatch, hx, needSome_some, beq_iff_eq.mpr hstate, hberth, htakes]
  rfl

/-- Settles O20: the context is there and active, and the indices read decide. -/
theorem controlBlocksRead : Obligations.ControlBlocksRead := by
  unfold Obligations.ControlBlocksRead
  refine ⟨⟨fun s ctx x hx hstate hberth htakes => ⟨?fire, fun port hport => ?refetch, fun m htries hm => ?taken, fun m htries hm => ?none⟩,
    fun s home hlim htakes hthere => ?backstop⟩, fun s ctx x rd m hx hrd hwait hst => ⟨fun hout => ?outside, fun h1 h2 h3 h4 => ?inside⟩⟩
  case fire => exact Eq.trans (b := execWatchFire ctx s) rfl (onWatch_of_active hx hstate hberth htakes _)
  case refetch =>
    refine Eq.trans (b := execWatchRefetch port ctx s) rfl ((onWatch_of_active hx hstate hberth htakes _).trans ?_)
    rw [beq_iff_eq.mpr hport, need_true]
  case taken =>
    refine Eq.trans (b := execSeqReread ctx s) rfl ((onWatch_of_active hx hstate hberth htakes _).trans ?_)
    rw [bne_iff_ne.mpr htries, need_true, hm]
  case none =>
    refine Eq.trans (b := execSeqReread ctx s) rfl ((onWatch_of_active hx hstate hberth htakes _).trans ?_)
    rw [bne_iff_ne.mpr htries, need_true, hm]
  case backstop =>
    have hup : (s.lk.takes && (home == 72 || s.present home)) = true := by
      rcases hthere with h | h <;> simp [htakes, h]
    refine Eq.trans (b := execWatchBackstop home s) rfl ?_
    rw [execWatchBackstop, decide_eq_true hlim, need_true, hup, need_true]
  case outside =>
    rw [State.ctxRead, hx]
    simp only [hrd, hwait, hst]
    exact if_pos hout
  case inside =>
    have hin : ¬(rdLE rd.bytes 8 8 < x.cqHead ∨ rdLE rd.bytes 8 8 > x.cqTail ∨ rdLE rd.bytes 0 8 < x.sqHead ∨
      rdLE rd.bytes 0 8 > x.sqHead + 2 ^ x.sqLog2) := by omega
    rw [State.ctxRead, hx]
    simp only [hrd, hwait, hst]
    exact if_neg hin

/-! ## Commands -/

theorem onCmd_of_some {s : State} {ctx seq : Nat} {c : Cmd} (h : s.cmd? ctx seq = some c) (k : Cmd → Out) : s.onCmd ctx seq k = k c := by
  rw [State.onCmd, h, needSome_some]

/-- A change that keeps a command's name changes the command found under it. -/
theorem cmd?_modCmd (s : State) (ctx seq : Nat) {f : Cmd → Cmd} (hctx : ∀ c, (f c).ctx = c.ctx) (hseq : ∀ c, (f c).seq = c.seq) :
    (s.modCmd ctx seq f).cmd? ctx seq = (s.cmd? ctx seq).map f := by
  simp only [State.cmd?, State.modCmd, State.modLk]
  induction s.lk.cmds with
  | nil => rfl
  | cons c cs ih =>
    rw [List.map_cons]
    by_cases hc : (c.ctx == ctx && c.seq == seq) = true
    · have hf : ((f c).ctx == ctx && (f c).seq == seq) = true := by rw [hctx, hseq, hc]
      rw [if_pos hc]
      simp only [List.find?_cons, hf, hc, Option.map_some]
    · rw [if_neg hc]
      simp only [List.find?_cons, hc, ih]

/-- Settles O21: the guards pass. -/
theorem commandsStart : Obligations.CommandsStart := by
  unfold Obligations.CommandsStart
  refine ⟨fun s ctx seq c hc => ⟨fun hphase hready => ?ready, fun hop hphase hdies hheld hunits hrank hfree => ?run,
      fun m hop hphase hm => ?signal, fun hop hphase => ?passage,
      fun m hop hphase hdies hheld hunits himages hrank hm hall => ?multi,
      fun groupMax a g hphase hmode ha hg hvalid hberth => ?anchor⟩,
    fun s ctx seq c u h m1 l m2 a b m3 ta tb hc hphase hnone hmode hh hhw hhst hl hlw hlst hlist hta htb => ?prescan,
    fun s ctx seq c reg mk m1 m2 b hc hop hphase hheld hidle hreg hunits himages hrank hfree hmk hrows hwr hb => ?convoy⟩
  case ready =>
    refine Eq.trans (b := execCommandReady ctx seq s) rfl ((onCmd_of_some hc _).trans ?_)
    rw [beq_iff_eq.mpr hphase, hready]
    rfl
  case run =>
    refine Eq.trans (b := execRun ctx seq s) rfl ((onCmd_of_some hc _).trans ?_)
    simp only [hop, hphase, hdies, hheld, hunits, hrank, hfree]
    rfl
  case signal =>
    refine Eq.trans (b := execSignal ctx seq s) rfl ((onCmd_of_some hc _).trans ?_)
    simp only [hop, hphase, hm]
    rfl
  case passage =>
    refine Eq.trans (b := execPassage ctx seq s) rfl ((onCmd_of_some hc _).trans ?_)
    rw [beq_iff_eq.mpr hop, beq_iff_eq.mpr hphase]
    rfl
  case multi =>
    have hguard : (c.opcode == 1 && decide (c.phase = .ready ∨ c.phase = .scheduled) && decide (c.dies.length > 1) &&
        !s.startHeld c) = true := by simp [hop, hphase, hdies, hheld]
    refine Eq.trans (b := execMultiDieSchedule ctx seq s) rfl ((onCmd_of_some hc _).trans ?_)
    simp only [hguard, need_true, hunits, himages, hrank, ← hm, hall, Bool.not_true, Bool.false_eq_true, and_false, if_false]
    rfl
  case anchor =>
    refine Eq.trans (b := execAnchorGeneration ctx seq groupMax s) rfl ((onCmd_of_some hc _).trans ?_)
    rw [beq_iff_eq.mpr hphase, beq_iff_eq.mpr hmode, Bool.and_self, need_true, ha, needSome_some, hg, needSome_some, hvalid,
      beq_iff_eq.mpr hberth, Bool.and_self, need_true]
  case prescan =>
    refine Eq.trans (b := execPrescan ctx seq u s) rfl ((onCmd_of_some hc _).trans ?_)
    rw [beq_iff_eq.mpr hphase, hnone, Option.isNone_none, Bool.and_self, need_true]
    simp only [hh, hhw, hhst, hl, hlw, hlst, hlist, hta, htb, hmode]
    rfl
  case convoy =>
    refine Eq.trans (b := execConvoyStep ctx seq s) rfl ((onCmd_of_some hc _).trans ?_)
    simp only [hop, hphase, hheld, hidle, hreg, needSome_some, hunits, himages, hrank, hfree, hmk, if_neg hrows, hwr, hb]
    rfl

/-! ## Commands that end -/

/-- The state once a pre-empted command's threads and sectors are in its spill record. -/
def State.spilled (s : State) (c : Cmd) (sp : Spill) (ctx seq : Nat) : State :=
  let secs := (c.units.map fun u => s.spillSectors c u.1 u.2).flatten
  let n := sumNat (c.units.map fun u => s.spillCount c u.1 u.2)
  let mine (t : Thread) : Bool := t.ctx == ctx && t.seq == seq && !t.handler
  let sp' : Spill := { sp with threads := NMap.keep s.thr.threads fun _ t => mine t, sectors := secs, count := n }
  let s := s.modLk fun l => { l with spills := l.spills.map fun p => if p.ctx == ctx && p.seq == seq then sp' else p }
  let s := s.modThr fun x => { x with threads := NMap.keep x.threads fun _ t => !mine t }
  s.modCmd ctx seq fun q => { q with
    phase := .preempted, preempts := q.preempts + 1, counts := { q.counts with spillSect := q.counts.spillSect + n } }

/-- The trace records of a command on each of its dies. -/
def State.traceDies (s : State) (c : Cmd) (f : Nat → State → TraceRec) : State :=
  c.dies.foldl (fun (s : State) d => s.trace d (f d s)) s

theorem traceDies_does (s : State) (c : Cmd) (f : Nat → State → TraceRec) : Does 0x200000000 s (s.traceDies c f) :=
  Does.foldl Does.refl fun _ _ h => h.trans State.trace_does rfl

theorem spilled_phase (s : State) (c : Cmd) (sp : Spill) (ctx seq : Nat) :
    ((s.spilled c sp ctx seq).cmd? ctx seq).map (·.phase) = (s.cmd? ctx seq).map fun _ => Phase.preempted := by
  unfold State.spilled
  rw [cmd?_modCmd, Option.map_map]
  · rfl
  · exact fun _ => rfl
  · exact fun _ => rfl

theorem spilled_threads {s : State} {c : Cmd} {sp : Spill} {ctx seq tid : Nat} {t : Thread}
    (h : (s.spilled c sp ctx seq).thread? tid = some t) (hctx : t.ctx = ctx) (hseq : t.seq = seq) : t.handler = true := by
  have hmine : (!(t.ctx == ctx && t.seq == seq && !t.handler)) = true := 
    NMap.of_get?_keep (m := s.thr.threads) (p := fun _ t => !(t.ctx == ctx && t.seq == seq && !t.handler)) h
  simpa [hctx, hseq] using hmine

/-- What the end of a spill comes to. -/
theorem preemptSpillDone_of_closed {s m : State} {ctx seq : Nat} {c : Cmd} {sp : Spill} (hc : s.cmd? ctx seq = some c)
    (hphase : c.phase = .preempting) (htiles : s.tilesRun ctx seq = false)
    (hsp : s.lk.spills.find? (fun p => p.ctx == ctx && p.seq == seq) = some sp) (hm : s.closeL1 c = (true, m)) :
    exec (.preemptSpillDone ctx seq) s = .next (((m.spilled c sp ctx seq).traceDies c fun _ s => { TraceRec.blank 4 with
      ctx := ctx, berth := c.berth, seq := seq, tSpan := s.clk.now - c.preAt }).tryRun sp.forCtx sp.forSeq) := by
  refine Eq.trans (b := execPreemptSpillDone ctx seq s) rfl ((onCmd_of_some hc _).trans ?_)
  rw [beq_iff_eq.mpr hphase, htiles, Bool.not_false, Bool.and_self, need_true, hsp, needSome_some]
  simp only [hm]
  rfl

/-- The state once a command's sectors, threads and transfers are back, and its spill record is gone. -/
def State.restored (s : State) (c : Cmd) (sp : Spill) (ctx seq : Nat) : State :=
  let s := c.units.foldl (fun s u => s.refill c sp u.1 u.2) s
  let s := s.modThr fun x => { x with
    threads := NMap.putAll x.threads (sp.threads.map fun e =>
      (e.1, { e.2 with frozen := s.isRetiring (dieOfThr e.1) true (coreOfThr e.1 % 32) })) }
  let s := s.modEng fun e => { e with
    xfers := e.xfers.map fun x => if x.ctx == ctx && x.seq == seq then { x with paused := false } else x }
  s.modLk fun l => { l with spills := l.spills.filter fun p => !(p.ctx == ctx && p.seq == seq) }

/-- A restored command, which runs or waits for its replay again. -/
def State.resumedCmd (s : State) (sp : Spill) (q : Cmd) : Cmd :=
  { q with
    phase := if q.trigger = 0 then .running else .replayWait
    preemptedNs := q.preemptedNs + (s.clk.now - q.preAt), spillBytes := 0
    counts := { q.counts with spillSect := q.counts.spillSect + sp.count } }

/-- The state once a restored command goes on. -/
def State.resumed (s : State) (sp : Spill) (ctx seq : Nat) : State := s.modCmd ctx seq (s.resumedCmd sp)

theorem resumed_cmd (s : State) (sp : Spill) (ctx seq : Nat) :
    (s.resumed sp ctx seq).cmd? ctx seq = (s.cmd? ctx seq).map (s.resumedCmd sp) :=
  cmd?_modCmd s ctx seq (f := s.resumedCmd sp) (fun _ => rfl) fun _ => rfl

theorem refills_does (s : State) (c : Cmd) (sp : Spill) (l : List (Nat × Nat)) :
    Does 0x3000 s (l.foldl (fun s u => s.refill c sp u.1 u.2) s) :=
  Does.foldl Does.refl fun _ _ h => h.trans State.refill_does rfl

theorem restored_lk (s : State) (c : Cmd) (sp : Spill) (ctx seq : Nat) :
    (s.restored c sp ctx seq).lk = { s.lk with spills := s.lk.spills.filter fun p => !(p.ctx == ctx && p.seq == seq) } := by
  rw [← (refills_does s c sp c.units).lk rfl rfl]
  rfl

/-- A replayed command, its units' fail-over slots put in. -/
def Cmd.replayed (q : Cmd) (rot : List (Nat × Nat)) : Cmd :=
  { q with
    replays := q.replays + 1, trigger := 0, flags := 0, redOrder := false, anchor := none, clamped := false, journal := []
    counts := Counts.zero, noTiles := false, serve := NMap.putAll q.serve rot }

/-- The state before a replay begins, a command's tickets gone. -/
def State.replayed (s : State) (ctx seq : Nat) : State :=
  (s.modThr fun x => { x with tickets := x.tickets.filter fun k => !(k.ctx == ctx && k.seq == seq) }).modCmd ctx seq
    (Cmd.replayed · [])

theorem replayed_cmd (s : State) (ctx seq : Nat) :
    (s.replayed ctx seq).cmd? ctx seq = (s.cmd? ctx seq).map (Cmd.replayed · []) :=
  cmd?_modCmd _ ctx seq (f := (Cmd.replayed · [])) (fun _ => rfl) fun _ => rfl

/-- The state once the command of a name has begun. -/
def State.begun (s : State) (ctx seq : Nat) : State := match s.cmd? ctx seq with
  | some c => s.begin c
  | none => s

theorem begun_of_some {s : State} {ctx seq : Nat} {c : Cmd} (h : s.cmd? ctx seq = some c) : s.begun ctx seq = s.begin c := by
  rw [State.begun, h]

/-- Settles O22: the guards pass, and what the command comes to is read off the state that is left. -/
theorem commandsEnd : Obligations.CommandsEnd := by
  unfold Obligations.CommandsEnd
  intro s ctx seq c hc
  refine ⟨fun hphase hop hheld hrank hunits hne hall hfits => ?preempt, fun sp m hphase htiles hsp hm => ?spilled,
    fun sp hsp hphase hgood htakes hrank hfree htrig => ?restore,
    fun m1 snap m2 m3 hphase hwork hm1 hm2 hm3 hop => ?complete,
    fun hgood hholds hroll hdur hdue => ?expire, fun m b hphase hwork hcheck hrep hop hjour hdies hm hb => ?replay⟩
  case preempt =>
    have hguard : (decide (c.phase = .ready ∨ c.phase = .scheduled) && (c.opcode == 1 || c.opcode == 0x11) && !s.startHeld c &&
        !s.outranked c && !s.unitMissing c) = true := by simp [hphase, hop, hheld, hrank, hunits]
    have hvictims : (!(s.holders c).isEmpty && (s.holders c).all fun v => decide (v.phase = .running ∨ v.phase = .replayWait) &&
        decide (v.prio < c.prio) && (c.berth == 0 || v.berth == c.berth)) = true := by
      simpa [hne, List.all_eq_true, and_assoc] using hall
    refine Eq.trans (b := execPreempt ctx seq s) rfl ((onCmd_of_some hc _).trans ?_)
    simp only [hguard, hvictims, need_true]
    exact congrArg Host.Outcome.next (if_pos hfits)
  case spilled =>
    refine ⟨_, preemptSpillDone_of_closed hc hphase htiles hsp hm, _, rfl, ?_, fun tid t ht => ?_⟩
    · rw [State.cmd?, (traceDies_does _ c _).lk rfl rfl]
      exact spilled_phase m c sp ctx seq
    · rw [State.thread?, (traceDies_does _ c _).thr rfl rfl] at ht
      exact spilled_threads ht
  case restore =>
    refine ⟨((s.restored c sp ctx seq).resumed sp ctx seq).traceDies c fun _ s => { TraceRec.blank 5 with
      ctx := ctx, berth := c.berth, seq := seq, tSpan := s.clk.now - c.preAt }, ?_, ?_, ?_⟩
    · refine Eq.trans (b := execRestore ctx seq s) rfl ((onCmd_of_some hc _).trans ?_)
      simp only [hsp, needSome_some, hphase, hgood, htakes, hrank, hfree]
      rfl
    · have hcmd : (s.restored c sp ctx seq).cmd? ctx seq = some c := by rw [State.cmd?, restored_lk]; exact hc
      rw [State.cmd?, (traceDies_does _ c _).lk rfl rfl]
      refine (congrArg _ (resumed_cmd _ sp ctx seq)).trans ?_
      rw [hcmd, Option.map_some, Option.map_some, State.resumedCmd, if_pos htrig]
    · rw [(traceDies_does _ c _).lk rfl rfl]
      have hspills : ((s.restored c sp ctx seq).resumed sp ctx seq).lk.spills =
          s.lk.spills.filter fun p => !(p.ctx == ctx && p.seq == seq) := congrArg LockSt.spills (restored_lk s c sp ctx seq)
      rw [hspills, List.find?_eq_none]
      intro p hp
      rw [Bool.not_eq_true, ← Bool.not_eq_true']
      exact (List.mem_filter.mp hp).2
  case complete =>
    have hguard : (decide (c.phase = .running ∨ c.phase = .stopping ∨ (c.phase = .preempted ∧ c.failed)) &&
        !s.workLeft ctx seq) = true := by rcases hphase with h | h <;> simp [h, hwork]
    refine Eq.trans (b := execCommandComplete ctx seq s) rfl ((onCmd_of_some hc _).trans ?_)
    simp only [hguard, need_true, hm1, hm2, hm3, if_neg hop]
    rfl
  case expire =>
    have hpsg : (s.bth.roll.find? fun p => p.ctx == ctx && p.seq == seq && p.joined && !p.ended) = none := by
      refine List.find?_eq_none.mpr fun p hp h => hroll p hp ?_
      simp only [Bool.and_eq_true, beq_iff_eq] at h
      exact h.1.1
    have hnotRoll : c.phase ≠ .roll := by
      intro h
      rw [h] at hholds
      exact absurd hholds Bool.false_ne_true
    refine Eq.trans (b := execMaxDurExpire ctx seq s) rfl ((onCmd_of_some hc _).trans ?_)
    simp only [hpsg, hgood, if_neg hnotRoll, hholds, bne_iff_ne.mpr hdur, decide_eq_true hdue]
    rfl
  case replay =>
    have hcmd : ((m.replayNotes c).replayed ctx seq).cmd? ctx seq = some (b.replayed []) := by
      rw [replayed_cmd, hb, Option.map_some]
    refine ⟨((m.replayNotes c).replayed ctx seq).begin (b.replayed []), ?_, _, _, rfl, hcmd, rfl, rfl, rfl, rfl⟩
    have hguard : (c.phase == .replayWait && !s.workLeft ctx seq && (c.check || s.repaired c)) = true := by
      simp [hphase, hwork, hrep]
    have hnotStep : ¬(c.opcode = 0x11 ∧ c.journal.length > 65536) := fun h => by rw [hop] at h; exact absurd h.1 (by decide)
    refine Eq.trans (b := execReplay ctx seq s) rfl ((onCmd_of_some hc _).trans ?_)
    rw [hguard, need_true, if_neg hnotStep]
    simp only [hcheck, Bool.false_eq_true, if_false, needSome_some, hdies, need_true, hm, hjour]
    refine Eq.trans (b := .next (((m.replayNotes c).replayed ctx seq).begun ctx seq)) rfl ?_
    rw [begun_of_some hcmd]

end Sys2Proof.Machine
end

section
/-! PROOFS. What an instruction that issues comes to; tickets read (R103), fences (R107 to R111) and counters (R120). -/

namespace Sys2Proof

theorem NMap.get?_alter_self {α : Type} {m : NMap α} {k : Nat} {v : α} (h : NMap.get? m k = some v) (f : α → α) :
    NMap.get? (NMap.alter m k f) k = some (f v) := by
  induction m with
  | nil => simp at h
  | cons e t ih =>
    obtain ⟨a, b⟩ := e
    by_cases ha : a = k
    · simp_all [NMap.get?, NMap.alter]
    · simp_all [NMap.get?, NMap.alter]

theorem NMap.get?_alter_ne {α : Type} (m : NMap α) {k j : Nat} (hne : j ≠ k) (f : α → α) :
    NMap.get? (NMap.alter m k f) j = NMap.get? m j := by
  induction m with
  | nil => rfl
  | cons e t ih =>
    obtain ⟨a, b⟩ := e
    by_cases ha : a = k
    · simp [NMap.get?, NMap.alter, ha, hne.symm]
    · by_cases haj : a = j <;> simp_all [NMap.get?, NMap.alter]

theorem mem_insertByFront {α : Type} {key : α → Nat} {a x : α} (l : List α) :
    a ∈ sortBy.insertByFront key x l ↔ a = x ∨ a ∈ l := by
  induction l with
  | nil => simp [sortBy.insertByFront]
  | cons b t ih =>
    by_cases hb : key x ≤ key b
    · simp [sortBy.insertByFront, hb]
    · simp [sortBy.insertByFront, hb, ih, or_left_comm]

theorem mem_sortBy {α : Type} {key : α → Nat} {a : α} (l : List α) : a ∈ sortBy key l ↔ a ∈ l := by
  induction l with
  | nil => simp [sortBy]
  | cons b t ih =>
    have hcons : sortBy key (b :: t) = sortBy.insertByFront key b (sortBy key t) := rfl
    rw [hcons, mem_insertByFront, ih, List.mem_cons]

end Sys2Proof

namespace Sys2Proof.Machine

/-! ## Threads -/

theorem thread?_modThread_self {s : State} {tid : Nat} {t : Thread} (h : s.thread? tid = some t) (f : Thread → Thread) :
    (s.modThread tid f).thread? tid = some (f t) := NMap.get?_alter_self h f

theorem thread?_modThread_ne (s : State) {tid j : Nat} (hne : j ≠ tid) (f : Thread → Thread) :
    (s.modThread tid f).thread? j = s.thread? j := NMap.get?_alter_ne _ hne f

theorem Does.thread? {w : Nat} {s t : State} (h : Does w s t) (tid : Nat) (hw : w.testBit Part.threads.ctorIdx = false := by rfl) :
    t.thread? tid = s.thread? tid := by
  have hpart := h.only .threads hw
  simp only [Part.same, Prod.mk.injEq] at hpart
  rw [State.thread?, State.thread?, hpart.1]

theorem Does.tickets {w : Nat} {s t : State} (h : Does w s t) (hw : w.testBit Part.tickets.ctorIdx = false := by rfl) :
    t.thr.tickets = s.thr.tickets := (h.only .tickets hw).symm

theorem Does.ctxs {w : Nat} {s t : State} (h : Does w s t) (hw : w.testBit Part.contexts.ctorIdx = false := by rfl) :
    t.lk.ctxs = s.lk.ctxs := (h.only .contexts hw).symm

theorem Does.ctx? {w : Nat} {s t : State} (h : Does w s t) (n : Nat) (hw : w.testBit Part.contexts.ctorIdx = false := by rfl) :
    t.ctx? n = s.ctx? n := by rw [State.ctx?, State.ctx?, h.ctxs hw]

/-- An instruction that retires changes its thread as it says, and moves it on. -/
theorem thread?_retire {s : State} {tid : Nat} {t : Thread} (h : s.thread? tid = some t) (len : Nat) (f : Thread → Thread) :
    (s.retire tid len f).thread? tid = some ((f t).retire len) := by
  have hcount : (s.countIssue tid t).thread? tid = some t := (State.countIssue_does.thread? tid).trans h
  have hret : s.retire tid len f = (s.countIssue tid t).modThread tid fun t => (f t).retire len := by
    rw [State.retire, h]
  rw [hret]
  exact thread?_modThread_self hcount _

@[simp] theorem retire_basin (s : State) (tid len : Nat) (f : Thread → Thread) : (s.retire tid len f).basin = s.basin :=
  State.retire_does.basin rfl rfl rfl rfl

@[simp] theorem retire_mem (s : State) (tid len : Nat) (f : Thread → Thread) : (s.retire tid len f).mem = s.mem :=
  State.retire_does.mem rfl rfl rfl

theorem Thread.wait_setReg (t : Thread) (r : BitVec 5) (w : Word) : (t.setReg r w).wait = t.wait := by
  unfold Thread.setReg
  split <;> rfl

/-- A thread that does not wait is as it was when its wait is cleared. -/
theorem Thread.clear_wait {t : Thread} (h : t.wait = .none) : { t with wait := .none } = t := by
  cases t
  simp_all

/-! ## Instructions that issue -/

/-- What charging the remote bytes of an instruction to its command leaves as it was. -/
structure Charged (e n : State) : Prop where
  thr : n.thr = e.thr
  basin : n.basin = e.basin
  mem : n.mem = e.mem
  eng : n.eng = e.eng
  bth : n.bth = e.bth
  ctxs : n.lk.ctxs = e.lk.ctxs

theorem charged_chargeRemote (e s : State) (d ctx seq : Nat) : Charged e (e.chargeRemote s d ctx seq) := by
  rw [State.chargeRemote]
  by_cases h : (e.reg (dieBase d + 0x7800 + 12 * 8)).toNat - (s.reg (dieBase d + 0x7800 + 12 * 8)).toNat = 0
  · rw [if_pos h]
    exact ⟨rfl, rfl, rfl, rfl, rfl, rfl⟩
  · rw [if_neg h]
    exact ⟨rfl, rfl, rfl, rfl, rfl, rfl⟩

theorem Charged.thread? {e n : State} (h : Charged e n) (tid : Nat) : n.thread? tid = e.thread? tid := by
  rw [State.thread?, State.thread?, h.thr]

theorem Charged.berth? {e n : State} (h : Charged e n) (b : Nat) : n.berth? b = e.berth? b := by
  rw [State.berth?, State.berth?, h.bth]

/-- An instruction that retires leaves the basin and memory as they were before it retired. -/
theorem Charged.retired {m n : State} {tid len : Nat} {t : Thread} {f : Thread → Thread} (hn : Charged (m.retire tid len f) n)
    (h : m.thread? tid = some t) : n.thread? tid = some ((f t).retire len) ∧ n.basin = m.basin ∧ n.mem = m.mem :=
  ⟨(hn.thread? tid).trans (thread?_retire h len f), hn.basin.trans (retire_basin m tid len f), hn.mem.trans (retire_mem m tid len f)⟩

section
variable {s r : State} {tid len : Nat} {t : Thread} (h : Issues s tid len t r)
include h

/-- The fetch leaves the parts that its mask does not name as they were when the instruction issued. -/
theorem Issues.does : Does 0x498190bf8 s r := by
  rw [h.state]
  exact (Does.refl.trans State.modThread_does rfl).trans State.ifetchAll_does rfl

theorem Issues.wait : t.wait = .none := by
  obtain ⟨t0, -, hwait, -, rfl⟩ := h.ready
  exact hwait

theorem Issues.thread? : r.thread? tid = some t := by
  obtain ⟨t0, ht0, -, -, -⟩ := h.ready
  rw [h.state]
  exact (State.ifetchAll_does.thread? tid).trans (thread?_modThread_self ht0 _)

theorem Issues.issue (eff : Thread → State → State) :
    s.issue tid len eff = .next ((eff t r).chargeRemote (s.modThread tid fun _ => t) (dieOfThr tid) t.ctx t.seq) := by
  obtain ⟨t0, ht0, hwait, hfree, ht⟩ := h.ready
  obtain ⟨hup, hrun⟩ := h.up
  have hfetch : (s.modThread tid fun _ => t).ifetchAll tid t len = (.ok [], r) := Prod.ext h.fetched h.state.symm
  have hready : (t0.wait == .none && !t0.frozen) = true := by simp [hwait, hfree]
  rw [State.issue, ht0, needSome_some, hready, need_true, hup, hrun, Bool.and_self, need_true]
  simp only [← ht, hfetch]
  rw [ht]

/-- An instruction gives what its effect on the state after the fetch gives. -/
theorem Issues.gives {i : Instr} {eff : Thread → State → State} {P : State → Prop} (hi : exec i s = s.issue tid len eff)
    (hP : ∀ n, Charged (eff t r) n → P n) : Gives i s P :=
  ⟨_, hi.trans (h.issue eff), hP _ (charged_chargeRemote _ _ _ _ _)⟩

end

@[simp] theorem legal_true (s : State) (tid : Nat) (k : State → State) : s.legal tid true k = k s := rfl

/-! ## Tickets -/

theorem ticketResult_of_tickets {s r : State} (h : r.thr.tickets = s.thr.tickets) (uid upTo : Nat) :
    (r.ticketResult uid upTo).1 = (s.ticketResult uid upTo).1 := by simp only [State.ticketResult, h]

theorem ticketsDone_of_tickets {s r : State} (h : r.thr.tickets = s.thr.tickets) (uid upTo : Nat) :
    r.ticketsDone uid upTo = s.ticketsDone uid upTo := by simp only [State.ticketsDone, State.openTickets, h]

/-- Covered tickets that have all completed are reported and gone. -/
theorem ticketResult_tickets {s : State} {uid upTo : Nat} (h : s.ticketsDone uid upTo = true) :
    (s.ticketResult uid upTo).2.thr.tickets = s.thr.tickets.filter fun k => !(k.uid == uid && decide (k.num ≤ upTo)) := by
  have hpending : ((sortBy (fun k => k.num)
      (s.thr.tickets.filter fun k => k.uid == uid && decide (k.num ≤ upTo) && !k.reported)).any fun k => !k.done) = false := by
    refine List.any_eq_false.mpr fun k hk hopen => ?_
    obtain ⟨hmem, hcov⟩ := List.mem_filter.mp ((mem_sortBy _).mp hk)
    obtain ⟨⟨huid, hnum⟩, -⟩ : ((k.uid == uid) = true ∧ k.num ≤ upTo) ∧ _ := by simpa using hcov
    have hlater := List.all_eq_true.mp h k (List.mem_filter.mpr ⟨hmem, by simp_all⟩)
    exact absurd (of_decide_eq_true hlater) (Nat.not_lt.mpr hnum)
  rw [State.ticketResult, hpending]
  rfl

/-- A thread whose wait for tickets ends has their result, and no wait. -/
theorem ticketEnd_thread {s : State} {tid : Nat} {t x : Thread} (h : s.thread? tid = some x) (rd : BitVec 5) (upTo : Nat) (acq : Bool) :
    (s.ticketEnd tid t rd upTo acq).thread? tid =
      some (({ x.setReg rd (s.ticketResult t.uid upTo).1 with wait := .none }).retire 4) := by
  have hres : (s.ticketResult t.uid upTo).2.thread? tid = some x := (State.ticketResult_does.thread? tid).trans h
  have hret := thread?_retire hres 4 fun t' => { t'.setReg rd (s.ticketResult t.uid upTo).1 with wait := .none }
  cases acq with
  | false => exact hret
  | true => exact (State.acqAll_does.thread? tid).trans hret

theorem ticketEnd_tickets (s : State) (tid : Nat) (t : Thread) (rd : BitVec 5) (upTo : Nat) (acq : Bool) :
    (s.ticketEnd tid t rd upTo acq).thr.tickets = (s.ticketResult t.uid upTo).2.thr.tickets := by
  have hret : ((s.ticketResult t.uid upTo).2.retire tid 4 fun t' =>
      { t'.setReg rd (s.ticketResult t.uid upTo).1 with wait := .none }).thr.tickets = (s.ticketResult t.uid upTo).2.thr.tickets :=
    State.retire_does.tickets
  cases acq with
  | false => exact hret
  | true => exact State.acqAll_does.tickets.trans hret

/-- Settles O10: the result word goes to rd, and the covered tickets are gone once they have all completed. -/
theorem ticketsRead : Obligations.TicketsRead := by
  unfold Obligations.TicketsRead
  refine ⟨fun s tid t r rd rs1 h => ?poll, fun s tid t r rd rs1 h hn hdone i hi => ?wait,
    fun s tid t rd upTo acq ht hfree hwait hdone => ?resume⟩
  case poll =>
    refine h.gives (eff := fun th s => s.opTpoll tid th rd rs1 0) (by unfold exec; rfl) fun n hn => ?_
    rw [hn.thread?, State.opTpoll, beq_self_eq_true, legal_true, ← ticketResult_of_tickets h.does.tickets]
    exact thread?_retire ((State.ticketResult_does.thread? tid).trans h.thread?) 4 _
  case wait =>
    have hop : ∃ acq, exec i s = s.issue tid 4 fun th s => s.opTwait tid th rd rs1 0 acq := by
      rcases hi with rfl | rfl
      · exact ⟨false, by unfold exec; rfl⟩
      · exact ⟨true, by unfold exec; rfl⟩
    obtain ⟨acq, hexec⟩ := hop
    have hdone' : r.ticketsDone t.uid (Nat.min (t.reg rs1).toNat t.kticket) = true :=
      (ticketsDone_of_tickets h.does.tickets _ _).trans hdone
    refine h.gives hexec fun n hcharged => ?_
    have heff : r.opTwait tid t rd rs1 0 acq = r.ticketEnd tid t rd (Nat.min (t.reg rs1).toNat t.kticket) acq := by
      rw [State.opTwait, beq_self_eq_true, legal_true, if_neg hn, if_pos hdone']
    refine ⟨?_, fun k hk huid => ?_⟩
    · rw [hcharged.thread?, heff, ticketEnd_thread h.thread?, ticketResult_of_tickets h.does.tickets,
        Thread.clear_wait ((Thread.wait_setReg _ _ _).trans h.wait)]
    · rw [hcharged.thr, heff, ticketEnd_tickets, ticketResult_tickets hdone'] at hk
      simpa [huid] using (List.mem_filter.mp hk).2
  case resume =>
    refine ⟨s.ticketEnd tid t rd upTo acq, ?_, ticketEnd_thread ht rd upTo acq⟩
    refine Eq.trans (b := execTwaitResume tid s) rfl ?_
    rw [execTwaitResume, ht, needSome_some, hfree, Bool.not_false, need_true, hwait]
    simp only [hdone, need_true]

/-! ## Fences -/

/-- A fence whose write-backs are all accepted only writes back. -/
theorem fenceRel_does_of_true {s m : State} {tid : Nat} {t : Thread} {ranges : List (Nat × Nat)}
    (h : s.fenceRel tid t ranges = (true, m)) : Does 0x980003f8 s m := by
  have hfold : Does 0x980003f8 s (ranges.foldl (fun (a : Bool × State) r =>
      let (ok, s) := a.2.release (coreOfThr tid) r.1 r.2
      (a.1 && ok, s)) (true, s)).2 :=
    foldl_keeps (fun a : Bool × State => Does 0x980003f8 s a.2) Does.refl fun a r ha => ha.trans State.release_does rfl
  rw [State.fenceRel] at h
  split at h
  next ok n hn =>
    rw [hn] at hfold
    split at h
    · cases h
    · split at h
      · cases h
      · cases h
        exact hfold

/-- What an acquire leaves of the basin depends on the basin alone. -/
theorem acquire_basin {s r : State} (h : r.basin = s.basin) (core lo hi : Nat) :
    (r.acquire core lo hi).basin = (s.acquire core lo hi).basin := by
  simp only [State.acquire, State.farInvalidate, State.l1Invalidate, State.modBasin, h]

/-- An acquire over all memory leaves its core no clean byte. -/
theorem acquire_all_l1 {s : State} {core k : Nat} {c : CByte} (hk : NMap.get? (s.acquire core 0 allMem).basin.l1 k = some c)
    (hcore : keyUnit k = core) : c.dirty = true := by
  have hl1 : (s.acquire core 0 allMem).basin.l1 = (s.l1Invalidate core 0 allMem).basin.l1 := rfl
  rw [hl1] at hk
  have hkept := NMap.of_get?_keep (m := s.basin.l1) (p := fun k c => !(keyUnit k == core && !c.dirty &&
    decide (0 ≤ lineOf (keyAddr k) + 127) && decide (lineOf (keyAddr k) < allMem))) hk
  have hin : lineOf (keyAddr k) < allMem := Nat.lt_of_le_of_lt (Nat.sub_le _ _) (Nat.mod_lt _ (by decide))
  simpa [hcore, hin] using hkept

/-- Settles O12: the releases leave the thread, then the acquires and the retirement follow. -/
theorem fencesComplete : Obligations.FencesComplete := by
  unfold Obligations.FencesComplete
  refine ⟨fun s tid t r rs1 rs2 h => ?acq, fun s tid t r h => ?acqAll,
    fun s tid t r rs1 rs2 m h hm => ⟨?rel, ?full⟩, fun s tid t r h => ?fenceI⟩
  case acq =>
    refine h.gives (eff := fun th s => s.opFence tid th 0 rs1 rs2 false true) (by unfold exec; rfl) fun n hn => ?_
    have heff : r.opFence tid t 0 rs1 rs2 false true =
      ((r.fenceRanges tid t rs1 rs2).2.fenceAcq tid (r.fenceRanges tid t rs1 rs2).1).retire tid 4 id := rfl
    refine ⟨?_, by rw [hn.basin, heff, retire_basin]⟩
    rw [hn.thread?, heff]
    exact thread?_retire ((State.fenceAcq_does.thread? tid).trans ((State.fenceRanges_does.thread? tid).trans h.thread?)) 4 id
  case acqAll =>
    refine h.gives (eff := fun th s => s.opFence tid th 0 0 0 false true) (by unfold exec; rfl) fun n hn k c hk hcore => ?_
    have heff : r.opFence tid t 0 0 0 false true = (r.acquire (coreOfThr tid) 0 allMem).retire tid 4 id := rfl
    rw [hn.basin, heff, retire_basin] at hk
    exact acquire_all_l1 hk hcore
  case rel =>
    refine h.gives (eff := fun th s => s.opFence tid th 0 rs1 rs2 true false) (by unfold exec; rfl) fun n hn => ?_
    have heff : r.opFence tid t 0 rs1 rs2 true false = m.retire tid 4 id := by
      rw [State.opFence, beq_self_eq_true, legal_true]
      simp only [if_true, hm]
      rfl
    refine ⟨?_, by rw [hn.basin, heff, retire_basin]⟩
    rw [hn.thread?, heff]
    exact thread?_retire (((fenceRel_does_of_true hm).thread? tid).trans ((State.fenceRanges_does.thread? tid).trans h.thread?)) 4 id
  case full =>
    refine h.gives (eff := fun th s => s.opFence tid th 0 rs1 rs2 true true) (by unfold exec; rfl) fun n hn => ?_
    have heff : r.opFence tid t 0 rs1 rs2 true true = (m.fenceAcq tid (r.fenceRanges tid t rs1 rs2).1).retire tid 4 id := by
      rw [State.opFence, beq_self_eq_true, legal_true]
      simp only [if_true, hm]
      rfl
    refine ⟨?_, by rw [hn.basin, heff, retire_basin]⟩
    rw [hn.thread?, heff]
    exact thread?_retire ((State.fenceAcq_does.thread? tid).trans
      (((fenceRel_does_of_true hm).thread? tid).trans ((State.fenceRanges_does.thread? tid).trans h.thread?))) 4 id
  case fenceI =>
    refine h.gives (eff := fun _ s => (s.icacheDrop (coreOfThr tid)).retire tid 4 id) (by unfold exec; rfl) fun n hn => ⟨?_, fun k hk => ?_⟩
    · rw [hn.thread?]
      exact thread?_retire ((State.icacheDrop_does.thread? tid).trans h.thread?) 4 id
    · rw [hn.basin, retire_basin]
      by_contra hsome
      obtain ⟨b, hb⟩ := Option.ne_none_iff_exists'.mp hsome
      have hkept := NMap.of_get?_keep (m := r.basin.icache) (p := fun k _ => keyUnit k != coreOfThr tid) hb
      exact absurd hk (bne_iff_ne.mp hkept)

/-! ## Completion counters -/

/-- A counter of a context of the thread's berth is reached. -/
theorem withCtr_of_own {s : State} {tid : Nat} {t : Thread} {w : Word} {ctx j : Nat} {c : Context} (hop : ctrOperand w = some (ctx, j))
    (hc : s.ctx? ctx = some c) (hberth : c.berth = t.berth) (k : Nat → Nat → Word → State → State) :
    s.withCtr tid t w k = k ctx j (c.ctr j) s := by
  rw [State.withCtr, hop]
  simp only [hc, if_pos hberth]

theorem ctrOperand_lt {w : Word} {ctx j : Nat} (h : ctrOperand w = some (ctx, j)) : j < 16 := by
  rw [ctrOperand] at h
  split at h
  · cases h
  · rw [Option.some.injEq, Prod.mk.injEq] at h
    rw [← h.2]
    exact Nat.mod_lt _ (by decide)

theorem ctx?_modCtx_self {s : State} {n : Nat} {c : Context} (h : s.ctx? n = some c) (f : Context → Context) :
    (s.modCtx n f).ctx? n = some (f c) := NMap.get?_alter_self h f

/-- An addition to a counter is what its next read gives. -/
theorem ctr_addCtr {s : State} {ctx j : Nat} {c : Context} (h : s.ctx? ctx = some c) (hj : j < 16) (inc : Word) :
    ((s.addCtr ctx j inc).ctx? ctx).map (·.ctr j) = some (c.ctr j + inc) := by
  have hadd : s.addCtr ctx j inc =
      (s.modCtx ctx fun c' => { c' with ctrs := c'.ctrs.setIfInBounds j (c.ctr j + inc) }).evalWaits ctx j (c.ctr j + inc) := by
    rw [State.addCtr, h]
  rw [hadd, State.evalWaits_does.ctx?, ctx?_modCtx_self h, Option.map_some]
  exact congrArg some (getD_setIfInBounds_self _ _ _ hj)

/-- The end of a wait gives the counter's value. -/
theorem ctrEnd_thread {s : State} {tid : Nat} {t : Thread} (h : s.thread? tid = some t) (rd : BitVec 5) (v : Word) :
    (s.ctrEnd tid rd v).thread? tid = some (({ t.setReg rd v with wait := .none }).retire 4) :=
  thread?_retire ((State.acqAll_does.thread? tid).trans h) 4 _

/-- Settles O13: the counter is one of the thread's berth, and its value decides. -/
theorem countersRead : Obligations.CountersRead := by
  unfold Obligations.CountersRead
  refine ⟨fun s tid t r rd rs1 ctx j c h hop hc hberth => ?read, fun s tid t r rd rs1 rs2 ctx j c m h hop hc hberth hm => ?add,
    fun s tid t r rd rs1 rs2 ctx j c h hop hc hberth => ?wait, fun s tid t rd ctx j thr c ht hfree hwait hc hmet => ?resume⟩
  case read =>
    have hc' : r.ctx? ctx = some c := (h.does.ctx? ctx).trans hc
    refine h.gives (eff := fun th s => s.legal tid ((0 : BitVec 5) == 0) fun s => s.withCtr tid th (th.reg rs1) fun _ _ v s =>
      s.retire tid 4 fun th => th.setReg rd v) (by unfold exec; rfl) fun n hn => ?_
    rw [hn.thread?, beq_self_eq_true, legal_true, withCtr_of_own hop hc' hberth]
    exact thread?_retire h.thread? 4 _
  case add =>
    have hc' : r.ctx? ctx = some c := (h.does.ctx? ctx).trans hc
    refine h.gives (eff := fun th s => s.withCtr tid th (th.reg rs1) fun ctx j v s =>
      let (ok, s) := s.fenceRel tid th [(0, allMem)]
      if ok then (s.addCtr ctx j (th.reg rs2)).retire tid 4 fun th => th.setReg rd v else s) (by unfold exec; rfl) fun n hn => ?_
    have hrel := fenceRel_does_of_true hm
    rw [withCtr_of_own hop hc' hberth, hm] at hn
    refine ⟨?_, ?_⟩
    · rw [hn.thread?]
      exact thread?_retire ((State.addCtr_does.thread? tid).trans ((hrel.thread? tid).trans h.thread?)) 4 _
    · rw [State.ctx?, hn.ctxs, ← ctr_addCtr ((hrel.ctx? ctx).trans hc') (ctrOperand_lt hop)]
      exact congrArg (fun l => (NMap.get? l ctx).map (·.ctr j)) State.retire_does.ctxs
  case wait =>
    have hc' : r.ctx? ctx = some c := (h.does.ctx? ctx).trans hc
    refine h.gives (eff := fun th s => s.withCtr tid th (th.reg rs1) fun ctx j v s =>
      if (th.reg rs2).toNat ≤ v.toNat then s.ctrEnd tid rd v
      else s.modThread tid fun th => { th with wait := .counter rd ctx j (th.reg rs2) }) (by unfold exec; rfl) fun n hn => ?_
    rw [withCtr_of_own hop hc' hberth] at hn
    rw [hn.thread?]
    by_cases hmet : (t.reg rs2).toNat ≤ (c.ctr j).toNat
    · rw [if_pos hmet, if_pos hmet, ctrEnd_thread h.thread?, Thread.clear_wait ((Thread.wait_setReg _ _ _).trans h.wait)]
    · rw [if_neg hmet, if_neg hmet]
      exact thread?_modThread_self h.thread? _
  case resume =>
    refine ⟨s.ctrEnd tid rd (c.ctr j), ?_, ctrEnd_thread ht rd _⟩
    refine Eq.trans (b := execCtrwaitResume tid s) rfl ?_
    rw [execCtrwaitResume, ht, needSome_some, hfree, Bool.not_false, need_true, hwait]
    simp only [hc, needSome_some, decide_eq_true hmet, need_true]

end Sys2Proof.Machine
end

section
/-! PROOFS. Tickets issued (R101 to R106), loads, stores and atomics (R91 to R96, R114 to R116), range operations (R112, R113), and
moorings and ends of threads (R117 to R119, R124). -/

namespace Sys2Proof.Machine

/-! ## Records that no bit of a mask reaches -/

theorem Does.eng {w : Nat} {s t : State} (h : Does w s t) (hholds : w.testBit Part.holds.ctorIdx = false)
    (htiles : w.testBit Part.tiles.ctorIdx = false) (hxfers : w.testBit Part.transfers.ctorIdx = false)
    (hfin : w.testBit Part.finishing.ctorIdx = false) : t.eng = s.eng := by
  have h1 := h.only .holds hholds
  have h2 := h.only .tiles htiles
  have h3 := h.only .transfers hxfers
  have h4 := h.only .finishing hfin
  simp only [Part.same, Prod.mk.injEq] at h1 h2 h3 h4
  cases hs : s.eng
  cases ht : t.eng
  simp_all

theorem Does.bth {w : Nat} {s t : State} (h : Does w s t) (hberths : w.testBit Part.berths.ctorIdx = false)
    (hcargo : w.testBit Part.cargo.ctorIdx = false) (hconvoy : w.testBit Part.convoy.ctorIdx = false) : t.bth = s.bth := by
  have h1 := h.only .berths hberths
  have h2 := h.only .cargo hcargo
  have h3 := h.only .convoy hconvoy
  simp only [Part.same, Prod.mk.injEq] at h1 h2 h3
  cases hs : s.bth
  cases ht : t.bth
  simp_all

@[simp] theorem retire_eng (s : State) (tid len : Nat) (f : Thread → Thread) : (s.retire tid len f).eng = s.eng :=
  State.retire_does.eng rfl rfl rfl rfl

@[simp] theorem retire_bth (s : State) (tid len : Nat) (f : Thread → Thread) : (s.retire tid len f).bth = s.bth :=
  State.retire_does.bth rfl rfl rfl

@[simp] theorem acqAll_mem (s : State) (tid : Nat) : (s.acqAll tid).mem = s.mem := State.acqAll_does.mem rfl rfl rfl

/-! ## Tickets issued -/

/-- A thread once it has its next ticket. -/
def Thread.ticketed (t : Thread) (rd : BitVec 5) : Thread :=
  ({ t with kticket := t.kticket + 1 }.setReg rd (BitVec.ofNat 64 (t.kticket + 1))).retire 4

theorem thread?_modTickets (s : State) (f : ThreadSt → List Ticket) (tid : Nat) :
    (s.modThr fun x => { x with tickets := f x }).thread? tid = s.thread? tid := rfl

theorem thread?_modEng (s : State) (f : EngineSt → EngineSt) (tid : Nat) : (s.modEng f).thread? tid = s.thread? tid := rfl

theorem newTicket_thread {s : State} {tid : Nat} {t : Thread} (h : s.thread? tid = some t) (rd : BitVec 5) :
    (s.newTicket tid t rd).2.thread? tid = some (t.ticketed rd) := by
  have hcount : (s.countIssue tid t).thread? tid = some t := (State.countIssue_does.thread? tid).trans h
  rw [State.newTicket, State.issueTicket, thread?_modThread_self (t := t)]
  · rfl
  · rw [thread?_modTickets, hcount]

@[simp] theorem newTicket_num (s : State) (tid : Nat) (t : Thread) (rd : BitVec 5) : (s.newTicket tid t rd).1 = t.kticket + 1 := rfl

theorem newTicket_eng (s : State) (tid : Nat) (t : Thread) (rd : BitVec 5) : (s.newTicket tid t rd).2.eng = s.eng :=
  State.newTicket_does.eng rfl rfl rfl rfl

/-- The transfer that a thread's instruction asks for. -/
def State.xferOf (s : State) (tid : Nat) (t : Thread) (n kind : Nat) (a1 a2 a3 : Word) (opt : Bool) (desc : Vector Word 4) : Transfer :=
  let x : Transfer :=
    { kind := kind, die := dieOfThr tid, tid := tid, uid := t.uid, ticket := n, ctx := t.ctx, seq := t.seq, berth := t.berth
      harbour := t.harbour, convoy := t.convoy, a1 := a1, a2 := a2, a3 := a3, opt := opt, desc := desc, bank := t.bank
      paused := false, pos := 0, started := s.clk.now, startCyc := 0, st := 0, dead := false, guard := false, ats := 0
      atsBad := false }
  { x with startCyc := s.cyc (dieOfThr tid) (if x.usesHold ∧ holdEng a2 ≥ 8 then 3 else 2) }

/-- A transfer joins the barge's list. -/
theorem newXfer_xfers (s : State) (tid : Nat) (t : Thread) (n kind : Nat) (a1 a2 a3 : Word) (opt : Bool) (desc : Vector Word 4) :
    (s.newXfer tid t n kind a1 a2 a3 opt desc).eng.xfers = s.eng.xfers ++ [s.xferOf tid t n kind a1 a2 a3 opt desc] := rfl

/-- An accepted transfer of a thread gets the next ticket. -/
theorem ticketed_newXfer {s : State} {tid : Nat} {t : Thread} (h : s.thread? tid = some t) (rd : BitVec 5) (kind : Nat)
    (a1 a2 a3 : Word) (opt : Bool) (desc : Vector Word 4) :
    ((s.newTicket tid t rd).2.newXfer tid t (s.newTicket tid t rd).1 kind a1 a2 a3 opt desc).thread? tid = some (t.ticketed rd) :=
  (State.newXfer_does.thread? tid).trans (newTicket_thread h rd)

/-- Settles O11: the operands pass, and the tile or the transfer joins its list. -/
theorem ticketsIssued : Obligations.TicketsIssued := by
  unfold Obligations.TicketsIssued
  refine ⟨fun s tid t r rd rs1 rs2 bs m h hmask hrest hal hroom hqueue hload hthr hclaim => ?tsub,
    fun s tid t r rd rs1 rs2 rs3 f2 store h hopt hal1 hal2 hrest hsecs hrows hpitch hmem hin hroom hslot => ?hold,
    fun s tid t r rd rs1 rs2 f7 bs m scat h hf7 hplace hroom hload hthr hdesc => ?gather⟩
  case tsub =>
    have heff : r.opTsub tid t rd rs1 rs2 = (m.newTicket tid t rd).2.modEng fun e => { e with tileq := e.tileq ++ [{
        die := dieOfThr tid, tid := tid, uid := t.uid, ticket := (m.newTicket tid t rd).1, ctx := t.ctx, seq := t.seq
        desc := wordsOf 8 bs, mask := BitVec.ofNat 16 (Word.fld (t.reg rs2) 15 0 &&& m.claimOf t)
        after := Word.bit (t.reg rs2) 16, kind := 0, owner := 0, srcDie := dieOfThr tid, outOwner := 0 }] } := by
      have hok : (Word.fld (t.reg rs2) 15 0 != 0 && Word.fld (t.reg rs2) 63 17 == 0) = true := by simp [hmask, hrest]
      simp only [State.opTsub, hok, legal_true, hal, hroom, hqueue, hload, if_neg hclaim]
      rfl
    refine h.gives (eff := fun th s => s.opTsub tid th rd rs1 rs2) (by unfold exec; rfl) fun n hn => ⟨?_, ?_⟩
    · rw [hn.thread?, heff, thread?_modEng]
      exact newTicket_thread hthr rd
    · rw [hn.eng, heff, ← newTicket_eng m tid t rd, newTicket_num]
      rfl
  case hold =>
    have hexec : exec (if store then .hst tid rd rs1 rs2 rs3 f2 else .hld tid rd rs1 rs2 rs3 f2) s =
        s.issue tid 4 fun th s => s.opHld tid th rd rs1 rs2 rs3 f2 store := by
      cases store <;> (unfold exec; rfl)
    have heff : r.opHld tid t rd rs1 rs2 rs3 f2 store = (r.newTicket tid t rd).2.newXfer tid t (r.newTicket tid t rd).1
        (if store then 1 else 0) (t.reg rs1) (t.reg rs2) (t.reg rs3) (f2 &&& 1 == 1) (Vector.replicate 4 0) := by
      have hok : (Word.fld (f2.setWidth 64) 1 1 == 0 &&
          ((t.reg rs1).toNat % 32 == 0 && holdOff (t.reg rs2) % 32 == 0 && Word.fld (t.reg rs2) 63 27 == 0) &&
          ((Word.fld (t.reg rs3) 15 0 == 0 || Word.fld (t.reg rs3) 31 16 == 0) ||
            (decide (Word.fld (t.reg rs3) 15 0 ≤ Word.fld (t.reg rs3) 47 32) &&
              decide (Word.fld (t.reg rs3) 15 0 ≤ Word.fld (t.reg rs3) 63 48) &&
              decide (holdOff (t.reg rs2) + ((Word.fld (t.reg rs3) 31 16 - 1) * Word.fld (t.reg rs3) 47 32 +
                Word.fld (t.reg rs3) 15 0) * 32 ≤ holdSize)))) = true := by
        simp [hopt, hal1, hal2, hrest, hpitch, hmem, hin]
      have hsome : (Word.fld (t.reg rs3) 15 0 == 0 || Word.fld (t.reg rs3) 31 16 == 0) = false := by simp [hsecs, hrows]
      have hthere : (r.engSlot (dieOfThr tid) (holdEng (t.reg rs2))).isNone = false := by
        rw [← Option.not_isSome, hslot, Bool.not_true]
      simp only [State.opHld]
      rw [hok, legal_true, hroom, hsome, hthere]
      simp only [Bool.not_true, Bool.false_eq_true, if_false]
    refine h.gives hexec fun n hn => ⟨?_, ?_⟩
    · rw [hn.thread?, heff]
      exact ticketed_newXfer h.thread? rd _ _ _ _ _ _
    · rw [hn.eng, heff, ← newTicket_eng r tid t rd]
      exact ⟨_, newXfer_xfers _ _ _ _ _ _ _ _ _ _, rfl, rfl, rfl, rfl, rfl, rfl, rfl, rfl, rfl⟩
  case gather =>
    have hexec : exec (if scat then .scat tid rd rs1 rs2 f7 else .gath tid rd rs1 rs2 f7) s =
        s.issue tid 4 fun th s => s.opGath tid th rd rs1 rs2 f7 scat := by
      cases scat <;> (unfold exec; rfl)
    have heff : r.opGath tid t rd rs1 rs2 f7 scat = (m.newTicket tid t rd).2.newXfer tid t (m.newTicket tid t rd).1
        (if scat then 3 else 2) 0 (t.reg rs2) 0 (f7 == 1) (wordsOf 4 bs) := by
      have hok : ((f7 == 0 || f7 == 1) && (if (f7 == 1) = true then (t.reg rs2).toNat % 32 == 0
          else holdOff (t.reg rs2) % 32 == 0 && Word.fld (t.reg rs2) 63 27 == 0)) = true := by
        rcases hf7 with rfl | rfl
        · obtain ⟨hal, hrest, -, -⟩ := hplace
          simp [hal, hrest]
        · have hal : (t.reg rs2).toNat % 32 = 0 := hplace
          simp [hal]
      have hin : (f7 == 1 || decide (holdOff (t.reg rs2) + 32 * ((Word.fld ((wordsOf 4 bs).toList.getD 2 0) 31 0 - 1) *
          Word.fld ((wordsOf 4 bs).toList.getD 3 0) 63 32 + Word.fld ((wordsOf 4 bs).toList.getD 2 0) 47 32) ≤ holdSize)) = true := by
        rcases hf7 with rfl | rfl
        · obtain ⟨-, -, hin, -⟩ := hplace
          rw [decide_eq_true hin, Bool.or_true]
        · rfl
      have hthere : ¬((!(f7 == 1)) = true ∧ (m.engSlot (dieOfThr tid) (holdEng (t.reg rs2))).isNone = true) := by
        rcases hf7 with rfl | rfl
        · obtain ⟨-, -, -, hslot⟩ := hplace
          rw [← Option.not_isSome, hslot]
          exact fun h => absurd h.2 (by decide)
        · exact fun h => absurd h.1 (by decide)
      simp only [State.opGath]
      rw [hok, legal_true, hroom]
      simp only [Bool.not_true, Bool.false_eq_true, if_false, hload]
      rw [hdesc, if_neg (by decide), hin, legal_true, if_neg hthere]
    refine h.gives hexec fun n hn => ⟨?_, ?_⟩
    · rw [hn.thread?, heff]
      exact ticketed_newXfer hthr rd _ _ _ _ _ _
    · rw [hn.eng, heff, ← newTicket_eng m tid t rd]
      exact ⟨_, newXfer_xfers _ _ _ _ _ _ _ _ _ _, rfl, rfl, rfl, rfl, rfl, rfl, rfl, rfl⟩

end Sys2Proof.Machine
end

section
/-! PROOFS. Loads, stores and atomics (R91 to R96, R114 to R116). -/

namespace Sys2Proof.Machine

/-! ## Loads -/

/-- The thread that a load of all its elements leaves, before it goes on. -/
def Thread.loaded (t : Thread) (form : LoadForm) (done : List (Elem × List Byte)) (fresh : Nat) : Thread := match form with
  | .vec v => { (done.foldl (fun t e => t.putElem form e.1 e.2) t).vtail v fresh with vstart := 0 }
  | _ => done.foldl (fun t e => t.putElem form e.1 e.2) t

/-- The free choices that a load's tail elements take. -/
def loadDraws : LoadForm → Nat
  | .vec v => v.nf * 512
  | _ => 0

/-- The state after a load of all its elements. -/
def State.loadDone (m : State) (tid : Nat) (t : Thread) (form : LoadForm) (len : Nat) (done : List (Elem × List Byte)) : State :=
  ((m.retire tid len fun t => t.loaded form done m.fresh).drawn (loadDraws form)).gotClear t.uid 0

theorem runLoad_of_loaded {r m : State} {tid : Nat} {t : Thread} {form : LoadForm} {va : Nat} {es : List Elem} {u : Upset}
    {home : Bool} {done : List (Elem × List Byte)} {l : Ld} (hes : t.loadElems form va = some es)
    (hload : State.loadElems tid t home u es r = (done, none, l, m)) (len : Nat) :
    r.runLoad tid t form va len home u =
      if home then (m.loadDone tid t form len done).acqAll tid else m.loadDone tid t form len done := by
  unfold State.runLoad
  rw [hes]
  simp only [hload]
  cases form <;> rfl

theorem thread?_drawn (s : State) (n tid : Nat) : (s.drawn n).thread? tid = s.thread? tid := rfl

theorem loadDone_thread {m : State} {tid : Nat} {t : Thread} (h : m.thread? tid = some t) (form : LoadForm) (len : Nat)
    (done : List (Elem × List Byte)) :
    (m.loadDone tid t form len done).thread? tid = some ((t.loaded form done m.fresh).retire len) := by
  rw [State.loadDone, State.gotClear_does.thread?, thread?_drawn, thread?_retire h]

theorem loadDone_basin (m : State) (tid : Nat) (t : Thread) (form : LoadForm) (len : Nat) (done : List (Elem × List Byte)) :
    (m.loadDone tid t form len done).basin = m.basin := by
  rw [State.loadDone, State.gotClear_does.basin rfl rfl rfl rfl, ← retire_basin m tid len fun t => t.loaded form done m.fresh]
  rfl

/-- A load of one element. -/
theorem loadElems_one {r m : State} {tid : Nat} {t : Thread} {home : Bool} {u : Upset} {e : Elem} {bs : List Byte}
    (h : r.loadBytes tid t e.va e.n home u = (.ok bs, m)) :
    State.loadElems tid t home u [e] r = ([(e, bs)], none, .ok [], m) := by
  simp only [State.loadElems, h]

/-- The one element of a scalar integer load. -/
def intElem (va lg : Nat) : Elem := { idx := 0, va := va, n := 2 ^ lg, reg := 0, off := 0 }

theorem loadElems_int {t : Thread} {rd : BitVec 5} {lg : Nat} {sg : Bool} (hlg : lg ≤ 3) (hsg : lg = 3 → sg = true) (va : Nat) :
    t.loadElems (.int rd lg sg) va = some [intElem va lg] := by
  have hok : ¬(lg > 3 ∨ (lg = 3 ∧ (!sg) = true)) := by
    rintro (h | ⟨h3, h⟩)
    · omega
    · rw [hsg h3] at h
      exact Bool.false_ne_true h
  exact if_neg hok

/-- Settles O15: with the elements loaded, the thread has their bytes and goes on. -/
theorem loadsReachRegisters : Obligations.LoadsReachRegisters := by
  unfold Obligations.LoadsReachRegisters
  refine ⟨fun s tid t r rd lg sg rs1 imm c u bs m h hlg hsg hload hthr => ?int,
    fun s tid t r form rs1 imm c u es done l m h hes hload hthr => ?any, fun s tid t r rd rs1 f7 u bs m h hf7 hload hthr => ?ldaq⟩
  case int =>
    refine h.gives (eff := fun th s => s.runLoad tid th (.int rd lg sg) (th.addr rs1 imm (loadIsVec (.int rd lg sg)))
      (if c then 2 else 4) false u) (by unfold exec; rfl) fun n hn => ?_
    rw [hn.thread?, runLoad_of_loaded (loadElems_int hlg hsg (t.addr rs1 imm (loadIsVec (.int rd lg sg))))
      (loadElems_one (e := intElem (t.addr rs1 imm (loadIsVec (.int rd lg sg))) lg) hload), if_neg Bool.false_ne_true]
    exact loadDone_thread hthr _ _ _
  case any =>
    refine h.gives (eff := fun th s => s.runLoad tid th form (th.addr rs1 imm (loadIsVec form)) (if c then 2 else 4) false u)
      (by unfold exec; rfl) fun n hn => ?_
    rw [hn.thread?, runLoad_of_loaded hes hload, if_neg Bool.false_ne_true, loadDone_thread hthr]
    cases form <;> rfl
  case ldaq =>
    have hok : ((0 : BitVec 5) == 0 && (f7 == 0 || f7 == 1)) = true := by rcases hf7 with rfl | rfl <;> rfl
    have hpow : 2 ^ (if f7 = 0 then 2 else 3) = if f7 = 0 then 4 else 8 := by split <;> rfl
    have hes := loadElems_int (t := t) (rd := rd) (lg := if f7 = 0 then 2 else 3) (sg := true) (by split <;> omega) (fun _ => rfl)
      (t.reg rs1).toNat
    rw [← hpow] at hload
    have heff : (r.legal tid ((0 : BitVec 5) == 0 && (f7 == 0 || f7 == 1)) fun s =>
        s.runLoad tid t (.int rd (if f7 = 0 then 2 else 3) true) (t.reg rs1).toNat 4 true u) =
        (m.loadDone tid t (.int rd (if f7 = 0 then 2 else 3) true) 4 [(intElem (t.reg rs1).toNat (if f7 = 0 then 2 else 3), bs)]).acqAll
          tid := by
      rw [hok, legal_true, runLoad_of_loaded hes (loadElems_one (e := intElem (t.reg rs1).toNat (if f7 = 0 then 2 else 3)) hload),
        if_pos rfl]
    refine h.gives (eff := fun th s => s.legal tid ((0 : BitVec 5) == 0 && (f7 == 0 || f7 == 1)) fun s =>
      s.runLoad tid th (.int rd (if f7 = 0 then 2 else 3) true) (th.reg rs1).toNat 4 true u) (by unfold exec; rfl)
      fun n hn => ⟨?_, ?_⟩
    · rw [hn.thread?, heff, State.acqAll_does.thread?, loadDone_thread hthr, ← hpow]
      rfl
    · rw [hn.basin, heff]
      exact acquire_basin (loadDone_basin _ _ _ _ _ _) _ _ _

/-! ## Stores -/

/-- What a thread that stores is before it goes on. -/
def Thread.stored (t : Thread) (form : StoreForm) : Thread := if storeIsVec form then { t with vstart := 0 } else t

theorem runStore_of_stored {r m : State} {tid : Nat} {t : Thread} {form : StoreForm} {va : Nat} {es : List (Elem × List Byte)}
    {home : Bool} {l : Ld} (hes : t.storeElems form va = some es) (hstore : State.storeElems tid t home es r = (none, l, m)) (len : Nat) :
    r.runStore tid t form va len home = m.retire tid len (Thread.stored · form) := by
  rw [State.runStore, hes]
  simp only [hstore]
  rfl

/-- A store of one element. -/
theorem storeElems_one {r m : State} {tid : Nat} {t : Thread} {home : Bool} {e : Elem} {bs bytes : List Byte}
    (h : r.storeBytes tid t e.va bytes home = (.ok bs, m)) : State.storeElems tid t home [(e, bytes)] r = (none, .ok [], m) := by
  simp only [State.storeElems, h]

theorem storeElems_int (t : Thread) {rs2 : BitVec 5} {lg : Nat} (hlg : lg ≤ 3) (va : Nat) :
    t.storeElems (.int rs2 lg) va = some [(intElem va lg, bytesOf (2 ^ lg) (t.reg rs2).toNat)] := if_neg (Nat.not_lt.mpr hlg)

/-- Settles O16: with the elements stored, the thread goes on and memory is as they leave it. -/
theorem storesRetire : Obligations.StoresRetire := by
  unfold Obligations.StoresRetire
  refine ⟨fun s tid t r rs2 lg rs1 imm c l m h hlg hstore hthr => ?int, fun s tid t r form rs1 imm c es l m h hes hstore hthr => ?any,
    fun s tid t r rs1 rs2 f7 p l m h hf7 hp hstore hthr => ?sdrl⟩
  case int =>
    refine h.gives (eff := fun th s => s.runStore tid th (.int rs2 lg) (th.addr rs1 imm (storeIsVec (.int rs2 lg)))
      (if c then 2 else 4) false) (by unfold exec; rfl) fun n hn => ?_
    rw [runStore_of_stored (storeElems_int t hlg (t.addr rs1 imm (storeIsVec (.int rs2 lg))))
      (storeElems_one (e := intElem (t.addr rs1 imm (storeIsVec (.int rs2 lg))) lg) hstore)] at hn
    exact hn.retired hthr
  case any =>
    refine h.gives (eff := fun th s => s.runStore tid th form (th.addr rs1 imm (storeIsVec form)) (if c then 2 else 4) false)
      (by unfold exec; rfl) fun n hn => ?_
    rw [runStore_of_stored hes hstore] at hn
    exact hn.retired hthr
  case sdrl =>
    have hok : ((0 : BitVec 5) == 0 && (f7 == 0 || f7 == 1)) = true := by rcases hf7 with rfl | rfl <;> rfl
    have hpow : 2 ^ (if f7 = 0 then 2 else 3) = if f7 = 0 then 4 else 8 := by split <;> rfl
    rw [← hpow] at hstore
    refine h.gives (eff := fun th s => s.legal tid ((0 : BitVec 5) == 0 && (f7 == 0 || f7 == 1)) fun s =>
      let (ok, s) := s.fenceRel tid th [(0, allMem)]
      if ok then s.runStore tid th (.int rs2 (if f7 = 0 then 2 else 3)) (th.reg rs1).toNat 4 true else s) (by unfold exec; rfl)
      fun n hn => ?_
    rw [hok, legal_true, hp] at hn
    simp only [if_true] at hn
    rw [runStore_of_stored (storeElems_int t (by split <;> omega) (t.reg rs1).toNat)
      (storeElems_one (e := intElem (t.reg rs1).toNat (if f7 = 0 then 2 else 3)) hstore)] at hn
    exact hn.retired hthr

/-! ## Atomics -/

/-- A release asked for by rl, whose write-backs are all accepted, only writes back. -/
theorem released_does {s r : State} {tid : Nat} {t : Thread} {rl : Bool}
    (h : (if rl then s.fenceRel tid t [(0, allMem)] else (true, s)) = (true, r)) : Does 0x980003f8 s r := by
  cases rl with
  | false =>
    cases h
    exact Does.refl
  | true => exact fenceRel_does_of_true ((if_pos rfl).symm.trans h)

section
variable (s : State) (tid : Nat) (aq : Bool)

theorem thread?_acqIf (j : Nat) : (if aq then s.acqAll tid else s).thread? j = s.thread? j := by
  cases aq with
  | false => rfl
  | true => exact State.acqAll_does.thread? j

theorem acqIf_mem : (if aq then s.acqAll tid else s).mem = s.mem := by
  cases aq with
  | false => rfl
  | true => exact acqAll_mem s tid

theorem acqIf_resv : (if aq then s.acqAll tid else s).basin.resv = s.basin.resv := by
  cases aq <;> rfl

end

/-- What an acquire asked for by aq leaves of the basin depends on the basin alone. -/
theorem acqIf_basin {s r : State} (h : r.basin = s.basin) (tid : Nat) (aq : Bool) :
    (if aq then r.acqAll tid else r).basin = (if aq then s.acqAll tid else s).basin := by
  cases aq with
  | false => exact h
  | true => exact acquire_basin h _ _ _

/-- The end of an atomic: the thread changes and goes on, then an acquire where aq asks for one. -/
def State.atomicDone (s : State) (tid : Nat) (aq : Bool) (f : Thread → Thread) : State :=
  if aq then (s.retire tid 4 f).acqAll tid else s.retire tid 4 f

theorem atomicDone_thread {s : State} {tid : Nat} {t : Thread} (h : s.thread? tid = some t) (aq : Bool) (f : Thread → Thread) :
    (s.atomicDone tid aq f).thread? tid = some ((f t).retire 4) := (thread?_acqIf _ tid aq tid).trans (thread?_retire h 4 f)

theorem atomicDone_basin (s : State) (tid : Nat) (aq : Bool) (f : Thread → Thread) :
    (s.atomicDone tid aq f).basin = (if aq then s.acqAll tid else s).basin := acqIf_basin (retire_basin s tid 4 f) tid aq

theorem atomicDone_mem (s : State) (tid : Nat) (aq : Bool) (f : Thread → Thread) : (s.atomicDone tid aq f).mem = s.mem :=
  (acqIf_mem _ tid aq).trans (retire_mem s tid 4 f)

theorem atomicDone_resv (s : State) (tid : Nat) (aq : Bool) (f : Thread → Thread) : (s.atomicDone tid aq f).basin.resv = s.basin.resv :=
  (acqIf_resv _ tid aq).trans (congrArg BasinSt.resv (retire_basin s tid 4 f))

/-- An atomic on DRAM whose old value comes at once. -/
theorem runAmo_of_dram {r p m : State} {tid ga pa va : Nat} {t : Thread} {op : AmoOp} {wd : AmoWidth} {operand comparand : BitVec 128}
    {u : Upset} {bs : List Byte} (hal : va % amoBytes wd = 0) (hga : r.xl t va .write = (.ok ga, p)) (hlow : ga < 2 ^ 43)
    (hreg : isReg ga = false) (hpa : p.dramAddr (dieOfThr tid) ga = some pa)
    (hamo : p.amoDram tid t pa op wd operand.toNat comparand.toNat u = (.ok bs, m)) (rd : BitVec 5) (aq : Bool) :
    r.runAmo tid t op wd rd va operand comparand aq u = m.atomicDone tid aq fun t => t.putOld rd wd (ofBytes bs) := by
  have hremote : isRemote ga = false := decide_eq_false (by omega)
  have hhost : isHost ga = false := by rw [isHost, decide_eq_false (by omega), Bool.false_and]
  unfold State.runAmo
  simp only [hal, hga, hremote, hreg, hhost, hpa, hamo]
  rfl

theorem recall_does (s : State) (line : Nat) (q : Req) : Does 0x900003f8 s (s.recall line q).2 := by
  unfold State.recall
  split
  · exact Does.refl
  next e _ =>
    split
    · exact Does.refl
    next n _ =>
      split
      · have hdrop : Does 0x900003f8 s ((s.farWriteBack n line).farDrop n line) :=
          (Does.refl.trans State.farWriteBack_does rfl).trans State.farDrop_does rfl
        exact (Does.ite (hdrop.trans State.predMove_does rfl) hdrop).trans State.dirRemove_does rfl
      · exact Does.refl.trans State.biSnoop_does rfl
    · have hdrops : Does 0x900003f8 s (e.sharers.foldl (fun s d => (s.farDrop d line).dirRemove line d) s) :=
        Does.foldl Does.refl fun _ _ h => (h.trans State.farDrop_does rfl).trans State.dirRemove_does rfl
      split
      · exact hdrops.trans State.biSnoop_does rfl
      · split
        · exact hdrops.trans State.biSnoop_does rfl
        · exact hdrops

theorem thread?_modBasin (s : State) (f : BasinSt → BasinSt) (tid : Nat) : (s.modBasin f).thread? tid = s.thread? tid := rfl

/-- A store-conditional ends its thread's reservation, with or without a store before. -/
theorem Charged.reservationEnded {k n : State} {tid : Nat} {t : Thread} {aq : Bool} {f : Thread → Thread}
    (hn : Charged ((k.modBasin fun b => { b with resv := NMap.erase b.resv tid }).atomicDone tid aq f) n) (h : k.thread? tid = some t) :
    n.thread? tid = some ((f t).retire 4) ∧ n.mem = k.mem ∧ ∀ q, q = k.modBasin (fun b => { b with resv := NMap.erase b.resv tid }) →
      n.basin = (if aq then q.acqAll tid else q).basin := by
  refine ⟨(hn.thread? tid).trans (atomicDone_thread ((thread?_modBasin k _ tid).trans h) aq f),
    hn.mem.trans (atomicDone_mem _ tid aq f), ?_⟩
  rintro q rfl
  exact hn.basin.trans (atomicDone_basin _ tid aq f)

/-- Settles O17: the address and what stands there decide. -/
theorem atomicsComplete : Obligations.AtomicsComplete := by
  unfold Obligations.AtomicsComplete
  refine ⟨fun s tid t r0 r rd rs1 rs2 op wd aq rl u i ga pa p bs m h hi hrel hal hga hlow hreg hpa hamo => ?amo,
    fun s tid t r0 r rd rs1 dword aq rl u pa p m bs q h hrel hpa hthere hown hrecall hq hbs => ?lr,
    fun s tid t r0 r rd rs1 rs2 dword aq rl pa p bytes h hrel hpa hbytes => ⟨fun hlost => ?lost, fun m hresv hred hwr => ?stored⟩⟩
  case amo =>
    have hexec : ∃ eff, exec i s = s.issue tid 4 eff ∧ eff t r0 = r0.opAmo tid t rd rs1 rs2 op wd aq rl u := by
      rcases hi with ⟨rfl, rfl, rfl⟩ | ⟨rfl, hlegal⟩
      · exact ⟨fun th s => s.opAmo tid th rd rs1 rs2 .fadd .w aq rl u, by unfold exec; rfl, rfl⟩
      · refine ⟨fun th s => s.legal tid (amoLegal rd rs2 op wd) fun s => s.opAmo tid th rd rs1 rs2 op wd aq rl u,
          by unfold exec; rfl, ?_⟩
        beta_reduce
        rw [hlegal, legal_true]
    obtain ⟨eff, hexec, heff⟩ := hexec
    have hamoDone : r0.opAmo tid t rd rs1 rs2 op wd aq rl u = m.atomicDone tid aq fun t => t.putOld rd wd (ofBytes bs) := by
      unfold State.opAmo
      simp only [hrel, if_true]
      exact runAmo_of_dram hal hga hlow hreg hpa hamo rd aq
    have hr : r.thread? tid = some t := ((released_does hrel).thread? tid).trans h.thread?
    have hp : p.thread? tid = some t := ((Does.named1 State.xl_does hga).thread? tid).trans hr
    have hm : m.thread? tid = some t := ((Does.named1 State.amoDram_does hamo).thread? tid).trans hp
    refine h.gives hexec fun n hn => ?_
    rw [heff, hamoDone] at hn
    exact ⟨(hn.thread? tid).trans (atomicDone_thread hm aq _), hn.basin.trans (atomicDone_basin m tid aq _),
      hn.mem.trans (atomicDone_mem m tid aq _)⟩
  case lr =>
    obtain ⟨x, k⟩ := q
    have hlr : r0.opLr tid t rd rs1 dword aq rl u = (k.modBasin fun b => { b with resv := NMap.put b.resv tid (lineOf pa, t.uid) }).atomicDone
        tid aq fun t => t.setReg rd (sext (8 * (if dword then 8 else 4)) (ofBytes bs)) := by
      unfold State.opLr
      simp only [hrel, Bool.not_true, Bool.false_eq_true, if_false, hpa, hthere, hown, beq_self_eq_true, Bool.and_self, if_true,
        hrecall, hq, hbs]
      rfl
    have hr : r.thread? tid = some t := ((released_does hrel).thread? tid).trans h.thread?
    have hp : p.thread? tid = some t := ((Does.named1 State.lrscAddr_does hpa).thread? tid).trans hr
    have hm : m.thread? tid = some t := ((Does.named1 (recall_does _ _ _) hrecall).thread? tid).trans hp
    have hk : k.thread? tid = some t := ((Does.named1 State.homeRead_does hq).thread? tid).trans hm
    refine h.gives (eff := fun th s => s.opLr tid th rd rs1 dword aq rl u) (by unfold exec; rfl) fun n hn => ?_
    rw [hlr] at hn
    refine ⟨(hn.thread? tid).trans (atomicDone_thread ((thread?_modBasin k _ tid).trans hk) aq _), ?_⟩
    rw [hn.basin, atomicDone_resv]
    exact NMap.get?_put_self _ _ _
  case lost =>
    have hsc : r0.opSc tid t rd rs1 rs2 dword aq rl = (p.modBasin fun b => { b with resv := NMap.erase b.resv tid }).atomicDone tid aq
        fun t => t.setReg rd 1 := by
      unfold State.opSc
      simp only [hrel, Bool.not_true, Bool.false_eq_true, if_false, hpa, if_pos hlost]
      rfl
    have hr : r.thread? tid = some t := ((released_does hrel).thread? tid).trans h.thread?
    have hp : p.thread? tid = some t := ((Does.named1 State.lrscAddr_does hpa).thread? tid).trans hr
    refine h.gives (eff := fun th s => s.opSc tid th rd rs1 rs2 dword aq rl) (by unfold exec; rfl) fun n hn => ?_
    rw [hsc] at hn
    exact hn.reservationEnded hp
  case stored =>
    have hwhole : ¬(p.redOpAt pa ≠ 0 ∧ (!redWhole (p.redOpAt pa) bytes) = true) := by
      rintro ⟨hne, hpart⟩
      rcases hred with h0 | hall
      · exact hne h0
      · rw [hall] at hpart
        exact Bool.false_ne_true hpart
    have hsc : r0.opSc tid t rd rs1 rs2 dword aq rl = (m.modBasin fun b => { b with resv := NMap.erase b.resv tid }).atomicDone tid aq
        fun t => t.setReg rd 0 := by
      unfold State.opSc
      simp only [hrel, Bool.not_true, Bool.false_eq_true, if_false, hpa, ← hbytes, if_neg (not_not.mpr hresv), if_neg hwhole, hwr]
      rfl
    have hr : r.thread? tid = some t := ((released_does hrel).thread? tid).trans h.thread?
    have hp : p.thread? tid = some t := ((Does.named1 State.lrscAddr_does hpa).thread? tid).trans hr
    have hm : m.thread? tid = some t := ((Does.named2 State.homeWrite_does hwr).thread? tid).trans hp
    refine h.gives (eff := fun th s => s.opSc tid th rd rs1 rs2 dword aq rl) (by unfold exec; rfl) fun n hn => ?_
    rw [hsc] at hn
    exact hn.reservationEnded hm

end Sys2Proof.Machine
end

section
/-! PROOFS. Range operations (R112, R113, R84), and moorings and ends of threads (R117 to R119, R124). -/

namespace Sys2Proof.Machine

/-! ## Range operations -/

/-- A range operation that goes through all its pieces retires. -/
theorem gives_of_rangeEnd {i : Instr} {s r m : State} {tid w : Nat} {t : Thread} {eff : Thread → State → State}
    (h : Issues s tid 4 t r) (hi : exec i s = s.issue tid 4 eff) (heff : eff t r = m.retire tid 4 id) (hm : Does w r m)
    (hw : w.testBit Part.threads.ctorIdx = false) :
    Gives i s fun n => n.thread? tid = some (t.retire 4) ∧ n.basin = m.basin ∧ n.mem = m.mem := by
  refine h.gives hi fun n hn => ?_
  rw [heff] at hn
  exact hn.retired ((hm.thread? tid hw).trans h.thread?)

theorem side_setSide (s : State) (slot off o : Nat) (x : Side) :
    (s.setSide slot off x).side slot o = if holdKey slot (o - o % 32) = holdKey slot (off - off % 32) then x else s.side slot o := by
  have hget := NMap.get?_put s.eng.side (holdKey slot (off - off % 32)) (holdKey slot (o - o % 32)) x
  simp only [State.side, State.setSide, State.modEng, NMap.getD, hget]
  split <;> rfl

/-- A sector marked spent is spent, and no other sector of the slot comes back. -/
theorem spent_holdSpent (s : State) (slot off o : Nat) (pz : Bool) (h : o = off ∨ (s.side slot o).spent = true) :
    ((s.holdSpent slot off pz).side slot o).spent = true := by
  rw [State.holdSpent, side_setSide]
  by_cases hkey : holdKey slot (o - o % 32) = holdKey slot (off - off % 32)
  · rw [if_pos hkey]
  · rw [if_neg hkey]
    rcases h with rfl | h
    · exact absurd rfl hkey
    · exact h

/-- The sectors of a hold range, marked spent from the first on. -/
def State.holdSpents (s : State) (slot off : Nat) (pz : Bool) (n : Nat) : State :=
  (List.range n).foldl (fun s i => s.holdSpent slot (off + 32 * i) pz) s

theorem spent_holdSpents (s : State) (slot off : Nat) (pz : Bool) {n j : Nat} (h : j < n) :
    ((s.holdSpents slot off pz n).side slot (off + 32 * j)).spent = true := by
  induction n with
  | zero => omega
  | succ n ih =>
    rw [State.holdSpents, List.range_succ, List.foldl_concat]
    refine spent_holdSpent _ slot (off + 32 * n) (off + 32 * j) pz ?_
    rcases Nat.lt_succ_iff_lt_or_eq.mp h with hlt | rfl
    · exact .inr (ih hlt)
    · exact .inl rfl

theorem holdSpents_does (s : State) (slot off : Nat) (pz : Bool) (n : Nat) : Does 0x1000 s (s.holdSpents slot off pz n) :=
  Does.foldl Does.refl fun _ _ h => h.trans State.holdSpent_does rfl

/-- Settles O18: the loops go through, and the instruction retires. -/
theorem rangeOperations : Obligations.RangeOperations := by
  unfold Obligations.RangeOperations
  refine ⟨fun s tid t r rs1 rs2 h => ?prefetch, fun s tid t r rs1 rs2 i drop a m h hi hloop => ?back,
    fun s tid t r rs1 rs2 a m h hloop => ?spent, fun s tid t r rs1 rs2 k h hrest hal hin hslot => ?hold⟩
  case prefetch =>
    refine h.gives (eff := fun th s => s.legal tid ((0 : BitVec 5) == 0) fun s =>
      ((rangeLines (th.reg rs1).toNat (th.reg rs2).toNat).foldl (fun s p => s.prefetch tid th p.1) s).retire tid 4 id)
      (by unfold exec; rfl) fun n hn => ?_
    have hall : Does 0x498180bf8 r ((rangeLines (t.reg rs1).toNat (t.reg rs2).toNat).foldl (fun s p => s.prefetch tid t p.1) r) :=
      Does.foldl Does.refl fun _ _ h => h.trans State.prefetch_does rfl
    rw [beq_self_eq_true, legal_true] at hn
    exact (hn.thread? tid).trans (thread?_retire ((hall.thread? tid).trans h.thread?) 4 id)
  case back =>
    subst hi
    have hexec : exec (if drop then .binv tid 0 rs1 rs2 else .bwb tid 0 rs1 rs2) s =
        s.issue tid 4 fun th s => s.opBack tid th 0 rs1 rs2 drop := by
      cases drop <;> (unfold exec; rfl)
    have hm := rangeLoop_does (f := fun s a _ => s.backStep tid t drop a) (l := rangeLines (t.reg rs1).toNat (t.reg rs2).toNat)
      (Does.refl (w := 0x4981003f8) (s := r)) fun _ _ _ h => h.trans State.backStep_does rfl
    rw [hloop] at hm
    refine gives_of_rangeEnd h hexec ?_ hm rfl
    rw [State.opBack, beq_self_eq_true, legal_true, hloop]
    rfl
  case spent =>
    have hm := rangeLoop_does (f := fun s a k => s.spentStep tid t a k)
      (l := blockPieces 32 ((t.reg rs2).toNat / 32 + 2) (t.reg rs1).toNat (t.reg rs2).toNat)
      (Does.refl (w := 0x4981809f8) (s := r)) fun _ _ _ h => h.trans State.spentStep_does rfl
    rw [hloop] at hm
    refine gives_of_rangeEnd h (eff := fun th s => s.legal tid ((0 : BitVec 5) == 0) fun s =>
      let (r, a, s) := rangeLoop (fun s a k => s.spentStep tid th a k)
        (blockPieces 32 ((th.reg rs2).toNat / 32 + 2) (th.reg rs1).toNat (th.reg rs2).toNat) s
      s.rangeEnd tid th r a) (by unfold exec; rfl) ?_ hm rfl
    rw [beq_self_eq_true, legal_true, hloop]
    rfl
  case hold =>
    have hok : ((0 : BitVec 5) == 0 && Word.fld (t.reg rs1) 63 27 == 0 && holdOff (t.reg rs1) % 32 == 0 &&
        decide (holdOff (t.reg rs1) + (t.reg rs2).toNat ≤ holdSize)) = true := by simp [hrest, hal, hin]
    refine h.gives (eff := fun th s => s.legal tid ((0 : BitVec 5) == 0 && Word.fld (th.reg rs1) 63 27 == 0 &&
        holdOff (th.reg rs1) % 32 == 0 && decide (holdOff (th.reg rs1) + (th.reg rs2).toNat ≤ holdSize)) fun s =>
      match s.cmdSlot (dieOfThr tid) th.ctx th.seq (holdEng (th.reg rs1)) with
      | none => s.retire tid 4 id
      | some k => (s.holdSpents k (holdOff (th.reg rs1)) (s.rbit (dieBase (dieOfThr tid) + 0x210) 1)
          ((th.reg rs2).toNat / 32)).retire tid 4 id) (by unfold exec; rfl) fun n hn => ?_
    rw [hok, legal_true, hslot] at hn
    refine ⟨(hn.thread? tid).trans (thread?_retire (((holdSpents_does r _ _ _ _).thread? tid).trans h.thread?) 4 id), fun j hj => ?_⟩
    rw [State.side, hn.eng, retire_eng]
    exact spent_holdSpents r k (holdOff (t.reg rs1)) _ hj

/-! ## Moorings -/

theorem berth?_modBerth_self {s : State} {b : Nat} {e : Berth} (h : s.berth? b = some e) (f : Berth → Berth) :
    (s.modBerth b f).berth? b = some (f e) := NMap.get?_alter_self h f

theorem berth?_drawn (s : State) (n b : Nat) : (s.drawn n).berth? b = s.berth? b := rfl

theorem thread?_modBerth (s : State) (b tid : Nat) (f : Berth → Berth) : (s.modBerth b f).thread? tid = s.thread? tid := rfl

theorem retire_berth? (s : State) (tid len : Nat) (f : Thread → Thread) (b : Nat) : (s.retire tid len f).berth? b = s.berth? b := by
  rw [State.berth?, retire_bth, State.berth?]

/-- A berth whose pool has its free moorings changed. -/
def Berth.freeing (e : Berth) (f : List Nat → List Nat) : Berth :=
  { e with pool := e.pool.map fun p => { p with free := f p.free } }

theorem free_freeing {e : Berth} {p : Pool} (h : e.pool = some p) (f : List Nat → List Nat) :
    ((some (e.freeing f)).bind (·.pool)).map (·.free) = some (f p.free) := by
  simp [Berth.freeing, h]

theorem moorJournal_of_kernel {t : Thread} (h : t.isConvoy = false) (s : State) (b pa : Nat) (pop : Bool) :
    s.moorJournal t b pa pop = s := by rw [State.moorJournal, if_neg (by rw [h]; exact Bool.false_ne_true)]

theorem getD_mem {α : Type} {l : List α} {i : Nat} (d : α) (h : i < l.length) : l.getD i d ∈ l := by
  rw [List.getD_eq_getElem _ _ h]
  exact List.getElem_mem h

/-- The mooring that a pop takes of a pool's free ones. -/
def State.moorPick (s : State) (p : Pool) : Nat := p.free.getD ((Config.freeWord s.fresh).toNat % p.free.length) 0

/-- The next record of a berth's fault queue leaves the threads other than the handler's. -/
theorem thread?_handlerNext_ne (s : State) {tid j : Nat} (hne : j ≠ tid) (b : Nat) :
    (s.handlerNext tid b).thread? j = s.thread? j := thread?_modThread_ne s hne _

theorem thread?_retire_ne (s : State) {tid j : Nat} (hne : j ≠ tid) (len : Nat) (f : Thread → Thread) :
    (s.retire tid len f).thread? j = s.thread? j := by
  unfold State.retire
  split
  · rfl
  · exact (thread?_modThread_ne _ hne _).trans (State.countIssue_does.thread? j)

theorem berth?_handlerNext (s : State) (tid b c : Nat) : (s.handlerNext tid b).berth? c = s.berth? c := rfl

/-- A thread that its fault's record lets go on, at the instruction (action 0) or past it (action 1). -/
def Thread.resumed (x : Thread) (act : Nat) : Thread :=
  if act = 1 then { x.retire x.ilen with wait := .none } else { x with wait := .none }

theorem Thread.resumed_eq (x : Thread) (act : Nat) : x.resumed act = { (if act = 1 then x.retire x.ilen else x) with wait := .none } := by
  unfold Thread.resumed
  split <;> rfl

/-- The state once a fault's record is out of its berth's queue. -/
def State.faultGone (s : State) (b id : Nat) : State :=
  s.modBerth b fun e => { e with faultq := e.faultq.filter fun q => q.id != id }

/-- Whether the thread of a fault's record waits for it. -/
def State.faultWaits (s : State) (f : FaultRec) : Bool := match s.thread? f.tid with
  | some t => t.uid == f.uid && t.wait == .fault f.id
  | none => false

/-- An action of a handler on a thread's own fault takes the record out, and lets the thread go on where it waits for it. -/
theorem faultAct_of_sync {s : State} {b act : Nat} {f : FaultRec} (hact : act ≤ 1) (hsync : f.sync = true) :
    s.faultAct b f act = if s.faultWaits f then (s.faultGone b f.id).modThread f.tid (Thread.resumed · act) else s.faultGone b f.id := by
  have h2 : ¬act = 2 := by omega
  simp only [State.faultAct, hsync, if_true, if_neg h2, true_and]
  rfl

theorem faultq_faultGone {s : State} {b : Nat} {e : Berth} (he : s.berth? b = some e) (id : Nat) :
    ((s.faultGone b id).berth? b).map (·.faultq) = some (e.faultq.filter fun q => q.id != id) := by
  rw [State.faultGone, berth?_modBerth_self he, Option.map_some]

theorem berth?_modThread (s : State) (tid b : Nat) (f : Thread → Thread) : (s.modThread tid f).berth? b = s.berth? b := rfl

theorem faultq_faultAct {s : State} {b act : Nat} {f : FaultRec} {e : Berth} (hact : act ≤ 1) (hsync : f.sync = true)
    (he : s.berth? b = some e) :
    ((s.faultAct b f act).berth? b).map (·.faultq) = some (e.faultq.filter fun q => q.id != f.id) := by
  rw [faultAct_of_sync hact hsync]
  split
  · rw [berth?_modThread]
    exact faultq_faultGone he f.id
  · exact faultq_faultGone he f.id

theorem thread?_faultAct {s : State} {b act : Nat} {f : FaultRec} {x : Thread} (hact : act ≤ 1) (hsync : f.sync = true)
    (hx : s.thread? f.tid = some x) (huid : x.uid = f.uid) (hwait : x.wait = .fault f.id) :
    (s.faultAct b f act).thread? f.tid = some (x.resumed act) := by
  have hmine : s.faultWaits f = true := by simp [State.faultWaits, hx, huid, hwait]
  rw [faultAct_of_sync hact hsync, if_pos hmine]
  exact thread?_modThread_self ((thread?_modBerth s b f.tid _).trans hx) _

/-- Settles O19: the operands and the pool decide, and the thread's end takes it off. -/
theorem mooringsAndEnds : Obligations.MooringsAndEnds := by
  unfold Obligations.MooringsAndEnds
  refine ⟨fun s tid t r rd rs1 e p h hallow hkernel he hp hfree => ?pop,
    fun s tid t r rs1 rs2 e p h hallow hkernel he hp hal hall hnew hgood => ?push,
    fun s tid t r rs1 rs2 e f h hhandler he hf hact hsync hwait hne => ?resume, fun s tid t r h hhandler => ?exit⟩
  case pop =>
    have heff : ∃ eff, exec (.mpop tid rd rs1 0) s = s.issue tid 4 eff ∧ eff t r =
        ((r.drawn 1).modBerth (Word.fld (t.reg rs1) 7 0) fun e => e.freeing fun l => l.filter (· != r.moorPick p)).retire tid 4
          fun th => th.setReg rd (BitVec.ofNat 64 (r.moorPick p)) := by
      refine ⟨_, by unfold exec; rfl, ?_⟩
      rw [beq_self_eq_true, legal_true]
      simp only [hallow, Bool.not_true, Bool.false_eq_true, if_false, he, Option.bind_some, hp, if_neg hfree, hkernel, false_and,
        moorJournal_of_kernel hkernel]
      rfl
    obtain ⟨eff, hexec, heff⟩ := heff
    refine h.gives hexec fun n hn => ?_
    rw [heff] at hn
    refine ⟨r.moorPick p, getD_mem 0 (Nat.mod_lt _ (List.length_pos_iff.mpr hfree)), ?_, ?_⟩
    · rw [hn.thread?]
      exact thread?_retire ((thread?_modBerth (r.drawn 1) _ _ _).trans ((thread?_drawn r 1 tid).trans h.thread?)) 4 _
    · rw [hn.berth?, retire_berth?, berth?_modBerth_self ((berth?_drawn r 1 _).trans he)]
      exact free_freeing hp _
  case push =>
    have heff : ∃ eff, exec (.mpush tid 0 rs1 rs2) s = s.issue tid 4 eff ∧ eff t r =
        (r.modBerth (Word.fld (t.reg rs1) 7 0) fun e => e.freeing fun l => (t.reg rs2).toNat :: l).retire tid 4 id := by
      refine ⟨_, by unfold exec; rfl, ?_⟩
      have hok : ¬((t.reg rs2).toNat % 0x10000 ≠ 0 ∨ (!p.all.contains (t.reg rs2).toNat) = true ∨
          p.free.contains (t.reg rs2).toNat = true) := by simp [hal, hall, hnew]
      have hwhole : ((r.pot ((t.reg rs2).toNat / 0x10000)).state == .quarantined) = false := beq_eq_false_iff_ne.mpr hgood
      rw [beq_self_eq_true, legal_true]
      simp only [hallow, Bool.not_true, Bool.false_eq_true, if_false, he, Option.bind_some, hp]
      rw [if_neg hok, hwhole]
      simp only [Bool.false_eq_true, if_false, moorJournal_of_kernel hkernel]
      rfl
    obtain ⟨eff, hexec, heff⟩ := heff
    refine h.gives hexec fun n hn => ?_
    rw [heff] at hn
    refine ⟨?_, ?_⟩
    · rw [hn.thread?]
      exact thread?_retire ((thread?_modBerth _ _ _ _).trans h.thread?) 4 id
    · rw [hn.berth?, retire_berth?, berth?_modBerth_self (e := e) he]
      exact free_freeing hp _
  case resume =>
    have heff : ∃ eff, exec (.kresume tid 0 rs1 rs2) s = s.issue tid 4 eff ∧ eff t r =
        ((r.faultAct t.berth f (t.reg rs2).toNat).retire tid 4 id).handlerNext tid t.berth := by
      refine ⟨_, by unfold exec; rfl, ?_⟩
      have hok : ((0 : BitVec 5) == 0 && t.handler && decide ((t.reg rs2).toNat ≤ 2)) = true := by
        simp [hhandler, hact.trans (by decide : 1 ≤ 2)]
      simp only [he, Option.bind_some, hf]
      rw [hok, legal_true]
    obtain ⟨eff, hexec, heff⟩ := heff
    refine h.gives hexec fun n hn => ?_
    rw [heff] at hn
    refine ⟨?_, fun x hx huid => ?_⟩
    · rw [hn.berth?, berth?_handlerNext, retire_berth?]
      exact faultq_faultAct hact hsync he
    · rw [hn.thread?, thread?_handlerNext_ne _ hne, thread?_retire_ne _ hne, thread?_faultAct hact hsync hx huid (hwait x hx huid),
        Thread.resumed_eq]
  case exit =>
    have heff : ∃ eff, exec (.kexit tid 0 0 0) s = s.issue tid 4 eff ∧ eff t r =
        (r.countIssue tid t).modThr fun x => { x with threads := NMap.erase x.threads tid } := by
      refine ⟨_, by unfold exec; rfl, ?_⟩
      have hok : ((0 : BitVec 5) == 0 && (0 : BitVec 5) == 0 && (0 : BitVec 5) == 0) = true := rfl
      rw [hok, legal_true]
      exact if_neg (by rw [hhandler]; exact Bool.false_ne_true)
    obtain ⟨eff, hexec, heff⟩ := heff
    refine h.gives hexec fun n hn => ?_
    have hthr : (r.countIssue tid t).thr = r.thr := State.countIssue_does.thr rfl rfl
    rw [heff] at hn
    rw [hn.thr, modThr_thr, hthr]
    exact ⟨rfl, rfl⟩

end Sys2Proof.Machine
end
